-- ==== Sys2Proof/Word.lean ====
section
/-! DEFINITION. The words of the NX48 and the canonical sparse map that holds memory, rows and tables. -/

namespace Sys2Proof

abbrev Byte := BitVec 8
/-- An instruction word, a scalar register, a register element (R36, R62). -/
abbrev Word := BitVec 32
abbrev DWord := BitVec 64
/-- One bit for each of the 96 lanes of a wave (R19, R24). -/
abbrev LaneMask := BitVec 96

/-- A sparse map from numbers: keys strictly rising, no entry equal to the default `d`, so that equal maps are
equal data. An unlisted key reads as the default. -/
abbrev SMap (α : Type) := List (Nat × α)

namespace SMap

def get {α : Type} (d : α) : SMap α → Nat → α
  | [], _ => d
  | (k', v) :: t, k => if k' = k then v else get d t k

/-- Puts `(k, v)` before the first larger key. -/
def ins {α : Type} (k : Nat) (v : α) : SMap α → SMap α
  | [] => [(k, v)]
  | (k', v') :: t => if k < k' then (k, v) :: (k', v') :: t else (k', v') :: ins k v t

def erase {α : Type} (m : SMap α) (k : Nat) : SMap α := m.filter (fun e => e.1 != k)

/-- Writing the default removes the entry. -/
def set {α : Type} [DecidableEq α] (d : α) (m : SMap α) (k : Nat) (v : α) : SMap α :=
  if v = d then m.erase k else ins k v (m.erase k)

/-- Every key of `[lo, lo + n)` back to the default. -/
def clearRange {α : Type} (m : SMap α) (lo n : Nat) : SMap α :=
  m.filter (fun e => !(decide (lo ≤ e.1) && decide (e.1 < lo + n)))

def rising {α : Type} : SMap α → Bool
  | [] => true
  | [_] => true
  | (a, _) :: (b, y) :: t => decide (a < b) && rising ((b, y) :: t)

/-- Every listed value through `f`; one that becomes the default is dropped. A list whose keys do not rise is written anew. -/
def mapVal {α : Type} [DecidableEq α] (d : α) (f : Nat → α → α) (m : SMap α) : SMap α :=
  if rising m then m.filterMap (fun e => if f e.1 e.2 = d then none else some (e.1, f e.1 e.2))
  else m.foldr (fun e r => set d r e.1 (f e.1 e.2)) []

/-- The canonical form. -/
def wf {α : Type} [DecidableEq α] (d : α) (m : SMap α) : Bool :=
  rising m && m.all (fun e => decide (e.2 ≠ d))

end SMap

/-- `n` little-endian bytes as a number. -/
def leNat : List Byte → Nat
  | [] => 0
  | b :: t => b.toNat + 256 * leNat t

/-- The `n` little-endian bytes of a number. -/
def leBytes : Nat → Nat → List Byte
  | 0, _ => []
  | n + 1, v => BitVec.ofNat 8 v :: leBytes n (v / 256)

/-- Bits `hi` down to `lo` of a number. -/
def bitsOf (v hi lo : Nat) : Nat := v / 2 ^ lo % 2 ^ (hi + 1 - lo)

def bitOf (v i : Nat) : Bool := v / 2 ^ i % 2 == 1

/-- Sign extension of a `w`-bit field to a number. -/
def sext (w v : Nat) : Int := if v % 2 ^ w < 2 ^ (w - 1) then (v % 2 ^ w : Nat) else (v % 2 ^ w : Nat) - (2 ^ w : Nat)

end Sys2Proof
end

