-- ==== Sys2Proof/Syntax.lean ====
section
/-! DEFINITION. The instructions of Terten-1 and the steps of the package that have no word: one constructor for each
row of the opcode table. Register numbers and small codes are numbers; their limits are in WellFormed. -/

namespace Sys2Proof

/-- Element types: the TYPE codes 0 to 11 of R87. -/
inductive EType where
  | i32 | n32 | f32 | f16x2 | b16x2 | i16x2 | i8x4 | n8x4 | t8x4 | w8x4 | i4x8 | t4x8
deriving DecidableEq, Repr, Inhabited

/-- Lane tests of IF and the vote forms (R103, R137). -/
inductive Cc where
  | nz | z | neg | nneg
deriving DecidableEq, Repr

/-- Conditions of BRC (R112). -/
inductive BrCond where
  | none | any | all | z | nz | neg | pos
deriving DecidableEq, Repr

/-- Conditions of VCMP and SCMP (R138, R144). -/
inductive Cond where
  | eq | ne | lt | le | gt | ge | ord | uno
deriving DecidableEq, Repr

/-- Lane patterns of VSHF and VSHOP (R138, R154). -/
inductive Pat where
  | xor | up | down | index
deriving DecidableEq, Repr

/-- Operations of VSHOP and VSEGOP (R138). -/
inductive XOp where
  | add | min | max | and | or | xor
deriving DecidableEq, Repr

/-- Spaces of the indexed forms (R160). -/
inductive Space where
  | handle (h : Nat) | slot | ceil
deriving DecidableEq, Repr

/-- Spaces of the copy commands (R180). -/
inductive CpSpace where
  | slot | common | ceil
deriving DecidableEq, Repr

/-- Audiences of an adit (R51, R165). -/
inductive Audience where
  | block | core | partition
deriving DecidableEq, Repr, Inhabited

/-- Scopes (R172, R209). -/
inductive Scope where
  | wave | block | core | partition | package | system
deriving DecidableEq, Repr

/-- Weight formats of MWL (R191). -/
inductive WFmt where
  | t8 | w8 | i8 | t4 | b16
deriving DecidableEq, Repr, Inhabited

/-- The special registers of R121. -/
inductive SpecReg where
  | wfield (i : Nat) | wid | lane | md | flg | lc (k : Nat) | wave | core | step | clock | gng | stat | lid | blk | ilck
deriving DecidableEq, Repr

/-- A message of R321; `module` is the UCIe module that carries it, `rsv` is true when a reserved bit is set. -/
structure HostMsg where
  module : Nat := 0
  typ : BitVec 8
  sub : BitVec 8
  tag : BitVec 16 := 0
  len : Nat := 0
  stat : BitVec 16 := 0
  addr : DWord := 0
  arg : DWord := 0
  rsv : Bool := false
  payload : List Byte := []
deriving DecidableEq, Repr, Inhabited

/-- What the loader is given (R28, R64, R316): the image's bytes and where it puts them. -/
structure ImageLoad where
  image : Nat
  bytes : List Byte
  textVa : Nat
  textPa : Nat
  dataVa : Nat
  dataPa : Nat
  pageSize : Nat
  /-- the physical addresses of the table entries in which it maps the code pages, ascending -/
  leaves : List Nat := []
deriving DecidableEq, Repr

/-- Where an uncorrectable error arises (R50). -/
inductive ErrorSite where
  | unit (pa : Nat)
  | element (core row elem : Nat)
deriving DecidableEq, Repr

/-- States of a voltage island (R328). -/
inductive Island where
  | run | idle | off
deriving DecidableEq, Repr, Inhabited

inductive Instr where
  -- control (R102 to R106)
  | nop
  | ifOpen (a : Nat) (cc : Cc)
  | elseFlip
  | endIf
  | ifm (a : Nat) (inv : Bool)
  | loop (k a : Nat) (disp : BitVec 16)
  | endl (k : Nat) (disp : BitVec 22)
  | brk (n : Nat)
  | cont (n : Nat)
  | lbeg
  | lend (hint : BitVec 2) (disp : BitVec 22)
  | bra (hint : BitVec 2) (disp : BitVec 22)
  | brc (cond : BrCond) (a : Nat) (disp : BitVec 15)
  | brx (p : Nat)
  | call (link : Nat) (disp : BitVec 19)
  | callx (link p : Nat)
  | ret (p : Nat)
  | exit
  | trap (imm : BitVec 16)
  | rte
  | bkpt (imm : BitVec 16)
  | ppt (n : Nat)
  | mode (imm : BitVec 16)
  | modes (a : Nat)
  | rdsr (d : Nat) (sr : SpecReg)
  | wrsr (sr : SpecReg) (a : Nat)
  | nsav (d : Nat)
  | nrst (a : Nat)
  | bar (d : Nat) (mask : BitVec 16)
  | bara (mask : BitVec 16)
  | barw (d : Nat)
  | evpub
  | launch (sb : Nat)
  | task (sb r : Nat)
  | yield
  | nap (n : Nat)
  | ilock (sb : Nat)
  | iunlk (sb : Nat)
  | waitf (mask : BitVec 12)
  | adrd (d sel : Nat)
  | admix (a tag : Nat)
  -- scalar (R136)
  | sadd (d a b : Nat)
  | ssub (d a b : Nat)
  | smul (d a b : Nat)
  | smulh (d a b : Nat)
  | sand (d a b : Nat)
  | sor (d a b : Nat)
  | sxor (d a b : Nat)
  | snot (d a : Nat)
  | sshl (d a b : Nat)
  | sshr (d a b : Nat)
  | ssra (d a b : Nat)
  | smin (d a b : Nat)
  | smax (d a b : Nat)
  | scmp (d a b : Nat) (cond : Cond)
  | ssel (d a b c : Nat)
  | smov (d a : Nat)
  | sli (d : Nat) (imm : BitVec 16)
  | shi (d : Nat) (imm : BitVec 16)
  | saddi (d : Nat) (imm : BitVec 16)
  | sbfe (d a : Nat) (sx : Bool) (len pos : Nat)
  | spopc (d a : Nat)
  | sclz (d a : Nat)
  -- vector (R137)
  | vadd (d a b : Nat)
  | vsub (d a b : Nat)
  | vmul (d a b : Nat)
  | vmulh (d a b : Nat)
  | vfma (d a b c : Nat)
  | vmin (d a b : Nat)
  | vmax (d a b : Nat)
  | vabs (d a : Nat)
  | vneg (d a : Nat)
  | vand (d a b : Nat)
  | vor (d a b : Nat)
  | vxor (d a b : Nat)
  | vnot (d a : Nat)
  | vshl (d a b : Nat)
  | vshr (d a b : Nat)
  | vsra (d a b : Nat)
  | vcmp (d a b : Nat) (cond : Cond)
  | vsel (d a b c : Nat)
  | vmov (d a : Nat)
  | vli (d : Nat) (imm : BitVec 16)
  | vbcs (d a : Nat)
  | vcvt (d a : Nat) (tgt src : EType) (part : Nat)
  | vscl (d a b : Nat)
  | vbfe (d a : Nat) (sx : Bool) (len pos : Nat)
  | vbfi (d a b : Nat) (len pos : Nat)
  | vpopc (d a : Nat)
  | vclz (d a : Nat)
  | vdot (d a b : Nat)
  | vdota (d a b : Nat)
  | vrcp (d a : Nat)
  | vrsq (d a : Nat)
  | vsqrt (d a : Nat)
  | vex2 (d a : Nat)
  | vlg2 (d a : Nat)
  | vsin (d a : Nat)
  | vcos (d a : Nat)
  | vlid (d a b : Nat)
  -- lane exchange (R137, R138)
  | vshf (d a b : Nat) (pat : Pat) (k : Nat)
  | vshop (d a b : Nat) (op : XOp) (pat : Pat) (k : Nat)
  | vsegop (d a b : Nat) (op : XOp) (total : Bool)
  | vbal (d a : Nat) (cc : Cc)
  | vany (d a : Nat) (cc : Cc)
  | vall (d a : Nat) (cc : Cc)
  | vmatch (d a : Nat)
  | vffs (d a : Nat) (cc : Cc)
  -- indexed and adit access, adits, common slots (R160, R165)
  | xget (d o : Nat) (sp : Space)
  | xput (v o : Nat) (sp : Space)
  | xgetw (d a : Nat) (sp : Space)
  | xputw (v a : Nat) (sp : Space)
  | xatm (d o c : Nat) (sp : Space) (op : Nat)
  | xexp (sb entry : Nat) (aud : Audience) (xch cmn : Bool)
  | xrev (d entry : Nat)
  | xatt (sb h : Nat) (adr : Bool)
  | xdet (h : Nat)
  | xalloc (d a : Nat)
  | xfree (d a b : Nat)
  | xprb (d : Nat) (own : Bool) (n : Nat)
  -- device memory (R172, R176)
  | vldb (d o p i : Nat)
  | vldh (d o p i : Nat)
  | vldw (d o p i : Nat)
  | vldd (d o p i : Nat)
  | vstb (v o p i : Nat)
  | vsth (v o p i : Nat)
  | vstw (v o p i : Nat)
  | vstd (v o p i : Nat)
  | sldw (d o p i : Nat)
  | sldd (d o p i : Nat)
  | sstw (v o p i : Nat)
  | sstd (v o p i : Nat)
  | vamo (d o p i op c : Nat) (sc : Scope) (w64 : Bool)
  | vamoc (d o p i c : Nat) (sc : Scope) (w64 : Bool)
  | fence (pred succ : BitVec 8) (sc : Scope)
  -- copy engines and tags (R180)
  | cpin (sb tag : Nat) (sp : CpSpace)
  | cpout (sb tag : Nat) (sp : CpSpace)
  | cprr (sb tag : Nat) (common : Bool)
  | gath (sb tag : Nat) (adit : Bool) (sz vi : Nat)
  | scat (sb tag : Nat) (adit : Bool) (sz vi : Nat)
  | twall (a : Nat)
  | twany (d a : Nat)
  | tffr (d a : Nat)
  | tclr (a : Nat)
  | tstat (d sel : Nat)
  -- matrix bays (R195)
  | gang (d a : Nat)
  | mwl (bay lat a : Nat) (fmt : WFmt)
  | mma (f count lat : Nat)
  | mdrn (sb bay : Nat) (out : EType) (i32acc clr common : Bool)
  | mzer (bay row count : Nat)
  | mhint (bay cycles : Nat)
  | mstat (d bay : Nat) (sel clr : Bool)
  -- geodes (R253)
  | pbind (g r a : Nat)
  | pinit (g : Nat)
  | pmul (g a b : Nat)
  | pdiv (g a b : Nat)
  | prsc (g : Nat)
  | pout (d g a : Nat)
  | pdesc (d g : Nat)
  | punb (g : Nat)
  -- streams (R241)
  | wemit (r a d : Nat)
  | wmadv (d a p : Nat)
  | wmidl (d a : Nat)
  | wmrd (d a sel : Nat)
  | wrecv (r w d bnd : Nat) (wait : Bool)
  | wlate (r w d bnd : Nat) (wait : Bool)
  | wnext (d bnd : Nat) (wait : Bool)
  | wpub (r a d bnd : Nat)
  | wamd (r a d bnd : Nat)
  | wrel (d a bnd : Nat)
  -- tool forms (R105)
  | trmp (hint : BitVec 2) (disp : BitVec 22)
  | trmpr (hint : BitVec 2) (disp : BitVec 22)
  | patch (payload : BitVec 22)
  -- issue and completion
  | clauseIssue (p : Nat)
  | returningOperationComplete (op : Nat)
  | storePerformed (op lane : Nat)
  | flagWaitDemotion (p : Nat)
  | napExpiry (p : Nat)
  | ageingDisplacement (core pipe : Nat)
  | slotRelease (p : Nat)
  -- barriers, adits, tasks, rendezvous
  | barrierGenerationComplete (blk : Nat)
  | aditScrubEnd (p entry : Nat)
  | aditDrainComplete (p entry : Nat)
  | remoteAccessAccept (req : Nat)
  | xattAnswer (p : Nat)
  | taskWaveFormation (core : Nat)
  | taskWaitTimeout (core : Nat)
  | gangRendezvousComplete (blk n : Nat)
  | gangTimeout (blk n : Nat)
  -- bays, geodes, engines
  | bayCommandStart (core bay cmd : Nat)
  | latchReady (core bay lat : Nat)
  | mmaRetire (core bay : Nat)
  | accumulationWrite (core bay : Nat)
  | drainRowWrite (core bay : Nat)
  | rampUpEnd (core bay : Nat)
  | rampDownStart (core bay : Nat)
  | rampDownEnd (core bay : Nat)
  | geodeCommandComplete (core : Nat)
  | engineRowDelivery (cmd item : Nat)
  | forcedWriteApply (core : Nat)
  -- watermark unit
  | watermarkUnitEntry (n : Nat)
  | idleTimeout (stream src : Nat)
  | scaleOutRecord (port stream src : Nat) (rec : List Word)
  -- translation and halts
  | translationMiss (core : Nat)
  | faultReply (m : HostMsg)
  | stallEscalation (core : Nat)
  | haltLineArrival (lid core : Nat)
  | haltEnginesStopped (lid core : Nat)
  -- pre-emption
  | preemptionRequest (lid : Nat)
  | preemptionBoundExpiry (lid : Nat)
  | waveSave (p : Nat)
  | saveTimeout (lid : Nat)
  | contextRestore (lid : Nat)
  | timeSliceExpiry (cls : Nat)
  -- launches
  | launchAcceptance (req : Nat)
  | rectangleClaim (q : Nat) (mismatch : Option Nat)
  | blockPlacement (lid : Nat)
  | samplePeriodExpiry
  -- audit
  | auditReplayStart (job : Nat)
  | auditThirdRunStart (job : Nat)
  | auditVerdict (job : Nat)
  | auditPlacementTimeout (job : Nat)
  | captureReplay (job core : Nat)
  -- host messages
  | launchMessage (m : HostMsg)
  | streamRecordsMessage (m : HostMsg)
  | streamAdvanceMessage (m : HostMsg)
  | streamIdleMessage (m : HostMsg)
  | debugStop (m : HostMsg)
  | debugRelease (m : HostMsg)
  | debugStep (m : HostMsg)
  | debugReadState (m : HostMsg)
  | debugWriteState (m : HostMsg)
  | hostStop (m : HostMsg)
  | directMemoryRead (m : HostMsg)
  | directMemoryWrite (m : HostMsg)
  | controlWindowRead (m : HostMsg)
  | controlWindowWrite (m : HostMsg)
  | streamTableWrite (m : HostMsg)
  | tlbInvalidation (m : HostMsg)
  | quarantineClear (m : HostMsg)
  | attestation (m : HostMsg)
  -- links, power, loader, errors
  | ucieModuleDown (n : Nat)
  | ucieLaneTrainDown (n : Nat)
  | portLinkDown (n : Nat)
  | remoteRetransmissionFailure (cmd : Nat)
  | remoteWriteAck (cmd item : Nat)
  | powerGood
  | islandStateChange (island : Nat) (st : Island)
  | thermalThrottleStart (die : Nat)
  | thermalThrottleEnd (die : Nat)
  | thermalShutdown
  | kernelImageLoad (ld : ImageLoad)
  | kernelImageUnload (image : Nat)
  | scaleOutCopyTraffic (port : Nat) (write : Bool) (pa : Nat) (data : List Byte)
  | portSourceAdvance (port stream src : Nat) (x : DWord)
  | uncorrectableError (site : ErrorSite)
  | keptLogFree (lid : Nat)
deriving DecidableEq, Repr

end Sys2Proof
end

