-- ==== Sys2Proof/WellFormed.lean ====
section
/-! DEFINITION. Which instructions have an encoding: the ranges of R71 and of each form's table, and the ranges of
the numbers that name units in a step without a word. -/

namespace Sys2Proof

/-- Element width of a type (R85, R87). -/
def EType.width : EType → Nat
  | .i32 | .n32 | .f32 => 32
  | .f16x2 | .b16x2 | .i16x2 => 16
  | .i8x4 | .n8x4 | .t8x4 | .w8x4 => 8
  | .i4x8 | .t4x8 => 4

/-- Elements per 32-bit lane (R85). -/
def EType.count (t : EType) : Nat := 32 / t.width

/-- The divisor k of R147. -/
def cvtParts (tgt src : EType) : Nat := max (src.count / tgt.count) (tgt.count / src.count)

/-- md values that md may hold (R86, R87). -/
def mdLegal (m : BitVec 16) : Bool := decide (m.toNat < 16384) && decide (m.toNat % 16 ≤ 11)

def isS (r : Nat) : Bool := decide (r < 64)
def isV (r : Nat) : Bool := decide (r < 256)
/-- A link pair, or the target pair of a transfer (R71, R105). -/
def isPair (p : Nat) : Bool := decide (p < 30)
/-- A pair whose even register is named by number. -/
def isEven (r : Nat) : Bool := decide (r < 64) && decide (r % 2 = 0)
def isBlock (sb : Nat) : Bool := decide (sb ≤ 60)
def isGeode (g : Nat) : Bool := decide (g < 8)
def isBay (b : Nat) : Bool := decide (b < 3)

def Space.wf : Space → Bool
  | .handle h => decide (h < 16)
  | .slot | .ceil => true

def SpecReg.wf : SpecReg → Bool
  | .wfield i => decide (i < 6)
  | .lc k => decide (k < 3)
  | _ => true

/-- The destination of RDSR (R121). -/
def SpecReg.destOk (sr : SpecReg) (d : Nat) : Bool :=
  match sr with
  | .wfield _ | .lane => isV d
  | .wid => decide (d ≤ 254)
  | .clock | .blk => isEven d
  | _ => isS d

/-- The registers that WRSR may write (R121). -/
def SpecReg.writable : SpecReg → Bool
  | .flg => true
  | .lc k => decide (k < 3)
  | _ => false

def isS3 (d a b : Nat) : Bool := isS d && isS a && isS b
def isV3 (d a b : Nat) : Bool := isV d && isV a && isV b
/-- A memory form's fields: its base pair may be any (R71, R172). -/
def isMem (v o p i : Nat) : Bool := isV v && isV o && decide (p < 32) && decide (i < 8)
def isMemS (v o p i : Nat) : Bool := isS v && isS o && decide (p < 32) && decide (i < 8)
def isField (len pos : Nat) : Bool := decide (1 ≤ len) && decide (len ≤ 32) && decide (pos + len ≤ 32) && decide (pos < 32)
def isExchange (b : Nat) (pat : Pat) (k : Nat) : Bool :=
  if pat = .index then isV b && decide (k = 0) else decide (b = 0) && decide (k ≤ 95)
def isCmd (sb tag : Nat) : Bool := isBlock sb && decide (tag < 64)
def isCore (c : Nat) : Bool := decide (c < 48)

def Instr.wf : Instr → Bool
  | .nop | .elseFlip | .endIf | .lbeg | .exit | .rte | .evpub | .yield => true
  | .ifOpen a _ => isV a
  | .ifm a _ => decide (a ≤ 61)
  | .loop k a _ => decide (k < 3) && isS a
  | .endl k _ => decide (k < 3)
  | .brk n => decide (n ≤ 62)
  | .cont n => decide (n ≤ 62)
  | .lend _ _ | .bra _ _ => true
  | .brc c a _ => if c = .none ∨ c = .any ∨ c = .all then decide (a = 0) else isS a
  | .brx p => isPair p
  | .call l _ => isPair l
  | .callx l p => isPair l && isPair p
  | .ret p => isPair p
  | .trap _ | .bkpt _ => true
  | .ppt n => decide (n < 65536)
  | .mode m => mdLegal m
  | .modes a => isS a
  | .rdsr d sr => sr.wf && sr.destOk d
  | .wrsr sr a => sr.writable && isS a
  | .nsav d => isV d
  | .nrst a => isV a
  | .bar d _ => isS d
  | .bara _ => true
  | .barw d => isS d
  | .launch sb => isBlock sb
  | .task sb r => isBlock sb && decide (r ≤ 240)
  | .nap n => decide (n < 65536)
  | .ilock sb => isBlock sb
  | .iunlk sb => isBlock sb
  | .waitf _ => true
  | .adrd d sel => isS d && decide (sel < 2)
  | .admix a tag => isV a && decide (tag < 256)
  | .sadd d a b | .ssub d a b | .smul d a b | .smulh d a b | .sand d a b | .sor d a b | .sxor d a b
  | .sshl d a b | .sshr d a b | .ssra d a b | .smin d a b | .smax d a b => isS3 d a b
  | .snot d a | .smov d a | .spopc d a | .sclz d a => isS d && isS a
  | .scmp d a b _ => isS3 d a b
  | .ssel d a b c => isS3 d a b && isS c
  | .sli d _ | .shi d _ | .saddi d _ => isS d
  | .sbfe d a _ len pos => isS d && isS a && isField len pos
  | .vadd d a b | .vsub d a b | .vmul d a b | .vmulh d a b | .vmin d a b | .vmax d a b
  | .vand d a b | .vor d a b | .vxor d a b | .vshl d a b | .vshr d a b | .vsra d a b
  | .vdot d a b | .vdota d a b => isV3 d a b
  | .vfma d a b c | .vsel d a b c => isV3 d a b && isV c
  | .vabs d a | .vneg d a | .vnot d a | .vmov d a | .vpopc d a | .vclz d a
  | .vrcp d a | .vrsq d a | .vsqrt d a | .vex2 d a | .vlg2 d a | .vsin d a | .vcos d a => isV d && isV a
  | .vcmp d a b _ => isV3 d a b
  | .vli d _ => isV d
  | .vbcs d a => isV d && isS a
  | .vcvt d a tgt src part => isV d && isV a && decide (part < cvtParts tgt src)
  | .vscl d a b => isV d && isV a && isS b
  | .vbfe d a _ len pos => isV d && isV a && isField len pos
  | .vbfi d a b len pos => isV3 d a b && isField len pos
  | .vlid d a b => isV d && isS a && isS b
  | .vshf d a b pat k => isV d && isV a && isExchange b pat k
  | .vshop d a b _ pat k => isV d && isV a && isExchange b pat k
  | .vsegop d a b _ _ => isV3 d a b
  | .vbal d a _ => decide (d ≤ 61) && isV a
  | .vany d a _ | .vall d a _ | .vffs d a _ => isS d && isV a
  | .vmatch d a => decide (d ≤ 253) && isV a
  | .xget d o sp => isV d && isV o && sp.wf
  | .xput v o sp => isV v && isV o && sp.wf
  | .xgetw d a sp => isV d && isS a && sp.wf
  | .xputw v a sp => isV v && isS a && sp.wf
  | .xatm d o c sp op => isV3 d o c && sp.wf && decide (sp ≠ .ceil) && decide (op ≤ 9)
  | .xexp sb e _ _ _ => isBlock sb && decide (e < 16)
  | .xrev d e => isS d && decide (e < 16)
  | .xatt sb h _ => isBlock sb && decide (h < 16)
  | .xdet h => decide (h < 16)
  | .xalloc d a => decide (d ≤ 62) && isS a
  | .xfree d a b => isS3 d a b
  | .xprb d _ n => decide (d ≤ 62) && decide (n < 16)
  | .vldb d o p i | .vldh d o p i | .vldw d o p i => isMem d o p i
  | .vldd d o p i => isMem d o p i && decide (d ≤ 254)
  | .vstb v o p i | .vsth v o p i | .vstw v o p i => isMem v o p i
  | .vstd v o p i => isMem v o p i && decide (v ≤ 254)
  | .sldw d o p i => isMemS d o p i
  | .sldd d o p i => isMemS d o p i && isEven d
  | .sstw v o p i => isMemS v o p i
  | .sstd v o p i => isMemS v o p i && isEven v
  | .vamo d o p i op c _ w => isMem d o p i && decide (op ≤ 8) && isV c && (!w || (decide (d ≤ 254) && decide (c ≤ 254)))
  | .vamoc d o p i c _ w => isMem d o p i && isV c && (!w || (decide (d ≤ 254) && decide (c ≤ 254)))
  | .fence _ _ _ => true
  | .cpin sb t _ | .cpout sb t _ | .cprr sb t _ => isCmd sb t
  | .gath sb t adit sz vi | .scat sb t adit sz vi => isCmd sb t && decide (sz < 4) && isV vi && (!adit || decide (sz = 2))
  | .twall a => isEven a
  | .twany d a | .tffr d a => isS d && isEven a
  | .tclr a => isEven a
  | .tstat d sel => isEven d && decide (sel < 4)
  | .gang d a => isS d && isS a
  | .mwl bay lat a _ => isBay bay && decide (lat < 2) && isS a
  | .mma f count lat => isV f && decide (1 ≤ count) && decide (count ≤ 64) && decide (f + count ≤ 256) && decide (lat < 2)
  | .mdrn sb bay _ _ _ _ => isBlock sb && isBay bay
  | .mzer bay row count => isBay bay && decide (row < 64) && decide (1 ≤ count) && decide (row + count ≤ 64)
  | .mhint bay n => isBay bay && decide (n < 65536)
  | .mstat d bay sel clr => isEven d && isBay bay && !(sel && clr)
  | .pbind g r a => isGeode g && isV r && isS a
  | .pinit g | .prsc g | .punb g => isGeode g
  | .pmul g a b | .pdiv g a b => isGeode g && isV a && isV b
  | .pout d g a => isV d && isGeode g && isS a
  | .pdesc d g => decide (d ≤ 60) && isGeode g
  | .wemit r a d => decide (r ≤ 240) && isS a && isS d
  | .wmadv d a p => isS d && isS a && isEven p
  | .wmidl d a => isS d && isS a
  | .wmrd d a sel => isEven d && isS a && decide (sel < 4)
  | .wrecv r w d bnd _ | .wlate r w d bnd _ => decide (r ≤ 240) && decide (w ≤ 254) && isS d && decide (bnd < 4)
  | .wnext d bnd _ => isEven d && decide (bnd < 4)
  | .wpub r a d bnd | .wamd r a d bnd => decide (r ≤ 240) && isS a && isS d && decide (bnd < 4)
  | .wrel d a bnd => isS d && isS a && decide (bnd < 4)
  | .trmp _ _ | .trmpr _ _ | .patch _ => true
  | .clauseIssue p | .flagWaitDemotion p | .napExpiry p | .slotRelease p | .xattAnswer p | .waveSave p => decide (p < 6144)
  | .aditScrubEnd p e | .aditDrainComplete p e => decide (p < 6144) && decide (e < 16)
  | .storePerformed _ lane => decide (lane < 96)
  | .ageingDisplacement c pipe => isCore c && decide (pipe < 4)
  | .taskWaveFormation c | .taskWaitTimeout c | .geodeCommandComplete c | .forcedWriteApply c
  | .translationMiss c | .stallEscalation c => isCore c
  | .bayCommandStart c b _ => isCore c && isBay b
  | .latchReady c b l => isCore c && isBay b && decide (l < 2)
  | .mmaRetire c b | .accumulationWrite c b | .drainRowWrite c b | .rampUpEnd c b | .rampDownStart c b
  | .rampDownEnd c b => isCore c && isBay b
  | .idleTimeout st src => decide (st < 64) && decide (src < 16)
  | .scaleOutRecord port st src r => decide (port < 16) && decide (st < 64) && decide (src < 16) && decide (r.length = 16)
  | .portSourceAdvance port st src _ => decide (port < 16) && decide (st < 64) && decide (src < 16)
  | .haltLineArrival _ c | .haltEnginesStopped _ c | .captureReplay _ c => isCore c
  | .timeSliceExpiry cls => decide (cls < 4)
  | .rectangleClaim q _ => decide (q < 16)
  | .ucieModuleDown n | .ucieLaneTrainDown n | .thermalThrottleStart n | .thermalThrottleEnd n => decide (n < 4)
  | .portLinkDown n => decide (n < 16)
  | .islandStateChange n _ => decide (n < 56)
  | .scaleOutCopyTraffic port _ pa data => decide (port < 16) && decide (pa + data.length ≤ 384 * 2 ^ 30)
  | .uncorrectableError (.unit pa) => decide (pa < 384 * 2 ^ 30) && decide (pa % 8 = 0)
  | .uncorrectableError (.element c r e) => isCore c && decide (r < 197376) && decide (e < 32)
  | .returningOperationComplete _ | .barrierGenerationComplete _ | .remoteAccessAccept _ | .gangRendezvousComplete _ _
  | .gangTimeout _ _ | .engineRowDelivery _ _ | .watermarkUnitEntry _ | .faultReply _ | .preemptionRequest _
  | .preemptionBoundExpiry _ | .saveTimeout _ | .contextRestore _ | .launchAcceptance _ | .blockPlacement _
  | .samplePeriodExpiry | .auditReplayStart _ | .auditThirdRunStart _ | .auditVerdict _ | .auditPlacementTimeout _
  | .launchMessage _ | .streamRecordsMessage _ | .streamAdvanceMessage _ | .streamIdleMessage _ | .debugStop _
  | .debugRelease _ | .debugStep _ | .debugReadState _ | .debugWriteState _ | .hostStop _ | .directMemoryRead _
  | .directMemoryWrite _ | .controlWindowRead _ | .controlWindowWrite _ | .streamTableWrite _ | .tlbInvalidation _
  | .quarantineClear _ | .attestation _ | .remoteRetransmissionFailure _ | .remoteWriteAck _ _ | .powerGood
  | .thermalShutdown | .kernelImageLoad _ | .kernelImageUnload _ | .keptLogFree _ => true

end Sys2Proof
end

