-- ==== Sys2Proof/Decode.lean ====
section
/-! DEFINITION. Decoding of instruction words, clause headers and clauses (05), total and rejecting by the detail codes
of R63; and the encoder written from the same encoding tables. -/

namespace Sys2Proof

/-- Why a word fails decoding: the detail codes of R63 (`truncated`: fewer bytes than a word). -/
inductive DecodeErr where
  | undefinedOpcode | reservedBit | range | notHeader | headerInBody | notLast | operandWord | thirdLong | noFlag
  | badSet | openReg | reservedTool | truncated
deriving DecidableEq, Repr

def DecodeErr.code : DecodeErr → Nat
  | .undefinedOpcode => 0x01
  | .reservedBit => 0x02
  | .range => 0x03
  | .notHeader => 0x04
  | .headerInBody => 0x05
  | .notLast => 0x06
  | .operandWord => 0x07
  | .thirdLong => 0x08
  | .noFlag => 0x09
  | .badSet => 0x0A
  | .openReg => 0x0B
  | .reservedTool => 0x0C
  | .truncated => 0x07

abbrev Decoded := Except DecodeErr (Instr × Nat)

-- codes of the small sets (R87, R103, R112, R138, R165, R172, R191)

def EType.code : EType → Nat
  | .i32 => 0 | .n32 => 1 | .f32 => 2 | .f16x2 => 3 | .b16x2 => 4 | .i16x2 => 5 | .i8x4 => 6 | .n8x4 => 7
  | .t8x4 => 8 | .w8x4 => 9 | .i4x8 => 10 | .t4x8 => 11

def EType.ofCode : Nat → Option EType
  | 0 => some .i32 | 1 => some .n32 | 2 => some .f32 | 3 => some .f16x2 | 4 => some .b16x2 | 5 => some .i16x2
  | 6 => some .i8x4 | 7 => some .n8x4 | 8 => some .t8x4 | 9 => some .w8x4 | 10 => some .i4x8 | 11 => some .t4x8
  | _ => none

def Cc.code : Cc → Nat
  | .nz => 0 | .z => 1 | .neg => 2 | .nneg => 3

def Cc.ofCode : Nat → Option Cc
  | 0 => some .nz | 1 => some .z | 2 => some .neg | 3 => some .nneg | _ => none

def BrCond.code : BrCond → Nat
  | .none => 0 | .any => 1 | .all => 2 | .z => 3 | .nz => 4 | .neg => 5 | .pos => 6

def BrCond.ofCode : Nat → Option BrCond
  | 0 => some .none | 1 => some .any | 2 => some .all | 3 => some .z | 4 => some .nz | 5 => some .neg
  | 6 => some .pos | _ => Option.none

def Cond.code : Cond → Nat
  | .eq => 0 | .ne => 1 | .lt => 2 | .le => 3 | .gt => 4 | .ge => 5 | .ord => 6 | .uno => 7

def Cond.ofCode : Nat → Option Cond
  | 0 => some .eq | 1 => some .ne | 2 => some .lt | 3 => some .le | 4 => some .gt | 5 => some .ge | 6 => some .ord
  | 7 => some .uno | _ => none

def Pat.code : Pat → Nat
  | .xor => 0 | .up => 1 | .down => 2 | .index => 3

def Pat.ofCode : Nat → Option Pat
  | 0 => some .xor | 1 => some .up | 2 => some .down | 3 => some .index | _ => none

def XOp.code : XOp → Nat
  | .add => 0 | .min => 1 | .max => 2 | .and => 3 | .or => 4 | .xor => 5

def XOp.ofCode : Nat → Option XOp
  | 0 => some .add | 1 => some .min | 2 => some .max | 3 => some .and | 4 => some .or | 5 => some .xor | _ => none

def Scope.code : Scope → Nat
  | .wave => 0 | .block => 1 | .core => 2 | .partition => 3 | .package => 4 | .system => 5

def Scope.ofCode : Nat → Option Scope
  | 0 => some .wave | 1 => some .block | 2 => some .core | 3 => some .partition | 4 => some .package
  | 5 => some .system | _ => none

def Audience.code : Audience → Nat
  | .block => 0 | .core => 1 | .partition => 2

def Audience.ofCode : Nat → Option Audience
  | 0 => some .block | 1 => some .core | 2 => some .partition | _ => none

def CpSpace.code : CpSpace → Nat
  | .slot => 0 | .common => 1 | .ceil => 2

def CpSpace.ofCode : Nat → Option CpSpace
  | 0 => some .slot | 1 => some .common | 2 => some .ceil | _ => none

def WFmt.code : WFmt → Nat
  | .t8 => 0 | .w8 => 1 | .i8 => 2 | .t4 => 3 | .b16 => 4

def WFmt.ofCode : Nat → Option WFmt
  | 0 => some .t8 | 1 => some .w8 | 2 => some .i8 | 3 => some .t4 | 4 => some .b16 | _ => none

/-- The selector byte of R160. -/
def Space.code : Space → Nat
  | .handle h => h
  | .slot => 64
  | .ceil => 128

def Space.ofCode (b : Nat) : Option Space :=
  if b < 16 then some (.handle b) else if b = 64 then some .slot else if b = 128 then some .ceil else none

/-- The numbers of R121. -/
def SpecReg.code : SpecReg → Nat
  | .wfield i => i
  | .wid => 6 | .lane => 7 | .md => 8 | .flg => 9
  | .lc k => 10 + k
  | .wave => 13 | .core => 14 | .step => 15 | .clock => 16 | .gng => 17 | .stat => 18 | .lid => 19 | .blk => 20
  | .ilck => 21

def SpecReg.ofCode (n : Nat) : Option SpecReg :=
  if n < 6 then some (.wfield n) else
  match n with
  | 6 => some .wid | 7 => some .lane | 8 => some .md | 9 => some .flg
  | 10 => some (.lc 0) | 11 => some (.lc 1) | 12 => some (.lc 2)
  | 13 => some .wave | 14 => some .core | 15 => some .step | 16 => some .clock | 17 => some .gng | 18 => some .stat
  | 19 => some .lid | 20 => some .blk | 21 => some .ilck
  | _ => none

/-- One word: the reserved bits first (detail 0x02), then the ranges (0x03). -/
def one (ok2 ok3 : Bool) (i : Instr) : Decoded :=
  if !ok2 then .error .reservedBit else if !ok3 then .error .range else .ok (i, 1)

/-- One word with a field of a small set: a value outside it is reserved (0x02). -/
def oneOf {α : Type} (o : Option α) (ok2 : Bool) (ok3 : α → Bool) (f : α → Instr) : Decoded :=
  match o with
  | none => .error .reservedBit
  | some x => one ok2 (ok3 x) (f x)

/-- A word with an operand word (R73): `c` and `ext` of the operand word; the lowest failing code of the pair. The decode error is
that of the instruction, whose word is the pair's first (R138; DESIGN CHOICE for the forms R138 does not name, log 92). -/
def two (next : Option Word) (ok2 ok3 : Bool) (f : Nat → Nat → Decoded) : Decoded :=
  if !ok2 then .error .reservedBit else
  match next with
  | none => if !ok3 then .error .range else .error .operandWord
  | some w =>
    if w.toNat / 16777216 ≠ 0xDF then (if !ok3 then .error .range else .error .operandWord)
    else match f (w.toNat / 65536 % 256) (w.toNat % 65536) with
      | .error e => if e = .reservedBit then .error .reservedBit else if !ok3 then .error .range else .error e
      | .ok (i, _) => if !ok3 then .error .range else .ok (i, 2)

def dec0 (lo n : Nat) : Decoded :=
  let d := n / 65536 % 256; let a := n / 256 % 256; let b := n % 256; let imm := n % 65536; let low := n % 16777216
  match lo with
  | 0x1 => one (low = 0) true .nop
  | 0x2 => oneOf (Cc.ofCode b) (d = 0) (fun _ => true) (fun c => .ifOpen a c)
  | 0x3 => one (low = 0) true .elseFlip
  | 0x4 => one (low = 0) true .endIf
  | 0x5 => one (decide (d = 0) && decide (b < 2)) (a ≤ 61) (.ifm a (b == 1))
  | 0x6 => one true (d / 64 < 3) (.loop (d / 64) (d % 64) (BitVec.ofNat 16 imm))
  | 0x7 => one true (d / 64 < 3) (.endl (d / 64) (BitVec.ofNat 22 (n % 4194304)))
  | 0x8 => one (decide (d = 0) && decide (imm ≤ 62)) true (.brk imm)
  | 0x9 => one (decide (d = 0) && decide (imm ≤ 62)) true (.cont imm)
  | 0xA => one (low = 0) true .lbeg
  | 0xB => one true true (.lend (BitVec.ofNat 2 (d / 64)) (BitVec.ofNat 22 (n % 4194304)))
  | 0xC => one true true (.bra (BitVec.ofNat 2 (d / 64)) (BitVec.ofNat 22 (n % 4194304)))
  | 0xD => oneOf (BrCond.ofCode (d / 32)) (decide (3 ≤ d / 32) || decide (n / 32768 % 64 = 0)) (fun _ => true)
      (fun c => .brc c (n / 32768 % 64) (BitVec.ofNat 15 (n % 32768)))
  | 0xE => one (n % 524288 = 0) (isPair (d / 8)) (.brx (d / 8))
  | 0xF => one true (isPair (d / 8)) (.call (d / 8) (BitVec.ofNat 19 (n % 524288)))
  | _ => .error .undefinedOpcode

def dec1 (lo n : Nat) : Decoded :=
  let d := n / 65536 % 256; let a := n / 256 % 256; let b := n % 256; let imm := n % 65536; let low := n % 16777216
  match lo with
  | 0x0 => one (n % 16384 = 0) (isPair (d / 8) && isPair (n / 16384 % 32)) (.callx (d / 8) (n / 16384 % 32))
  | 0x1 => one (n % 524288 = 0) (isPair (d / 8)) (.ret (d / 8))
  | 0x2 => one (low = 0) true .exit
  | 0x3 => one (d = 0) true (.trap (BitVec.ofNat 16 imm))
  | 0x4 => one (low = 0) true .rte
  | 0x5 => one (d = 0) true (.bkpt (BitVec.ofNat 16 imm))
  | 0x6 => one (d = 0) true (.ppt imm)
  | 0x7 => one (decide (d = 0) && mdLegal (BitVec.ofNat 16 imm)) true (.mode (BitVec.ofNat 16 imm))
  | 0x8 => one (decide (d = 0) && decide (b = 0)) (isS a) (.modes a)
  | 0x9 => oneOf (SpecReg.ofCode imm) true (fun r => r.destOk d) (fun r => .rdsr d r)
  | 0xA => match SpecReg.ofCode imm with
      | none => .error .reservedBit
      | some r => one r.writable (isS d) (.wrsr r d)
  | 0xB => one (imm = 0) true (.nsav d)
  | 0xC => one (decide (d = 0) && decide (b = 0)) true (.nrst a)
  | 0xD => one true (isS d) (.bar d (BitVec.ofNat 16 imm))
  | 0xE => one (d = 0) true (.bara (BitVec.ofNat 16 imm))
  | 0xF => one (imm = 0) (isS d) (.barw d)
  | _ => .error .undefinedOpcode

def dec2 (lo n : Nat) : Decoded :=
  let d := n / 65536 % 256; let a := n / 256 % 256; let b := n % 256; let imm := n % 65536; let low := n % 16777216
  match lo with
  | 0x0 => one (low = 0) true .evpub
  | 0x1 => one (n % 262144 = 0) (isBlock (d / 4)) (.launch (d / 4))
  | 0x2 => one (n / 256 % 1024 = 0) (isBlock (d / 4) && decide (b ≤ 240)) (.task (d / 4) b)
  | 0x3 => one (low = 0) true .yield
  | 0x4 => one (d = 0) true (.nap imm)
  | 0x5 => one (n % 262144 = 0) (isBlock (d / 4)) (.ilock (d / 4))
  | 0x6 => one (n % 262144 = 0) (isBlock (d / 4)) (.iunlk (d / 4))
  | 0x7 => one (decide (d = 0) && decide (imm < 4096)) true (.waitf (BitVec.ofNat 12 imm))
  | 0x8 => one (imm < 2) (isS d) (.adrd d imm)
  | 0x9 => one (d = 0) true (.admix a b)
  | _ => .error .undefinedOpcode

/-- The bit-field layout of R138. -/
def fieldOk (sxAllowed : Bool) (ext : Nat) : Bool :=
  decide (ext < 4096) && (sxAllowed || !(bitOf ext 11)) && isField (ext / 32 % 64) (ext % 32)

def dec3 (next : Option Word) (lo n : Nat) : Decoded :=
  let d := n / 65536 % 256; let a := n / 256 % 256; let b := n % 256
  match lo with
  | 0x0 => one true (isS3 d a b) (.sadd d a b)
  | 0x1 => one true (isS3 d a b) (.ssub d a b)
  | 0x2 => one true (isS3 d a b) (.smul d a b)
  | 0x3 => one true (isS3 d a b) (.smulh d a b)
  | 0x4 => one true (isS3 d a b) (.sand d a b)
  | 0x5 => one true (isS3 d a b) (.sor d a b)
  | 0x6 => one true (isS3 d a b) (.sxor d a b)
  | 0x7 => one (b = 0) (isS d && isS a) (.snot d a)
  | 0x8 => one true (isS3 d a b) (.sshl d a b)
  | 0x9 => one true (isS3 d a b) (.sshr d a b)
  | 0xA => one true (isS3 d a b) (.ssra d a b)
  | 0xB => one true (isS3 d a b) (.smin d a b)
  | 0xC => one true (isS3 d a b) (.smax d a b)
  | 0xD => two next true (isS3 d a b) (fun c ext =>
      oneOf (Cond.ofCode (ext % 8)) (decide (c = 0) && decide (ext < 8)) (fun _ => true) (fun q => .scmp d a b q))
  | 0xE => two next true (isS3 d a b) (fun c ext => one (ext = 0) (isS c) (.ssel d a b c))
  | 0xF => one (b = 0) (isS d && isS a) (.smov d a)
  | _ => .error .undefinedOpcode

def dec4 (next : Option Word) (lo n : Nat) : Decoded :=
  let d := n / 65536 % 256; let a := n / 256 % 256; let b := n % 256; let imm := n % 65536
  match lo with
  | 0x0 => one true (isS d) (.sli d (BitVec.ofNat 16 imm))
  | 0x1 => one true (isS d) (.shi d (BitVec.ofNat 16 imm))
  | 0x2 => one true (isS d) (.saddi d (BitVec.ofNat 16 imm))
  | 0x3 => two next (b = 0) (isS d && isS a) (fun c ext =>
      one (decide (c = 0) && fieldOk true ext) true (.sbfe d a (ext / 2048 % 2 == 1) (ext / 32 % 64) (ext % 32)))
  | 0x4 => one (b = 0) (isS d && isS a) (.spopc d a)
  | 0x5 => one (b = 0) (isS d && isS a) (.sclz d a)
  | _ => .error .undefinedOpcode

def dec5 (next : Option Word) (lo n : Nat) : Decoded :=
  let d := n / 65536 % 256; let a := n / 256 % 256; let b := n % 256
  match lo with
  | 0x0 => one true true (.vadd d a b)
  | 0x1 => one true true (.vsub d a b)
  | 0x2 => one true true (.vmul d a b)
  | 0x3 => one true true (.vmulh d a b)
  | 0x4 => two next true true (fun c ext => one (ext = 0) true (.vfma d a b c))
  | 0x5 => one true true (.vmin d a b)
  | 0x6 => one true true (.vmax d a b)
  | 0x7 => one (b = 0) true (.vabs d a)
  | 0x8 => one (b = 0) true (.vneg d a)
  | 0x9 => one true true (.vand d a b)
  | 0xA => one true true (.vor d a b)
  | 0xB => one true true (.vxor d a b)
  | 0xC => one (b = 0) true (.vnot d a)
  | 0xD => one true true (.vshl d a b)
  | 0xE => one true true (.vshr d a b)
  | 0xF => one true true (.vsra d a b)
  | _ => .error .undefinedOpcode

def dec6 (next : Option Word) (lo n : Nat) : Decoded :=
  let d := n / 65536 % 256; let a := n / 256 % 256; let b := n % 256; let imm := n % 65536
  match lo with
  | 0x0 => two next true true (fun c ext =>
      oneOf (Cond.ofCode (ext % 8)) (decide (c = 0) && decide (ext < 8)) (fun _ => true) (fun q => .vcmp d a b q))
  | 0x1 => two next true true (fun c ext => one (ext = 0) true (.vsel d a b c))
  | 0x2 => one (b = 0) true (.vmov d a)
  | 0x3 => one true true (.vli d (BitVec.ofNat 16 imm))
  | 0x4 => one (b = 0) (isS a) (.vbcs d a)
  | 0x5 => match EType.ofCode (b / 16), EType.ofCode (b % 16) with
      | some t, some f => two next true true (fun c ext =>
          one (decide (c = 0) && decide (ext < 8) && decide (ext < cvtParts t f)) true (.vcvt d a t f ext))
      | _, _ => .error .reservedBit
  | 0x6 => one true (isS b) (.vscl d a b)
  | 0x7 => two next (b = 0) true (fun c ext =>
      one (decide (c = 0) && fieldOk true ext) true (.vbfe d a (ext / 2048 % 2 == 1) (ext / 32 % 64) (ext % 32)))
  | 0x8 => two next true true (fun c ext =>
      one (decide (c = 0) && fieldOk false ext) true (.vbfi d a b (ext / 32 % 64) (ext % 32)))
  | 0x9 => one (b = 0) true (.vpopc d a)
  | 0xA => one (b = 0) true (.vclz d a)
  | 0xB => one true true (.vdot d a b)
  | 0xC => one true true (.vdota d a b)
  | 0xD => one (b = 0) true (.vrcp d a)
  | 0xE => one (b = 0) true (.vrsq d a)
  | 0xF => one (b = 0) true (.vsqrt d a)
  | _ => .error .undefinedOpcode

def dec7 (next : Option Word) (lo n : Nat) : Decoded :=
  let d := n / 65536 % 256; let a := n / 256 % 256; let b := n % 256
  match lo with
  | 0x0 => one (b = 0) true (.vex2 d a)
  | 0x1 => one (b = 0) true (.vlg2 d a)
  | 0x2 => one (b = 0) true (.vsin d a)
  | 0x3 => one (b = 0) true (.vcos d a)
  | 0x4 => one true (isS a && isS b) (.vlid d a b)
  | 0x8 => two next true true (fun c ext =>
      oneOf (Pat.ofCode (ext % 4)) (decide (c = 0) && decide (ext < 512)) (fun _ => true)
        (fun p => .vshf d a b p (ext / 4 % 128)) |> fun r =>
      match r with
      | .ok (.vshf d a b p k, m) => if isExchange b p k then .ok (.vshf d a b p k, m) else .error .reservedBit
      | r => r)
  | 0x9 => two next true true (fun c ext =>
      match Pat.ofCode (ext % 4), XOp.ofCode (ext / 512 % 8) with
      | some p, some op => one (decide (c = 0) && decide (ext < 4096) && isExchange b p (ext / 4 % 128)) true
          (.vshop d a b op p (ext / 4 % 128))
      | _, _ => .error .reservedBit)
  | 0xA => two next true true (fun c ext =>
      oneOf (XOp.ofCode (ext / 512 % 8)) (decide (c = 0) && decide (ext < 4096) && decide (ext / 2 % 256 = 0))
        (fun _ => true) (fun op => .vsegop d a b op (ext % 2 == 1)))
  | 0xB => oneOf (Cc.ofCode b) true (fun _ => decide (d ≤ 61)) (fun q => .vbal d a q)
  | 0xC => oneOf (Cc.ofCode b) true (fun _ => isS d) (fun q => .vany d a q)
  | 0xD => oneOf (Cc.ofCode b) true (fun _ => isS d) (fun q => .vall d a q)
  | 0xE => one (b = 0) (d ≤ 253) (.vmatch d a)
  | 0xF => oneOf (Cc.ofCode b) true (fun _ => isS d) (fun q => .vffs d a q)
  | _ => .error .undefinedOpcode

def dec8 (next : Option Word) (lo n : Nat) : Decoded :=
  let d := n / 65536 % 256; let a := n / 256 % 256; let b := n % 256; let imm := n % 65536
  match lo with
  | 0x0 => oneOf (Space.ofCode b) true (fun _ => true) (fun s => .xget d a s)
  | 0x1 => oneOf (Space.ofCode b) true (fun _ => true) (fun s => .xput d a s)
  | 0x2 => oneOf (Space.ofCode b) true (fun _ => isS a) (fun s => .xgetw d a s)
  | 0x3 => oneOf (Space.ofCode b) true (fun _ => isS a) (fun s => .xputw d a s)
  | 0x4 => match Space.ofCode b with
      | none | some .ceil => .error .reservedBit
      | some s => two next true true (fun c ext => one (ext ≤ 9) true (.xatm d a c s ext))
  | 0x5 => oneOf (Audience.ofCode (n / 1024 % 4)) (b = 0)
      (fun _ => isBlock (d / 4) && decide (n / 4096 % 64 < 16))
      (fun u => .xexp (d / 4) (n / 4096 % 64) u (n / 512 % 2 == 1) (n / 256 % 2 == 1))
  | 0x6 => one (imm < 16) (isS d) (.xrev d imm)
  | 0x7 => one (n % 2048 = 0) (isBlock (d / 4) && decide (n / 4096 % 64 < 16)) (.xatt (d / 4) (n / 4096 % 64) (n / 2048 % 2 == 1))
  | 0x8 => one (decide (d = 0) && decide (imm < 16)) true (.xdet imm)
  | 0x9 => one (b = 0) (decide (d ≤ 62) && isS a) (.xalloc d a)
  | 0xA => one true (isS3 d a b) (.xfree d a b)
  | 0xB => one (decide (a = 0) && decide (b < 32)) (d ≤ 62) (.xprb d (b / 16 == 1) (b % 16))
  | _ => .error .undefinedOpcode

def dec9 (next : Option Word) (lo n : Nat) : Decoded :=
  let d := n / 65536 % 256; let o := n / 256 % 256; let p := n % 256 / 8; let i := n % 8; let b := n % 256
  match lo with
  | 0x0 => one true true (.vldb d o p i)
  | 0x1 => one true true (.vldh d o p i)
  | 0x2 => one true true (.vldw d o p i)
  | 0x3 => one true (decide (d ≤ 254)) (.vldd d o p i)
  | 0x4 => one true true (.vstb d o p i)
  | 0x5 => one true true (.vsth d o p i)
  | 0x6 => one true true (.vstw d o p i)
  | 0x7 => one true (decide (d ≤ 254)) (.vstd d o p i)
  | 0x8 => one true (isMemS d o p i) (.sldw d o p i)
  | 0x9 => one true (isMemS d o p i && isEven d) (.sldd d o p i)
  | 0xA => one true (isMemS d o p i) (.sstw d o p i)
  | 0xB => one true (isMemS d o p i && isEven d) (.sstd d o p i)
  | 0xC => two next true true (fun c ext =>
      oneOf (Scope.ofCode (ext / 16 % 8))
        (decide (ext < 256) && decide (ext % 16 ≤ 8) && (decide (ext / 128 = 0) || (decide (d ≤ 254) && decide (c ≤ 254))))
        (fun _ => true) (fun s => .vamo d o p i (ext % 16) c s (ext / 128 == 1)))
  | 0xD => two next true true (fun c ext =>
      oneOf (Scope.ofCode (ext / 16 % 8))
        (decide (ext < 256) && decide (ext % 16 = 0) && (decide (ext / 128 = 0) || (decide (d ≤ 254) && decide (c ≤ 254))))
        (fun _ => true) (fun s => .vamoc d o p i c s (ext / 128 == 1)))
  | 0xE => oneOf (Scope.ofCode (b / 32)) (b % 32 = 0) (fun _ => true)
      (fun s => .fence (BitVec.ofNat 8 d) (BitVec.ofNat 8 o) s)
  | _ => .error .undefinedOpcode

def decA (lo n : Nat) : Decoded :=
  let d := n / 65536 % 256; let a := n / 256 % 256; let b := n % 256
  let sb := d / 4; let tag := n / 4096 % 64; let sp := n / 1024 % 4
  let copy (f : CpSpace → Instr) : Decoded := oneOf (CpSpace.ofCode sp) (n % 1024 = 0) (fun _ => isCmd sb tag) f
  let gather (f : Bool → Nat → Nat → Instr) : Decoded :=
    one (decide (n / 1024 % 2 = 0) && (decide (n / 2048 % 2 = 0) || decide (n / 256 % 4 = 2))) (isCmd sb tag)
      (f (n / 2048 % 2 == 1) (n / 256 % 4) b)
  match lo with
  | 0x0 => copy (fun s => .cpin sb tag s)
  | 0x1 => copy (fun s => .cpout sb tag s)
  | 0x2 => one (decide (n % 1024 = 0) && decide (sp < 2)) (isCmd sb tag) (.cprr sb tag (sp == 1))
  | 0x3 => gather (fun ad sz v => .gath sb tag ad sz v)
  | 0x4 => gather (fun ad sz v => .scat sb tag ad sz v)
  | 0x5 => one (decide (d = 0) && decide (b = 0)) (isEven a) (.twall a)
  | 0x6 => one (b = 0) (isS d && isEven a) (.twany d a)
  | 0x7 => one (b = 0) (isS d && isEven a) (.tffr d a)
  | 0x8 => one (decide (d = 0) && decide (b = 0)) (isEven a) (.tclr a)
  | 0x9 => one (decide (a = 0) && decide (b < 4)) (isEven d) (.tstat d b)
  | _ => .error .undefinedOpcode

def decB (lo n : Nat) : Decoded :=
  let d := n / 65536 % 256; let a := n / 256 % 256; let b := n % 256; let imm := n % 65536
  match lo with
  | 0x0 => one (b = 0) (isS d && isS a) (.gang d a)
  | 0x1 => oneOf (WFmt.ofCode b) (d % 32 = 0) (fun _ => isBay (d / 64) && isS a) (fun f => .mwl (d / 64) (d / 32 % 2) a f)
  | 0x2 => one (decide (b < 2) && decide (1 ≤ a) && decide (a ≤ 64)) (d + a ≤ 256) (.mma d a b)
  | 0x3 => oneOf (EType.ofCode (n / 256 % 16)) (b % 32 = 0) (fun _ => isBlock (d / 4) && isBay (n / 4096 % 64))
      (fun t => .mdrn (d / 4) (n / 4096 % 64) t (n / 128 % 2 == 1) (n / 64 % 2 == 1) (n / 32 % 2 == 1))
  | 0x4 => one (decide (a < 64) && decide (1 ≤ b) && decide (a + b ≤ 64)) (isBay d) (.mzer d a b)
  | 0x5 => one true (isBay d) (.mhint d imm)
  | 0x6 => one (b < 3) (isEven d && isBay a) (.mstat d a (b / 2 == 1) (b % 2 == 1))
  | 0x8 => one (b < 8) (isS a) (.pbind b d a)
  | 0x9 => one (decide (d = 0) && decide (a = 0) && decide (b < 8)) true (.pinit b)
  | 0xA => one (d < 8) true (.pmul d a b)
  | 0xB => one (d < 8) true (.pdiv d a b)
  | 0xC => one (decide (d = 0) && decide (a = 0) && decide (b < 8)) true (.prsc b)
  | 0xD => one (b < 8) (isS a) (.pout d b a)
  | 0xE => one (decide (a = 0) && decide (b < 8)) (d ≤ 60) (.pdesc d b)
  | 0xF => one (decide (d = 0) && decide (a = 0) && decide (b < 8)) true (.punb b)
  | _ => .error .undefinedOpcode

def decC (next : Option Word) (lo n : Nat) : Decoded :=
  let d := n / 65536 % 256; let a := n / 256 % 256; let b := n % 256; let imm := n % 65536
  match lo with
  | 0x0 => one true (decide (d ≤ 240) && isS a && isS b) (.wemit d a b)
  | 0x1 => one true (isS d && isS a && isEven b) (.wmadv d a b)
  | 0x2 => one (b = 0) (isS d && isS a) (.wmidl d a)
  | 0x3 => one (b < 4) (isEven d && isS a) (.wmrd d a b)
  | 0x4 => two next true (decide (d ≤ 240) && decide (a ≤ 254) && isS b) (fun c ext =>
      one (decide (c = 0) && decide (ext < 8)) true (.wrecv d a b (ext % 4) (ext / 4 == 1)))
  | 0x5 => two next true (decide (d ≤ 240) && decide (a ≤ 254) && isS b) (fun c ext =>
      one (decide (c = 0) && decide (ext < 8)) true (.wlate d a b (ext % 4) (ext / 4 == 1)))
  | 0x6 => one (imm < 8) (isEven d) (.wnext d (imm % 4) (imm / 4 == 1))
  | 0x7 => two next true (decide (d ≤ 240) && isS a && isS b) (fun c ext =>
      one (decide (c = 0) && decide (ext < 4)) true (.wpub d a b ext))
  | 0x8 => two next true (decide (d ≤ 240) && isS a && isS b) (fun c ext =>
      one (decide (c = 0) && decide (ext < 4)) true (.wamd d a b ext))
  | 0x9 => one (b < 4) (isS d && isS a) (.wrel d a b)
  | _ => .error .undefinedOpcode

def decE (lo n : Nat) : Decoded :=
  let d := n / 65536 % 256
  match lo with
  | 0x0 => one true true (.trmp (BitVec.ofNat 2 (d / 64)) (BitVec.ofNat 22 (n % 4194304)))
  | 0x1 => one true true (.trmpr (BitVec.ofNat 2 (d / 64)) (BitVec.ofNat 22 (n % 4194304)))
  | 0x2 => one (d / 64 = 0) true (.patch (BitVec.ofNat 22 (n % 4194304)))
  | 0x3 | 0x4 | 0x5 | 0x6 | 0x7 => .error .reservedTool
  | _ => .error .undefinedOpcode

/-- The instruction at a body word, with the word after it when the clause has one, and how many words it takes
(R70, R73, R81). -/
def decodeInstr (w : Word) (next : Option Word) : Decoded :=
  let n := w.toNat
  let lo := n / 16777216 % 16
  match n / 268435456 with
  | 0x0 => dec0 lo n
  | 0x1 => dec1 lo n
  | 0x2 => dec2 lo n
  | 0x3 => dec3 next lo n
  | 0x4 => dec4 next lo n
  | 0x5 => dec5 next lo n
  | 0x6 => dec6 next lo n
  | 0x7 => dec7 next lo n
  | 0x8 => dec8 next lo n
  | 0x9 => dec9 next lo n
  | 0xA => decA lo n
  | 0xB => decB lo n
  | 0xC => decC next lo n
  | 0xD => if lo = 0xF then .error .operandWord else .error .undefinedOpcode
  | 0xE => decE lo n
  | _ => .error .headerInBody

-- clauses

/-- A clause header (R65). -/
structure ClauseHdr where
  wait : BitVec 12
  seta : Nat
  setb : Nat
  len : Nat
  divergent : Bool
  keep : Bool
deriving DecidableEq, Repr

def setOk (f : Nat) : Bool := decide (f < 12) || decide (f = 15)

def decodeHeader (w : Word) : Except DecodeErr ClauseHdr :=
  let n := w.toNat
  if n / 268435456 ≠ 15 then .error .notHeader
  else if n / 8 % 2 ≠ 0 ∨ n % 2 ≠ 0 then .error .reservedBit
  else if !(setOk (n / 4096 % 16) && setOk (n / 256 % 16)) then .error .badSet
  else .ok { wait := BitVec.ofNat 12 (n / 65536 % 4096), seta := n / 4096 % 16, setb := n / 256 % 16,
             len := n / 16 % 16 + 1, divergent := n / 4 % 2 == 1, keep := n / 2 % 2 == 1 }

/-- Clause-ending forms, † of R81. -/
def Instr.ending : Instr → Bool
  | .loop .. | .endl .. | .lbeg | .lend .. | .bra .. | .brc .. | .brx .. | .call .. | .callx .. | .ret .. | .trap ..
  | .rte | .bkpt .. | .trmp .. | .trmpr .. => true
  | _ => false

/-- Returning long-latency operations, ‡ of R81 (R67). -/
def Instr.returning : Instr → Bool
  | .vldb .. | .vldh .. | .vldw .. | .vldd .. | .sldw .. | .sldd .. | .vamo .. | .vamoc .. | .xget .. | .xgetw ..
  | .xatm .. | .vrcp .. | .vrsq .. | .vsqrt .. | .vex2 .. | .vlg2 .. | .vsin .. | .vcos .. => true
  | _ => false

/-- Non-returning long-latency operations, § of R81 (R67). -/
def Instr.nonReturning : Instr → Bool
  | .vstb .. | .vsth .. | .vstw .. | .vstd .. | .sstw .. | .sstd .. | .xput .. | .xputw .. => true
  | _ => false

def Instr.long (i : Instr) : Bool := i.returning || i.nonReturning

/-- Decodes the body words from index `k` (0-based): `ll` long-latency operations stand before. The first failing word
in address order, with its lowest code (R63). `fuel` bounds the words. -/
def decodeBody (native : Bool) (h : ClauseHdr) : Nat → Nat → Nat → List Word → Except (Nat × DecodeErr) (List (Nat × Instr))
  | 0, _, _, _ => .ok []
  | _, _, _, [] => .ok []
  | fuel + 1, k, ll, w :: t =>
    match decodeInstr w t.head? with
    | .error e => .error (k, e)
    | .ok (i, n) =>
      if i.ending && decide (n ≤ t.length) then .error (k, .notLast)
      else if i.long && decide (2 ≤ ll) then .error (k, .thirdLong)
      else if native && i.returning && decide ((if ll = 0 then h.seta else h.setb) = 15) then .error (k, .noFlag)
      else match decodeBody native h fuel (k + n) (if i.long then ll + 1 else ll) (t.drop (n - 1)) with
        | .error e => .error e
        | .ok l => .ok ((k, i) :: l)

/-- A whole clause: word 0 is the header (R63). The failing word's index counts the header as 0. -/
def decodeClause (native : Bool) (hw : Word) (body : List Word) : Except (Nat × DecodeErr) (List (Nat × Instr)) :=
  match decodeHeader hw with
  | .error e => .error (0, e)
  | .ok h => decodeBody native h 16 1 0 (body.take h.len)

/-- The four little-endian bytes of a word (R62). -/
def wordOfBytes : List Byte → Option (Word × List Byte)
  | a :: b :: c :: d :: t => some (BitVec.ofNat 32 (leNat [a, b, c, d]), t)
  | _ => none

/-- The instruction that a run of bytes begins with, and the bytes after it. -/
def decodeBytes (bs : List Byte) : Except DecodeErr (Instr × List Byte) :=
  match wordOfBytes bs with
  | none => .error .truncated
  | some (w, t) =>
    match decodeInstr w ((wordOfBytes t).map (·.1)) with
    | .error e => .error e
    | .ok (i, n) => .ok (i, t.drop (4 * (n - 1)))

/-- The decoder's answer for an opcode-table word: `nbits` bits of `w`, the rest of the longest instruction (two words)
zero. -/
def decodeTableWord (nbits w : Nat) : Option Instr :=
  match decodeBytes (leBytes 8 (w % 2 ^ nbits)) with
  | .ok (i, _) => some i
  | .error _ => none

-- the encoder

def mk (op rest : Nat) : Word := BitVec.ofNat 32 (op * 16777216 + rest)
/-- Format A (R70). -/
def fA (op d a b : Nat) : Word := mk op (d * 65536 + a * 256 + b)
/-- Format I. -/
def fI (op d imm : Nat) : Word := mk op (d * 65536 + imm)
/-- Format M. -/
def fM (op d o p i : Nat) : Word := mk op (d * 65536 + o * 256 + p * 8 + i)
/-- Format B. -/
def fB (op : Nat) (hint : BitVec 2) (disp : BitVec 22) : Word := mk op (hint.toNat * 4194304 + disp.toNat)
/-- Format C. -/
def fC (op sb unit option : Nat) : Word := mk op (sb * 262144 + unit * 4096 + option)
/-- The operand word. -/
def opw (c ext : Nat) : Word := mk 0xDF (c * 65536 + ext)

def b2n (b : Bool) : Nat := if b then 1 else 0

/-- The words of an instruction; none for a step that has no word. -/
def encode : Instr → List Word
  | .nop => [mk 0x01 0]
  | .ifOpen a cc => [fA 0x02 0 a cc.code]
  | .elseFlip => [mk 0x03 0]
  | .endIf => [mk 0x04 0]
  | .ifm a inv => [fA 0x05 0 a (b2n inv)]
  | .loop k a disp => [mk 0x06 (k * 4194304 + a * 65536 + disp.toNat)]
  | .endl k disp => [mk 0x07 (k * 4194304 + disp.toNat)]
  | .brk n => [fI 0x08 0 n]
  | .cont n => [fI 0x09 0 n]
  | .lbeg => [mk 0x0A 0]
  | .lend h disp => [fB 0x0B h disp]
  | .bra h disp => [fB 0x0C h disp]
  | .brc c a disp => [mk 0x0D (c.code * 2097152 + a * 32768 + disp.toNat)]
  | .brx p => [mk 0x0E (p * 524288)]
  | .call l disp => [mk 0x0F (l * 524288 + disp.toNat)]
  | .callx l p => [mk 0x10 (l * 524288 + p * 16384)]
  | .ret p => [mk 0x11 (p * 524288)]
  | .exit => [mk 0x12 0]
  | .trap imm => [fI 0x13 0 imm.toNat]
  | .rte => [mk 0x14 0]
  | .bkpt imm => [fI 0x15 0 imm.toNat]
  | .ppt n => [fI 0x16 0 n]
  | .mode m => [fI 0x17 0 m.toNat]
  | .modes a => [fA 0x18 0 a 0]
  | .rdsr d sr => [fI 0x19 d sr.code]
  | .wrsr sr a => [fI 0x1A a sr.code]
  | .nsav d => [fA 0x1B d 0 0]
  | .nrst a => [fA 0x1C 0 a 0]
  | .bar d m => [fI 0x1D d m.toNat]
  | .bara m => [fI 0x1E 0 m.toNat]
  | .barw d => [fI 0x1F d 0]
  | .evpub => [mk 0x20 0]
  | .launch sb => [fC 0x21 sb 0 0]
  | .task sb r => [fC 0x22 sb 0 r]
  | .yield => [mk 0x23 0]
  | .nap n => [fI 0x24 0 n]
  | .ilock sb => [fC 0x25 sb 0 0]
  | .iunlk sb => [fC 0x26 sb 0 0]
  | .waitf m => [fI 0x27 0 m.toNat]
  | .adrd d sel => [fI 0x28 d sel]
  | .admix a tag => [fA 0x29 0 a tag]
  | .sadd d a b => [fA 0x30 d a b]
  | .ssub d a b => [fA 0x31 d a b]
  | .smul d a b => [fA 0x32 d a b]
  | .smulh d a b => [fA 0x33 d a b]
  | .sand d a b => [fA 0x34 d a b]
  | .sor d a b => [fA 0x35 d a b]
  | .sxor d a b => [fA 0x36 d a b]
  | .snot d a => [fA 0x37 d a 0]
  | .sshl d a b => [fA 0x38 d a b]
  | .sshr d a b => [fA 0x39 d a b]
  | .ssra d a b => [fA 0x3A d a b]
  | .smin d a b => [fA 0x3B d a b]
  | .smax d a b => [fA 0x3C d a b]
  | .scmp d a b c => [fA 0x3D d a b, opw 0 c.code]
  | .ssel d a b c => [fA 0x3E d a b, opw c 0]
  | .smov d a => [fA 0x3F d a 0]
  | .sli d imm => [fI 0x40 d imm.toNat]
  | .shi d imm => [fI 0x41 d imm.toNat]
  | .saddi d imm => [fI 0x42 d imm.toNat]
  | .sbfe d a sx len pos => [fA 0x43 d a 0, opw 0 (b2n sx * 2048 + len * 32 + pos)]
  | .spopc d a => [fA 0x44 d a 0]
  | .sclz d a => [fA 0x45 d a 0]
  | .vadd d a b => [fA 0x50 d a b]
  | .vsub d a b => [fA 0x51 d a b]
  | .vmul d a b => [fA 0x52 d a b]
  | .vmulh d a b => [fA 0x53 d a b]
  | .vfma d a b c => [fA 0x54 d a b, opw c 0]
  | .vmin d a b => [fA 0x55 d a b]
  | .vmax d a b => [fA 0x56 d a b]
  | .vabs d a => [fA 0x57 d a 0]
  | .vneg d a => [fA 0x58 d a 0]
  | .vand d a b => [fA 0x59 d a b]
  | .vor d a b => [fA 0x5A d a b]
  | .vxor d a b => [fA 0x5B d a b]
  | .vnot d a => [fA 0x5C d a 0]
  | .vshl d a b => [fA 0x5D d a b]
  | .vshr d a b => [fA 0x5E d a b]
  | .vsra d a b => [fA 0x5F d a b]
  | .vcmp d a b c => [fA 0x60 d a b, opw 0 c.code]
  | .vsel d a b c => [fA 0x61 d a b, opw c 0]
  | .vmov d a => [fA 0x62 d a 0]
  | .vli d imm => [fI 0x63 d imm.toNat]
  | .vbcs d a => [fA 0x64 d a 0]
  | .vcvt d a t f part => [fA 0x65 d a (t.code * 16 + f.code), opw 0 part]
  | .vscl d a b => [fA 0x66 d a b]
  | .vbfe d a sx len pos => [fA 0x67 d a 0, opw 0 (b2n sx * 2048 + len * 32 + pos)]
  | .vbfi d a b len pos => [fA 0x68 d a b, opw 0 (len * 32 + pos)]
  | .vpopc d a => [fA 0x69 d a 0]
  | .vclz d a => [fA 0x6A d a 0]
  | .vdot d a b => [fA 0x6B d a b]
  | .vdota d a b => [fA 0x6C d a b]
  | .vrcp d a => [fA 0x6D d a 0]
  | .vrsq d a => [fA 0x6E d a 0]
  | .vsqrt d a => [fA 0x6F d a 0]
  | .vex2 d a => [fA 0x70 d a 0]
  | .vlg2 d a => [fA 0x71 d a 0]
  | .vsin d a => [fA 0x72 d a 0]
  | .vcos d a => [fA 0x73 d a 0]
  | .vlid d a b => [fA 0x74 d a b]
  | .vshf d a b p k => [fA 0x78 d a b, opw 0 (k * 4 + p.code)]
  | .vshop d a b op p k => [fA 0x79 d a b, opw 0 (op.code * 512 + k * 4 + p.code)]
  | .vsegop d a b op tot => [fA 0x7A d a b, opw 0 (op.code * 512 + b2n tot)]
  | .vbal d a cc => [fA 0x7B d a cc.code]
  | .vany d a cc => [fA 0x7C d a cc.code]
  | .vall d a cc => [fA 0x7D d a cc.code]
  | .vmatch d a => [fA 0x7E d a 0]
  | .vffs d a cc => [fA 0x7F d a cc.code]
  | .xget d o sp => [fA 0x80 d o sp.code]
  | .xput v o sp => [fA 0x81 v o sp.code]
  | .xgetw d a sp => [fA 0x82 d a sp.code]
  | .xputw v a sp => [fA 0x83 v a sp.code]
  | .xatm d o c sp op => [fA 0x84 d o sp.code, opw c op]
  | .xexp sb e aud xch cmn => [fC 0x85 sb e (aud.code * 1024 + b2n xch * 512 + b2n cmn * 256)]
  | .xrev d e => [fI 0x86 d e]
  | .xatt sb h adr => [fC 0x87 sb h (b2n adr * 2048)]
  | .xdet h => [fI 0x88 0 h]
  | .xalloc d a => [fA 0x89 d a 0]
  | .xfree d a b => [fA 0x8A d a b]
  | .xprb d own n => [fA 0x8B d 0 (b2n own * 16 + n)]
  | .vldb d o p i => [fM 0x90 d o p i]
  | .vldh d o p i => [fM 0x91 d o p i]
  | .vldw d o p i => [fM 0x92 d o p i]
  | .vldd d o p i => [fM 0x93 d o p i]
  | .vstb v o p i => [fM 0x94 v o p i]
  | .vsth v o p i => [fM 0x95 v o p i]
  | .vstw v o p i => [fM 0x96 v o p i]
  | .vstd v o p i => [fM 0x97 v o p i]
  | .sldw d o p i => [fM 0x98 d o p i]
  | .sldd d o p i => [fM 0x99 d o p i]
  | .sstw v o p i => [fM 0x9A v o p i]
  | .sstd v o p i => [fM 0x9B v o p i]
  | .vamo d o p i op c sc w => [fM 0x9C d o p i, opw c (b2n w * 128 + sc.code * 16 + op)]
  | .vamoc d o p i c sc w => [fM 0x9D d o p i, opw c (b2n w * 128 + sc.code * 16)]
  | .fence pred succ sc => [fA 0x9E pred.toNat succ.toNat (sc.code * 32)]
  | .cpin sb t sp => [fC 0xA0 sb t (sp.code * 1024)]
  | .cpout sb t sp => [fC 0xA1 sb t (sp.code * 1024)]
  | .cprr sb t cmn => [fC 0xA2 sb t (b2n cmn * 1024)]
  | .gath sb t ad sz vi => [fC 0xA3 sb t (b2n ad * 2048 + sz * 256 + vi)]
  | .scat sb t ad sz vi => [fC 0xA4 sb t (b2n ad * 2048 + sz * 256 + vi)]
  | .twall a => [fA 0xA5 0 a 0]
  | .twany d a => [fA 0xA6 d a 0]
  | .tffr d a => [fA 0xA7 d a 0]
  | .tclr a => [fA 0xA8 0 a 0]
  | .tstat d sel => [fA 0xA9 d 0 sel]
  | .gang d a => [fA 0xB0 d a 0]
  | .mwl bay lat a f => [fA 0xB1 (bay * 64 + lat * 32) a f.code]
  | .mma f count lat => [fA 0xB2 f count lat]
  | .mdrn sb bay o acc clr cmn => [fC 0xB3 sb bay (o.code * 256 + b2n acc * 128 + b2n clr * 64 + b2n cmn * 32)]
  | .mzer bay row count => [fA 0xB4 bay row count]
  | .mhint bay n => [fI 0xB5 bay n]
  | .mstat d bay sel clr => [fA 0xB6 d bay (b2n sel * 2 + b2n clr)]
  | .pbind g r a => [fA 0xB8 r a g]
  | .pinit g => [fA 0xB9 0 0 g]
  | .pmul g a b => [fA 0xBA g a b]
  | .pdiv g a b => [fA 0xBB g a b]
  | .prsc g => [fA 0xBC 0 0 g]
  | .pout d g a => [fA 0xBD d a g]
  | .pdesc d g => [fA 0xBE d 0 g]
  | .punb g => [fA 0xBF 0 0 g]
  | .wemit r a d => [fA 0xC0 r a d]
  | .wmadv d a p => [fA 0xC1 d a p]
  | .wmidl d a => [fA 0xC2 d a 0]
  | .wmrd d a sel => [fA 0xC3 d a sel]
  | .wrecv r w d bnd wt => [fA 0xC4 r w d, opw 0 (b2n wt * 4 + bnd)]
  | .wlate r w d bnd wt => [fA 0xC5 r w d, opw 0 (b2n wt * 4 + bnd)]
  | .wnext d bnd wt => [fI 0xC6 d (b2n wt * 4 + bnd)]
  | .wpub r a d bnd => [fA 0xC7 r a d, opw 0 bnd]
  | .wamd r a d bnd => [fA 0xC8 r a d, opw 0 bnd]
  | .wrel d a bnd => [fA 0xC9 d a bnd]
  | .trmp h disp => [fB 0xE0 h disp]
  | .trmpr h disp => [fB 0xE1 h disp]
  | .patch p => [mk 0xE2 p.toNat]
  | _ => []

end Sys2Proof
end

