-- ==== Sys2Proof/Config.lean ====
section
/-! DEFINITION. What the implementation fixes and the spec leaves free: constants with no body, so that nothing can
be proved of their values (the log entries name each). -/

namespace Sys2Proof.Config

/-- Which of the agents that can move does move (R331 and the absence of any order among agents; assumption 1). -/
opaque choice : Nat → Nat

/-- Cycles that pass in a step, beyond one (R331, R78; assumption 2). -/
opaque delay : Nat → Nat

/-- The core-local number of an asynchronous operation, OWN of R44 (assumption 12). -/
opaque ownNumber : Nat → BitVec 7

/-- The entry that a full translation buffer gives up (R279 fixes the capacity only; assumption 13). -/
opaque tlbVictim : Nat → Nat

/-- Whether a record that the unit took less than 64 cycles ago is available already (R237; assumption 16). -/
opaque recordAvailable : Nat → Bool

/-- Memory of remote packages as a transfer reads it (R324; assumption 17). -/
opaque remoteByte : Nat → Nat → Byte

/-- The place of a routing-table mismatch on read-back, if the hardware has one (R268; assumption 18). -/
opaque routeMismatch : Nat → Option Nat

/-- The Rolsepra public key, whose digest is fused (R326; assumption 15). -/
opaque rolsepraKey : BitVec 256

/-- The device identity key's 32 secret bytes for a security version, derived by HKDF-SHA-512 from the fused seed (R327;
assumption 15). -/
opaque identitySeed : Nat → BitVec 256

/-- The fused 64-bit version counter (R326; assumption 15). -/
opaque fusedVersion : Nat

/-- The firmware image that the host has written to the flash by a step, in the primary or in the backup place, none where it has
written none: bytes, version, signature (R327; assumption 112). -/
opaque flashed : Nat → Bool → Option (List Byte × Nat × BitVec 512)

/-- Whether the audit logger's buffer overruns at an entry (R294, R301; assumption 19). -/
opaque loggerOverrun : Nat → Bool

/-- The core, if any, whose memory or registers give up a correctable error in a step (R50; assumption 83). -/
opaque corrected : Nat → Option Nat

/-- What the log of a gather that ended in error holds for a lane whose element was not read (R294; assumption 96). -/
opaque unread : Nat → BitVec 64

/-- Which two of every eight cycles a throttled die skips (R329; assumption 84). -/
opaque throttlePhase : Nat

/-- Codes of the statuses BUSY, PENDING and BADMODE of a debug reply, which R87 and R322 name and give no number (assumption 22). -/
opaque busyStatus : BitVec 16
opaque pendingStatus : BitVec 16
opaque badModeStatus : BitVec 16

end Sys2Proof.Config
end

