-- ==== Sys2Proof/Machine/State.lean ====
section
/-! DEFINITION. The state of the package: all that the spec gives the NX48, as plain data, and its value at reset. -/

namespace Sys2Proof.Machine

/-- The metadata word of a row (R44). `owner` is the model's own number of the operation whose write is pending; OWN is
a view of it (assumption 12). -/
structure RowMeta where
  pnd : Bool := false
  owner : Nat := 0
  exp : Bool := false
  pw : Bool := false
  fr : Bool := false
  stp : BitVec 4 := 0
  pty : BitVec 13 := 0
deriving DecidableEq, Repr, Inhabited

/-- States of an adit table entry (R52). -/
inductive AditState where
  | free | live | draining
deriving DecidableEq, Repr, Inhabited

/-- An entry of a wave's adit table (R51, R52, R57). `first` is the first row, numbered in the core. -/
structure AditEntry where
  state : AditState := .free
  aud : Audience := .block
  xch : Bool := false
  first : Nat := 0
  rows : Nat := 0
  phase : BitVec 4 := 0
  /-- a scrub is unfinished (R57); `gen` tells that it is one of a barrier generation's advances (R275) -/
  scrub : Bool := false
  gen : Bool := false
deriving DecidableEq, Repr, Inhabited

/-- States of a handle (R53). -/
inductive HandleState where
  | detached | attached | stale
deriving DecidableEq, Repr, Inhabited

/-- An attacher's handle (R53): exporter (as PTY), entry, base row, length, mode, audience; the route is the exporter's core. -/
structure Handle where
  state : HandleState := .detached
  exporter : Nat := 0
  entry : Nat := 0
  first : Nat := 0
  rows : Nat := 0
  aud : Audience := .block
  xch : Bool := false
deriving DecidableEq, Repr, Inhabited

/-- The register a returning operation opened (R77); `flag` is 15 where no flag counts it. -/
structure OpenReg where
  op : Nat
  flag : Nat
  vecs : List Nat
  scals : List Nat
deriving DecidableEq, Repr

/-- A trap that waits for its entry (R79, R116): cause, detail, trapping lanes, resume word, lane flags. -/
structure TrapReq where
  cause : Nat
  detail : Nat
  lanes : LaneMask
  addr : DWord
  k : Nat
  flags : SMap (BitVec 6) := []
  /-- it has no address of its own: a returning operation's in interlocked mode, taken where the operation completes (R100) -/
  late : Bool := false
deriving DecidableEq, Repr

/-- An arithmetic trap due at a closing wait or at completion (R100). -/
structure DueTrap where
  flag : Nat
  conds : BitVec 6
  lanes : LaneMask
  flags : SMap (BitVec 6)
  /-- the wait that closes its destination has been met; another trap was taken there first -/
  closed : Bool := false
deriving DecidableEq, Repr

/-- What a wave waits for inside an instruction that has begun and whose end another agent brings. -/
inductive Wait where
  | none
  /-- BAR or BARW, status to s(d) (R123) -/
  | barrier (d : Nat)
  /-- an MMA at its rendezvous (R198) -/
  | rendezvous
  /-- an MMA queued at its bay (R198) -/
  | stream
  /-- NAP until the clock reaches `till` (R127) -/
  | nap (till : DWord)
  /-- XREV until the entry is Free (R167) -/
  | xrev (entry d : Nat)
  /-- XATT until the exporter's core answers (R168) -/
  | xatt (sb h : Nat) (adr : Bool)
  /-- LAUNCH until acceptance or rejection (R125) -/
  | launch (req d : Nat)
  /-- a remote access until its acceptance (R164) -/
  | remote (req : Nat)
  /-- a stream form until the unit has taken or refused its entries (R242, R243, R247, R248) -/
  | unit (req d : Nat)
deriving DecidableEq, Repr

/-- The occupant of a context slot. -/
inductive WaveStatus where
  | absent | running | ended | killed | halted
deriving DecidableEq, Repr, Inhabited

/-- A FENCE in force (R177): later accesses of the classes in `succ` are held until none of `ids` is outstanding. -/
structure Fence where
  succ : BitVec 8
  ids : List Nat
deriving DecidableEq, Repr

/-- A wave: the occupant of one context slot (R16, R24, R188). -/
structure Wave where
  status : WaveStatus := .absent
  lid : Nat := 0
  blk : Nat := 0
  num : Nat := 0
  role : Nat := 0
  pipe : Nat := 0
  budget : Nat := 0
  /-- s0 to s59 -/
  sregs : SMap Word := []
  /-- s60 to s62 -/
  present : LaneMask := 0
  exist : LaneMask := 0
  /-- nesting counters and continue bits -/
  cnt : SMap (BitVec 6) := []
  cont : LaneMask := 0
  /-- WF0 to WF5 at key 96 i + l, WID per lane -/
  wf : SMap Word := []
  wid : SMap DWord := []
  md : BitVec 16 := 2
  flg : BitVec 6 := 0
  lc : SMap Word := []
  gng : Word := 0
  hnd : Bool := false
  trb : Bool := false
  abn : Bool := false
  /-- the address of the next word: a header when `k` is 0, else body word `k` -/
  pc : DWord := 0
  k : Nat := 0
  hdr : Word := 0
  body : List Word := []
  /-- long-latency operations issued in the clause so far (R65) -/
  ll : Nat := 0
  flags : SMap Nat := []
  opens : List OpenReg := []
  due : List DueTrap := []
  trap : Option TrapReq := none
  /-- the host refused the page of a LAUNCH's header (R125) -/
  refused : Bool := false
  /-- stopped at a PPT, to be saved under this record (R286) -/
  ppt : Option Nat := none
  /-- reached its pre-emption point: it issues nothing until its context is restored (R288) -/
  parked : Bool := false
  wait : Wait := .none
  /-- what the next word waits for (R272), looked at afresh in every step; the pages on which it missed, until it completes (R228) -/
  reasons : BitVec 10 := 0
  missed : List Nat := []
  /-- the operands of the next word have been collected in spite of bank conflicts, or are being collected until a cycle (R42) -/
  gathered : Bool := false
  gathering : Option DWord := none
  /-- the commands that an MSTAT which has begun waits for (R204) -/
  awaits : Option (List Nat) := none
  adits : SMap AditEntry := []
  handles : SMap Handle := []
  /-- generation of the latest arrival (R123) -/
  arrived : Option Nat := none
  fences : List Fence := []
  active : Bool := false
  /-- entered the active set by displacement and has not issued since (R271) -/
  displaced : Bool := false
  readySince : DWord := 0
  /-- clocks of issues in the last 64 cycles -/
  issues : List DWord := []
  flagWaitSince : Option DWord := none
  /-- stopped for debug (R118, R290) -/
  debug : Bool := false
  /-- a debug stop waits for the clause boundary; a step lets one instruction issue -/
  stopReq : Bool := false
  stepReq : Bool := false
  /-- R294, R295: the next entry number, the running digest, the stream records so far; the traps that a replay has taken, as in
  Job.traps (R298) -/
  seq : Nat := 0
  trapped : List (Nat × Option DWord) := []
  digest : DWord := 0
  nrec : Nat := 0
  /-- stop record: cause, detail, address, lanes, clock of the stop (R284) -/
  stop : Option (Nat × Nat × DWord × LaneMask) := none
  /-- the command that raised a halt at an engine, in place of the present word (R333) -/
  stopPc : Option DWord := none
  stopClk : DWord := 0
deriving DecidableEq, Repr

/-- Where a long-latency operation writes. -/
inductive Dest where
  | none
  | vec (d : Nat) (pair : Bool)
  | scal (d : Nat) (pair : Bool)
deriving DecidableEq, Repr

/-- Kinds of long-latency operations (R67). -/
inductive OpKind where
  | special | load | store | amo (op : Nat) | amoc | xget | xput | xatm (op : Nat)
deriving DecidableEq, Repr

/-- One lane's access of an operation: its virtual address or element index, the physical address or the element's
key, the operands read at issue, and the value read once `done`. -/
structure LaneAcc where
  lane : Nat
  va : DWord := 0
  loc : Nat := 0
  data : DWord := 0
  cmp : DWord := 0
  done : Bool := false
  value : DWord := 0
  poison : Bool := false
  /-- the element stored carries poison (R162) -/
  mark : Bool := false
deriving DecidableEq, Repr

/-- A long-latency operation from issue to completion (R67, R68). -/
structure Op where
  id : Nat
  kind : OpKind
  party : Nat
  lid : Nat
  flag : Nat := 15
  size : Nat := 4
  dst : Dest := .none
  lanes : List LaneAcc := []
  /-- 16 where no handle is used; else the handle and its exporter and entry -/
  handle : Nat := 16
  exporter : Nat := 0
  entry : Nat := 0
  /-- the ceiling, through the core's port (R164) -/
  ceil : Bool := false
  /-- rows marked pending, by key -/
  rows : List Nat := []
  conds : SMap (BitVec 6) := []
  enables : BitVec 6 := 0
  /-- the issuing wave is the scalar execution -/
  scalar : Bool := false
  active : LaneMask := 0
  /-- number of its log entry, reserved at issue (R294); its writes enter the digest when known (R295) -/
  seq : Option Nat := none
  out : Bool := false
deriving DecidableEq, Repr

/-- States of a copy tag (R178). -/
inductive TagState where
  | idle | busy | done | error (code : Nat)
deriving DecidableEq, Repr, Inhabited

inductive Engine where
  | copy0 | copy1 | gather
deriving DecidableEq, Repr, Inhabited

/-- A place in memory (physical address) or in a register row (key of R36 per core) or element. -/
inductive Loc where
  | mem (pa : Nat)
  | row (key : Nat)
  | elem (key : Nat)
  /-- some elements of a row, by key, with their values (R245) -/
  | puts (row : Nat) (es : List (Nat × Word))
deriving DecidableEq, Repr

/-- One row or element of a transfer (R183): what it reads (or the data captured at issue) and where it writes. -/
structure CopyItem where
  src : Option Loc := none
  dst : Loc
  /-- bytes moved -/
  n : Nat
  data : List Word := []
  poison : List Bool := []
  /-- sent to a remote package, not yet acknowledged (R324) -/
  sent : Bool := false
  done : Bool := false
  /-- element index for the digest and the log -/
  idx : DWord := 0
  lane : Nat := 0
deriving DecidableEq, Repr

inductive CopyKind where
  | cpin | cpout | cprr | gath | scat
  /-- the deliveries of WRECV and WLATE (R245), which have no tag -/
  | intake
deriving DecidableEq, Repr, Inhabited

/-- A copy or gather command from issue to completion (R182). `adit` tells that a handle is its path. -/
structure CopyCmd where
  id : Nat
  kind : CopyKind
  engine : Engine
  core : Nat
  party : Nat
  lid : Nat
  /-- tag number in the core and in the block -/
  tag : Nat
  btag : Nat
  items : List CopyItem
  rows : List Nat := []
  handle : Nat := 16
  exporter : Nat := 0
  entry : Nat := 0
  code : Nat := 0
  /-- SRC and number of its log entry (R294) -/
  source : DWord := 0
  seqNo : Nat := 0
deriving DecidableEq, Repr

/-- One member of an MMA, in gang order (R198). -/
structure Member where
  party : Nat
  pc : DWord
  k : Nat
  vf : Nat
  count : Nat
  lat : Nat
  typ : EType
  gng : Word
  /-- register rows already read -/
  read : Nat := 0
  retired : Bool := false
deriving DecidableEq, Repr

/-- An A-row that the bay has read and not yet accumulated: accumulator row, elements, type. -/
structure ARow where
  row : Nat
  words : List Word
  poison : List Bool
  typ : EType
deriving DecidableEq, Repr

inductive BayWork where
  | mwl (lat : Nat) (tile : Nat) (fmt : WFmt) (col : Nat)
  | mma (members : List Member) (lat : Nat) (row0 total : Nat)
  | mdrn (i0 c : Nat) (out : EType) (i32acc clr : Bool) (md : BitVec 16) (scales : List Word) (bad : List Bool)
    (dst : Nat) (rows : Nat)
  | mzer (row count : Nat)
deriving DecidableEq, Repr

/-- States of a latch (R204). -/
inductive LatchState where
  | empty | loading | ready
deriving DecidableEq, Repr, Inhabited

/-- A latch (R197): columns 0 to 127, each the words of its tile row or rows, with the poison of its words. -/
structure Latch where
  state : LatchState := .empty
  tile : Nat := 0
  fmt : WFmt := .t8
  cols : SMap (List Word) := []
  poison : SMap (List Bool) := []
deriving DecidableEq, Repr

/-- A command of a bay queue (R194). -/
structure BayCmd where
  id : Nat
  party : Nat
  pc : DWord
  k : Nat
  work : BayWork
  started : Bool := false
  accs : List ARow := []
  /-- MDRN: accumulator rows read, words of their output that are not yet written, with their poison, and rows written (R201) -/
  accRead : Nat := 0
  output : List (Word × Bool) := []
  written : Nat := 0
  /-- MWL: number of its log entry, and the rows that a replay latches (R206); the step in which it read each column -/
  seq : Option Nat := none
  served : List Word := []
  reads : List Nat := []
  /-- an access raced: the command makes no further one (R333) -/
  raced : Bool := false
  /-- MMA: the latch as it stands when the stream starts -/
  weights : Latch := {}
deriving DecidableEq, Repr

/-- Ramp states (R203). -/
inductive Ramp where
  | cold | up | warm | down
deriving DecidableEq, Repr, Inhabited

/-- A matrix bay (R189 to R204). `holder` is the block that holds it. -/
structure Bay where
  holder : Option Nat := none
  queue : List BayCmd := []
  latches : SMap Latch := []
  bsat : Word := 0
  bnan : Word := 0
  ramp : Ramp := .cold
  rampEnd : DWord := 0
  rampStart : DWord := 0
  hintEnd : DWord := 0
  lastStream : DWord := 0
  streaming : Bool := false
deriving DecidableEq, Repr

/-- A geode descriptor (R251). -/
structure Geode where
  exp : Word := 0
  n : Word := 0
  wave : Nat := 0
  vreg : Nat := 0
  emp : Bool := false
  eov : Bool := false
  nf : Bool := false
  dz : Bool := false
  ill : Bool := false
  bnd : Bool := false
  dcap : Nat := 0
  /-- the binding wave as a party; not part of the descriptor's words -/
  party : Nat := 0
deriving DecidableEq, Repr

inductive GeodeWork where
  | init
  | mul (factors : List (Word × Word × Bool))
  | div (factors : List (Word × Word × Bool))
  | rsc
  | out (d : Nat) (k : Word) (md : BitVec 16) (lanes : LaneMask)
deriving DecidableEq, Repr

/-- A command of the geode unit's queue (R252); `g` is the descriptor in the core. -/
structure GeodeCmd where
  id : Nat
  party : Nat
  lid : Nat
  pc : DWord
  k : Nat
  g : Nat
  work : GeodeWork
  rows : List Nat
  raced : Bool := false
deriving DecidableEq, Repr

/-- A valid leaf entry held by a TLB (R279, R280): context, page base, log2 of the page size, physical base, EX, WR, RD. -/
structure TlbEntry where
  ctx : Nat
  va : Nat
  bits : Nat
  pa : Nat
  ex : Bool
  wr : Bool
  rd : Bool
deriving DecidableEq, Repr

/-- Kinds of access (R277). -/
inductive AccKind where
  | read | write | fetch
deriving DecidableEq, Repr, Inhabited

/-- A miss that waits for its service (R277): page address, kind, wave, launch. -/
structure Miss where
  va : Nat
  kind : AccKind
  party : Nat
  lid : Nat
  /-- the header read of a LAUNCH: a refusal is a status, no halt (R125) -/
  soft : Bool := false
  lanes : LaneMask := 0
  /-- the word that a refusal halts at: a word that is fetched, or the accessing one (R284) -/
  pc : DWord := 0
  k : Nat := 0
deriving DecidableEq, Repr

/-- A core stall (R277): its miss, the tag of its fault message, when it was sent. -/
structure Stall where
  miss : Miss
  tag : BitVec 16
  since : DWord
deriving DecidableEq, Repr

/-- A task in the store (R30). -/
structure Task where
  lid : Nat
  entry : DWord
  number : DWord
  args : List Word
  since : DWord
  /-- has waited 2,048 cycles -/
  due : Bool := false
deriving DecidableEq, Repr

/-- A forced debugger write (R60). -/
structure Forced where
  row : Nat
  mask : BitVec 32
  words : List Word
deriving DecidableEq, Repr

/-- A lane-cycle record (R273): ranges as (first, last) and four counters for each. -/
structure LaneRec where
  /-- its context is resident -/
  resident : Bool := false
  ranges : SMap (DWord × DWord) := []
  counts : SMap DWord := []
deriving DecidableEq, Repr

/-- A core (R7). -/
structure Core where
  enabled : Bool := true
  quar : Bool := false
  score : Nat := 0
  clean : Nat := 0
  tags : SMap TagState := []
  tagBits : BitVec 64 := 0
  bays : SMap Bay := []
  geodes : SMap Geode := []
  geodeQ : List GeodeCmd := []
  tlb : List TlbEntry := []
  stall : Option Stall := none
  misses : List Miss := []
  tasks : List Task := []
  /-- instruction-cache lines locked, oldest first: launch and line address -/
  locks : List (Nat × Nat) := []
  forced : List Forced := []
  /-- holder of each bay's ceiling grant -/
  grants : SMap (Option Nat) := []
  /-- routing tables written and checked, by launch (R268) -/
  routes : List Nat := []
  lanes : SMap LaneRec := []
  /-- rotation of the samples, per pipe (R272) -/
  sampled : SMap Nat := []
  /-- the last wave that issued, per pipe: its launch and its pc after that issue (R273) -/
  last : SMap (Option (Nat × DWord)) := []
deriving DecidableEq, Repr

/-- An arrival at a barrier (R123, R214): the entry mask and the operations to be performed. -/
structure Arrival where
  mask : BitVec 16
  ids : List Nat
deriving DecidableEq, Repr

/-- A gang rendezvous in progress (R34): its members in order of arrival and the cycles counted so far. -/
structure Rendezvous where
  n : Nat
  members : List (Nat × Member)
  since : DWord
  spent : Nat := 0
deriving DecidableEq, Repr

/-- Which run of a block this is (R297, R299). -/
inductive Run where
  | original
  | replay (job : Nat)
  | third (job : Nat)
  | capture (job : Nat)
deriving DecidableEq, Repr, Inhabited

inductive WaveEnd where
  | live | ended | killed
deriving DecidableEq, Repr, Inhabited

/-- A block (R16). -/
structure Block where
  id : Nat
  lid : Nat
  index : DWord := 0
  core : Nat := 0
  run : Run := .original
  task : Bool := false
  n : Nat := 1
  /-- wave number to party, and how the wave ended -/
  parties : SMap Nat := []
  ends : SMap WaveEnd := []
  /-- common index to slot + 1 and claim (R58, R166) -/
  common : SMap (Nat × Nat) := []
  tags : List Nat := []
  geodes : List Nat := []
  bays : List Nat := []
  gen : Nat := 0
  arrivals : SMap (Option Arrival) := []
  /-- the cycle in which the last arrival of the current generation landed (R33); the generation has completed and its scrubs run
  (R123) -/
  landed : Option DWord := none
  closing : Bool := false
  /-- first abandoned generation (R33) -/
  abandoned : Option Nat := none
  rends : List Rendezvous := []
  published : Bool := false
  err : Bool := false
  ended : Bool := false
  /-- R130, R293: selected, log still active, entries, digest of the waves that have ended -/
  selected : Bool := false
  logging : Bool := false
  job : Nat := 0
  digest : DWord := 0
  rflags : BitVec 6 := 0
  rsat : Nat := 0
  rnan : Nat := 0
deriving DecidableEq, Repr

/-- A role word of a header (R265). -/
structure Role where
  entry : Nat := 0
  budget : Nat := 0
  waves : Nat := 0
deriving DecidableEq, Repr, Inhabited

/-- A dependence word of a header (R265). -/
structure Dep where
  base : Nat := 0
  count : Nat := 0
  map : Nat := 0
  k : Nat := 0
deriving DecidableEq, Repr, Inhabited

/-- A binding descriptor of a standing header (R265). -/
structure BindDesc where
  org : Nat := 0
  slide : Nat := 0
  late : Nat := 0
  idle : Nat := 0
  sblk : Nat := 0
  strm : Nat := 0
  q : Nat := 0
  qcap : Nat := 0
deriving DecidableEq, Repr, Inhabited

/-- A launch header (R265), each field as a number. -/
structure Header where
  args : List Word := []
  img : Nat := 0
  htbl : Nat := 0
  halt : Nat := 0
  strm : Nat := 0
  cls : Nat := 0
  std : Bool := false
  errstop : Bool := false
  note : Bool := false
  dbg : Bool := false
  noev : Bool := false
  rw : Nat := 1
  rh : Nat := 1
  bays : Nat := 0
  ceil : Nat := 0
  nbind : Nat := 0
  out : Bool := false
  tags : Nat := 0
  geo : Nat := 0
  csl : Nat := 0
  preb : Nat := 1
  arate : Nat := 0
  seed : DWord := 0
  widths : List Nat := []
  b : Nat := 1
  ext : List Nat := []
  roles : List Role := []
  evb : Nat := 0
  ostr : Nat := 0
  osrc : Nat := 0
  deps : List Dep := []
  binds : List BindDesc := []
deriving DecidableEq, Repr

/-- States of a window slot (R235). -/
inductive Window where
  | none | opened | fired | taken | published (rev : Nat) | released
deriving DecidableEq, Repr, Inhabited

/-- An entry of an on-time or late queue (R236). -/
structure QEntry where
  words : List Word
  j0 : Nat
  mask : BitVec 4
  since : DWord
  id : Nat
deriving DecidableEq, Repr

/-- A notice, with the number of on-time entries that entered before it (R237). -/
structure Notice where
  j : Nat
  after : Nat
deriving DecidableEq, Repr

/-- An input binding of a launch (R233 to R240). -/
structure Binding where
  desc : BindDesc := {}
  onTime : List QEntry := []
  late : List QEntry := []
  notices : List Notice := []
  windows : SMap Window := []
  disc : Nat := 0
  /-- on-time entries that have entered, and that have been taken -/
  entered : Nat := 0
  taken : Nat := 0
  lateIn : Nat := 0
  /-- offered no further entry (R263) -/
  closed : Bool := false
deriving DecidableEq, Repr

/-- The primary halt of a context and its progress (R281 to R284). -/
structure Halt where
  cause : Nat
  detail : Nat
  pc : DWord
  addr : DWord
  lanes : LaneMask
  party : Nat
  core : Nat
  clk : DWord
  since : DWord
  first : DWord := 0
  last : DWord := 0
  /-- cores of the rectangle that the line has reached, and that have stopped -/
  reached : List Nat := []
  stopped : List Nat := []
  records : Nat := 1
deriving DecidableEq, Repr

inductive Progress where
  | queued | resident | saved | halting | halted | ended
deriving DecidableEq, Repr, Inhabited

/-- A launch (R16, R265 to R270). -/
structure Launch where
  lid : Nat
  hdr : Header := {}
  queue : Nat := 0
  ctx : Nat := 0
  native : Bool := true
  prog : Progress := .queued
  x0 : Nat := 0
  y0 : Nat := 0
  total : Nat := 0
  /-- block indices taken in hand, placed or passed over (R269), and the number finished -/
  started : SMap Bool := []
  /-- passed over (R269) -/
  skipped : SMap Bool := []
  finished : Nat := 0
  tasks : Nat := 0
  halt : Option Halt := none
  /-- pre-emption: when it was asked for; PREB has expired (R288) -/
  preempt : Option DWord := none
  bound : Bool := false
  /-- time charged back by stalls (R277) -/
  credit : DWord := 0
  saveSince : Option DWord := none
  resumed : DWord := 0
  wo : DWord := 0
  binds : SMap Binding := []
  /-- a replay of an audit: its job (R297) -/
  replay : Option Nat := none
  capture : Bool := false
deriving DecidableEq, Repr

/-- A liveness record (R287). -/
structure Liveness where
  vmap : BitVec 256
  ranges : List (Nat × Nat)
deriving DecidableEq, Repr

/-- A kernel image that the loader has registered (R28, R64, R76, R115, R287, R316). `base` is IMG. -/
structure Image where
  id : Nat
  base : Nat
  stepping : Nat
  interlocked : Bool
  reserve : Bool
  roles : List Role
  trapVector : DWord
  records : List Liveness
  textVa : Nat
  textPa : Nat
  textLen : Nat
  pageSize : Nat
  /-- the argument template after relocation -/
  args : List Byte := []
  loaded : Bool := true
deriving DecidableEq, Repr

/-- Kinds of source (R229). -/
inductive SourceKind where
  | none | host (module : Nat) | port (p : Nat) | device (lid : Nat)
deriving DecidableEq, Repr, Inhabited

structure Source where
  kind : SourceKind := .none
  ws : DWord := 0
  idle : Bool := false
  last : DWord := 0
deriving DecidableEq, Repr, Inhabited

/-- A stream table entry with its state (R229, R232, R238). -/
structure Stream where
  opened : Bool := false
  srcs : SMap Source := []
  w : DWord := 0
  timeout : Nat := 0
  refusals : Nat := 0
deriving DecidableEq, Repr

/-- What is on its way to the watermark unit (R231). -/
inductive UWork where
  | records (stream src : Nat) (recs : List (List Word)) (taken : Nat)
  | advance (stream src : Nat) (x : DWord)
  | idle (stream src : Nat)
  | publish (lid bnd j : Nat) (amend : Bool) (recs : List (List Word))
deriving DecidableEq, Repr

/-- Who sent an entry: a wave (waiting), a host message (to be answered), a port. -/
inductive USource where
  | wave (p : Nat)
  | host (m : HostMsg)
  | port (p : Nat)
deriving DecidableEq, Repr

structure UReq where
  id : Nat
  work : UWork
  source : USource
  /-- the control scalar, or what stands in its place (R241, R295) -/
  ctl : Nat := 0
deriving DecidableEq, Repr

/-- A launch on its way to acceptance (R125, R266). -/
structure LaunchReq where
  id : Nat
  /-- physical address of the header, or none where it is not readable -/
  addr : Option Nat
  queue : Nat
  ctx : Nat
  source : USource
  /-- operations of the wave to be performed first (R125) -/
  ids : List Nat
deriving DecidableEq, Repr

/-- A remote adit access that the target core has not accepted (R164), or a copy whose rows wait for it. -/
structure RemoteReq where
  id : Nat
  op : Op
  /-- target rows, by key, and the lanes that touch each -/
  rows : List (Nat × LaneMask)
  write : Bool
  /-- the wave's own rows that it reads and writes, race-checked with the target's (R56) -/
  own : List (Nat × Bool)
  /-- its log entry takes a number when it is accepted (R294) -/
  logs : Bool
  pc : DWord
  k : Nat
deriving DecidableEq, Repr

/-- An entry of an audit log (R294). -/
structure LogEntry where
  kind : Nat
  wave : Nat
  seq : Nat
  src : DWord
  data : List Word
  /-- its offset in the log region, once the logger has written it there -/
  place : Option Nat := none
deriving DecidableEq, Repr

/-- The log entry that holds a tile (R206): bay, tile (b16 tiles count from 256), SEQ, WAVE, the step in which each column was
read. -/
structure TileLog where
  bay : Nat
  tile : Nat
  seq : Nat
  wave : Nat
  reads : List Nat
deriving DecidableEq, Repr

/-- An audit of one block, from the block's start to its resolution (R293 to R303). -/
structure Job where
  id : Nat
  lid : Nat
  index : DWord
  hdr : Header
  ctx : Nat
  native : Bool
  task : Bool := false
  /-- a task wave: its entry, its lanes and their sequence numbers (R30) -/
  entry : DWord := 0
  present : LaneMask := 0
  wids : List DWord := []
  log : List LogEntry := []
  /-- in-wave traps of the original run: wave, cause, address where the trap has one of its own (R298) -/
  traps : List (Nat × Nat × Option DWord) := []
  bytes : Nat := 0
  opened : Bool := true
  closedAt : DWord := 0
  corg : Nat
  crep : Nat := 0xFF
  cthr : Nat := 0xFF
  dorig : DWord := 0
  drep : DWord := 0
  dthr : DWord := 0
  repDone : Bool := false
  thrDone : Bool := false
  repEarly : Bool := false
  thrEarly : Bool := false
  divRep : Word := 0
  divThr : Word := 0
  repStarted : Bool := false
  thrStarted : Bool := false
  flgr : BitVec 6 := 0
  bsatr : Nat := 0
  bnanr : Nat := 0
  kept : Bool := false
  /-- a replay of a kept log, which changes no score (R303) -/
  capture : Bool := false
  resolved : Bool := false
  /-- model's own: the original's parties by wave number, which an attach of a replay names (R168); transfers that ended in error,
  by wave and SEQ, with the items delivered and the code, which a replay's end alike (R178, R294) -/
  parties : SMap Nat := []
  cuts : List (Nat × Nat × Nat × Nat) := []
  /-- model's own: the revisions that publications entered, by wave and SEQ, which a replay folds (R239, R295) -/
  revs : List (Nat × Nat × Nat) := []
  /-- the tiles latched (R206) -/
  tiles : List TileLog := []
deriving DecidableEq, Repr

/-- A range of rows that the save engine has stored (R59, R288, R291): the position of its core in the rectangle, the
core-local row it began at, and elements, poison and metadata by their place in the range. -/
structure SavedRows where
  pos : Nat
  row : Nat
  elems : SMap Word
  bad : SMap Bool
  info : SMap RowMeta
deriving DecidableEq, Repr

/-- A context that the save engine has stored (R288 to R291), with its launch, parties, cores and units as they were. -/
structure Saved where
  lid : Nat
  launch : Launch := { lid := lid }
  x0 : Nat
  y0 : Nat
  waves : List (Nat × Wave) := []
  blocks : List Block := []
  rows : List SavedRows := []
  /-- by position and unit -/
  bays : List (Nat × Nat × Bay) := []
  geodes : List (Nat × Nat × Geode) := []
  tags : List (Nat × Nat × TagState) := []
  /-- by position -/
  locks : List (Nat × Nat) := []
  lanes : List (Nat × LaneRec) := []
  tasks : List (Nat × Task) := []
deriving DecidableEq, Repr

/-- Entries of the event table (R269). -/
inductive Event where
  | clear | done | error
deriving DecidableEq, Repr, Inhabited

/-- Stages of boot (R326). -/
inductive Boot where
  | off | waiting | answering | removed
deriving DecidableEq, Repr, Inhabited

/-- A firmware image (R326). -/
structure Firmware where
  bytes : List Byte := []
  svn : Nat := 0
  sig : BitVec 512 := 0
deriving DecidableEq, Repr

/-- A scale-out port (R324, R325) and a UCIe module (R320). -/
structure Port where
  up : Bool := true
deriving DecidableEq, Repr

structure Module where
  up : Bool := true
  lanes : Nat := 64
deriving DecidableEq, Repr

/-- The agent whose move is next, where a step names it. -/
inductive Turn where
  /-- the wave of a party -/
  | wave (p : Nat)
  /-- a step that has no word -/
  | event (i : Instr)
  /-- arrival `n` of the inputs -/
  | input (n : Nat)
  /-- image `n` of those that arrive from another package (R289) -/
  | image (n : Nat)
  /-- promotion in a pipe (R271) -/
  | promote (core pipe : Nat)
  /-- one lane of a load or an atomic at the memory port (R216) -/
  | lane (op l : Nat)
  /-- one column or A-row read by a bay (R197, R199) -/
  | bayRead (core bay : Nat)
  /-- one accumulator row read by a drain (R201) -/
  | drainRead (core bay : Nat)
  /-- time passes -/
  | idle
deriving DecidableEq, Repr

/-- Reasons of a fault of the machine. -/
inductive Fault where
  /-- an instruction is given to a wave that is not running: raised by the guard of every word instruction; no run of
  `step` reaches it. Safe. -/
  | noWave
deriving DecidableEq, Repr

/-- Reasons of a refusal. -/
inductive Refusal where
  /-- an instruction with no meaning yet. Safe. -/
  | notModelled (mnemonic : String)
  /-- a step that has no word, given when its conditions do not hold; `step` never chooses such a one. Safe. -/
  | notEnabled (mnemonic : String)
deriving DecidableEq, Repr

/-- The package. -/
structure State where
  /-- model's own: the next move if named, steps taken, the next operation's number, the wave at the turn (assumption 1) -/
  turn : Option Turn := none
  tick : Nat := 0
  nextId : Nat := 1
  cur : Nat := 0
  /-- CLOCK of R121 -/
  clock : DWord := 0
  /-- register elements, their poison, row metadata, keyed over all cores (R36, R44, R50) -/
  elems : SMap Word := []
  bad : SMap Bool := []
  rows : SMap RowMeta := []
  /-- model's own: the step in which a ceiling row was last written, plus one (R206) -/
  ceilWrites : SMap Nat := []
  /-- device memory and the poison of its 8-byte units (R50, R324) -/
  mem : SMap Byte := []
  badMem : SMap Bool := []
  /-- waves by party (R45): core * 128 + slot -/
  waves : SMap Wave := []
  cores : SMap Core := []
  /-- correctable errors counted, by core (R50) -/
  corrected : SMap Nat := []
  /-- second-level TLBs by die, throttle marks (R279, R329) -/
  tlb2 : SMap (List TlbEntry) := []
  throttled : SMap Bool := []
  ops : List Op := []
  copies : List CopyCmd := []
  remotes : List RemoteReq := []
  blocks : List Block := []
  launches : List Launch := []
  nextLid : Nat := 0
  launchReqs : List LaunchReq := []
  /-- the queue of each class served last, and resident slices (R267) -/
  served : SMap Nat := []
  events : SMap Event := []
  images : List Image := []
  /-- status of the loader's last load (R28) -/
  loadStatus : Nat := 0
  streams : SMap Stream := []
  unitQ : List UReq := []
  jobs : List Job := []
  abr : SMap Nat := []
  selected : Nat := 0
  matched : Nat := 0
  outvoted : Nat := 0
  ringPos : Nat := 0
  samplePos : Nat := 0
  sampleDue : DWord := 0
  saved : List Saved := []
  /-- the control window's bytes (R323) -/
  window : SMap Byte := []
  /-- messages to the host and arrivals not yet taken -/
  sent : List HostMsg := []
  inputs : List Instr := []
  /-- saved images of another package that the host brings here (R2, R289) -/
  arriving : List Saved := []
  /-- the next tag of a device message; withdrawn fault reports (R278) -/
  nextTag : BitVec 16 := 0
  withdrawn : List (BitVec 16) := []
  boot : Boot := .off
  primary : Firmware := {}
  backup : Firmware := {}
  running : Firmware := {}
  /-- the image that the host hands over while no flash image verifies (R326) -/
  staged : List Byte := []
  config : List Byte := []
  /-- the configuration block that firmware applied at boot (R326) -/
  applied : List Byte := []
  modules : SMap Module := []
  ports : SMap Port := []
  islands : SMap Island := []
deriving DecidableEq, Repr

/-- The package right after reset, before power-good (R326, assumptions 3 and 4). -/
def State.reset : State := {}

end Sys2Proof.Machine
end

