-- ==== Sys2Proof/Machine/Ops.lean ====
section
/-! DEFINITION. The named operations over registers, rows, memory, waves and contexts, and the taking of exceptions. -/

namespace Sys2Proof.Machine

/-! ### Lane masks -/

/-- The mask of the first `n` lanes that satisfy `f`. -/
def maskUpto (f : Nat → Bool) : Nat → LaneMask
  | 0 => 0
  | n + 1 => maskUpto f n ||| (if f n then (1 : LaneMask) <<< n else 0)

def maskOf (f : Nat → Bool) : LaneMask := maskUpto f 96

/-- The lanes of a mask, ascending (R19). -/
def lanesOf (m : LaneMask) : List Nat := (List.range 96).filter (fun l => m.getLsbD l)

/-- The beats in which a mask has a lane. -/
def beatsOf (m : LaneMask) : List Nat :=
  (List.range 3).filter (fun b => (List.range 32).any (fun i => m.getLsbD (32 * b + i)))

def allLanes : LaneMask := BitVec.allOnes 96

/-! ### Parts of the state -/

namespace State

def wave (s : State) (p : Nat) : Wave := s.waves.get {} p
def setWave (s : State) (p : Nat) (w : Wave) : State := { s with waves := s.waves.set {} p w }
def modWave (s : State) (p : Nat) (f : Wave → Wave) : State := s.setWave p (f (s.wave p))

def core (s : State) (c : Nat) : Core := s.cores.get {} c
def setCore (s : State) (c : Nat) (v : Core) : State := { s with cores := s.cores.set {} c v }
def modCore (s : State) (c : Nat) (f : Core → Core) : State := s.setCore c (f (s.core c))

def bay (s : State) (c b : Nat) : Bay := (s.core c).bays.get {} b
def modBay (s : State) (c b : Nat) (f : Bay → Bay) : State :=
  s.modCore c (fun k => { k with bays := k.bays.set {} b (f (k.bays.get {} b)) })

def geode (s : State) (c g : Nat) : Geode := (s.core c).geodes.get {} g
def modGeode (s : State) (c g : Nat) (f : Geode → Geode) : State :=
  s.modCore c (fun k => { k with geodes := k.geodes.set {} g (f (k.geodes.get {} g)) })

def block? (s : State) (id : Nat) : Option Block := s.blocks.find? (fun b => b.id == id)
def block (s : State) (id : Nat) : Block := (s.block? id).getD { id := id, lid := 0 }
def modBlock (s : State) (id : Nat) (f : Block → Block) : State :=
  { s with blocks := s.blocks.map (fun b => if b.id = id then f b else b) }

def launch? (s : State) (lid : Nat) : Option Launch := s.launches.find? (fun l => l.lid == lid)
def launch (s : State) (lid : Nat) : Launch := (s.launch? lid).getD { lid := lid }
def modLaunch (s : State) (lid : Nat) (f : Launch → Launch) : State :=
  { s with launches := s.launches.map (fun l => if l.lid = lid then f l else l) }

def job? (s : State) (id : Nat) : Option Job := s.jobs.find? (fun j => j.id == id)
def modJob (s : State) (id : Nat) (f : Job → Job) : State :=
  { s with jobs := s.jobs.map (fun j => if j.id = id then f j else j) }

def stream (s : State) (n : Nat) : Stream := s.streams.get {} n
def modStream (s : State) (n : Nat) (f : Stream → Stream) : State :=
  { s with streams := s.streams.set {} n (f (s.stream n)) }

/-- The image at an address IMG (R265). -/
def imageAt? (s : State) (base : Nat) : Option Image := s.images.find? (fun i => i.base == base && i.loaded)

/-- The image that a launch runs. -/
def imageOf? (s : State) (lid : Nat) : Option Image := s.imageAt? (s.launch lid).hdr.img

def fresh (s : State) : Nat × State := (s.nextId, { s with nextId := s.nextId + 1 })

end State

/-- Core and slot of a party (R44, R45). -/
def coreOf (p : Nat) : Nat := p / 128
def slotOf (p : Nat) : Nat := p % 128

/-- The die of a core (R4). -/
def dieOf (c : Nat) : Nat := c % 8 / 4 + 2 * (c / 8 / 3)

/-! ### Rows and elements (R36, R39) -/

/-- Rows of a core below the reserved ones. -/
def rowsPerCore : Nat := 197376
def rowKey (core row : Nat) : Nat := core * rowsPerCore + row
/-- Row `r` of the slot of a party. -/
def slotRow (p r : Nat) : Nat := rowKey (coreOf p) (768 * slotOf p + r)
/-- The row of register `v` in beat `b`. -/
def vrow (p v b : Nat) : Nat := slotRow p (3 * v + b)
def elemKey (row e : Nat) : Nat := row * 32 + e
/-- The element of register `v` in lane `l`. -/
def velem (p v l : Nat) : Nat := elemKey (vrow p v (l / 32)) (l % 32)
def ceilRow (core x : Nat) : Nat := rowKey core (98304 + x)
def bayRow (core bay r : Nat) : Nat := rowKey core (196608 + 256 * bay + r)

namespace State

def elem (s : State) (k : Nat) : Word := s.elems.get 0 k
def poisoned (s : State) (k : Nat) : Bool := s.bad.get false k
/-- A row of a ceiling. -/
def isCeil (row : Nat) : Bool := decide (98304 ≤ row % rowsPerCore) && decide (row % rowsPerCore < 196608)
/-- A write of a whole element: its value and its poison (R50). -/
def putElem (s : State) (k : Nat) (v : Word) (poison : Bool) : State :=
  { s with elems := s.elems.set 0 k v, bad := s.bad.set false k poison,
           ceilWrites := if isCeil (k / 32) then s.ceilWrites.set 0 (k / 32) (s.tick + 1) else s.ceilWrites }

def info (s : State) (row : Nat) : RowMeta := s.rows.get {} row
def setMeta (s : State) (row : Nat) (m : RowMeta) : State := { s with rows := s.rows.set {} row m }
def modMeta (s : State) (row : Nat) (f : RowMeta → RowMeta) : State := s.setMeta row (f (s.info row))

def rowWords (s : State) (row : Nat) : List Word := (List.range 32).map (fun e => s.elem (elemKey row e))
def rowPoison (s : State) (row : Nat) : List Bool := (List.range 32).map (fun e => s.poisoned (elemKey row e))
/-- Writes elements of a row from `e` upward. -/
def putRow (s : State) (row : Nat) : Nat → List Word → List Bool → State
  | _, [], _ => s
  | e, w :: ws, bs => ((s.putElem (elemKey row e) w (bs.headD false))).putRow row (e + 1) ws bs.tail

/-- Marks rows pending for an operation (R46). -/
def pend (s : State) (id : Nat) (rows : List Nat) : State :=
  rows.foldl (fun s r => s.modMeta r (fun m => { m with pnd := true, owner := id })) s
/-- Clears the pending marks that an operation holds (R46). -/
def unpend (s : State) (id : Nat) (rows : List Nat) : State :=
  rows.foldl (fun s r => if (s.info r).owner = id then s.modMeta r (fun m => { m with pnd := false, owner := 0 }) else s) s

/-- A row that waits for a write: pending, or with a forced write before any later access (R47, R60). -/
def rowPending (s : State) (row : Nat) : Bool :=
  (s.info row).pnd || (s.core (row / rowsPerCore)).forced.any (fun f => f.row == row % rowsPerCore)

/-- A slot holds a row that waits for a write: pending, or with a forced write to come (R46, R60). -/
def slotPending (s : State) (p : Nat) : Bool :=
  s.rows.any (fun e => e.2.pnd && decide (slotRow p 0 ≤ e.1) && decide (e.1 < slotRow p 768)) ||
  (s.core (coreOf p)).forced.any (fun f => f.row / 768 == slotOf p)

/-- Zeroes rows and resets their metadata (R41). -/
def zeroRows (s : State) (row n : Nat) : State :=
  { s with elems := s.elems.clearRange (row * 32) (n * 32), bad := s.bad.clearRange (row * 32) (n * 32),
           rows := s.rows.clearRange row n }

/-! ### Registers -/

def vget (s : State) (p v l : Nat) : Word := s.elem (velem p v l)
/-- Writes a register in the lanes of a mask. -/
def vput (s : State) (p v : Nat) (m : LaneMask) (f : Nat → Word) : State :=
  (lanesOf m).foldl (fun s l => s.putElem (velem p v l) (f l) false) s

end State

/-- A scalar register (R24, R134): s63 reads 0, s60 to s62 are the presence mask. -/
def Wave.sget (w : Wave) (r : Nat) : Word :=
  if r < 60 then w.sregs.get 0 r
  else if r < 63 then (w.present >>> (32 * (r - 60))).setWidth 32
  else 0

/-- Writes a scalar register: s63 discards; s60 to s62 take the value ANDed with the existence mask (R24, R134). -/
def Wave.sput (w : Wave) (r : Nat) (v : Word) : Wave :=
  if r < 60 then { w with sregs := w.sregs.set 0 r v }
  else if r < 63 then
    { w with present := maskOf (fun l => if l / 32 = r - 60 then v.getLsbD (l % 32) && w.exist.getLsbD l
                                         else w.present.getLsbD l) }
  else w

/-- A 64-bit pair, even register low (R72). -/
def Wave.pair (w : Wave) (r : Nat) : DWord := (w.sget (r + 1)) ++ (w.sget r)
/-- Writes the pair that begins at `r`; a second register beyond s63 is none. -/
def Wave.putPair (w : Wave) (r : Nat) (v : DWord) : Wave :=
  let w := w.sput r (v.setWidth 32)
  if r < 63 then w.sput (r + 1) ((v >>> 32).setWidth 32) else w

/-- A lane is active when it is present and its counter is 0 (R23). -/
def Wave.activeMask (w : Wave) : LaneMask := maskOf (fun l => w.present.getLsbD l && decide (w.cnt.get 0 l = 0))

/-- Value of WAVE (R121). -/
def waveId (p : Nat) (w : Wave) : Nat := w.num + 16 * w.role + 64 * slotOf p + 8192 * w.pipe
/-- STAT (R121). -/
def Wave.stat (w : Wave) : Nat := (if w.hnd then 1 else 0) + (if w.trb then 2 else 0) + (if w.abn then 4 else 0)

/-! ### Device memory (R50, R324) -/

/-- The first physical address above device memory. -/
def memTop : Nat := 0x6000000000

namespace State

def byte (s : State) (a : Nat) : Byte := s.mem.get 0 a
def bytes (s : State) (a n : Nat) : List Byte := (List.range n).map (fun i => s.byte (a + i))
/-- Little-endian value of `n` bytes. -/
def load (s : State) (a n : Nat) : Nat := leNat (s.bytes a n)
def loadPoison (s : State) (a n : Nat) : Bool :=
  (List.range n).any (fun i => s.badMem.get false ((a + i) / 8))
/-- Bytes one by one; addresses outside device memory are not memory. -/
def putBytes (s : State) (a : Nat) : List Byte → State
  | [] => s
  | b :: t => (if a < memTop then { s with mem := s.mem.set 0 a b } else s).putBytes (a + 1) t
/-- A write of bytes: a unit written whole loses its poison (R50). -/
def store (s : State) (a : Nat) (bs : List Byte) : State :=
  let s := s.putBytes a bs
  let first := (a + 7) / 8
  let last := (a + bs.length) / 8
  if first < last then { s with badMem := s.badMem.clearRange first (last - first) } else s
def storePoison (s : State) (a n : Nat) : State :=
  { s with badMem := (List.range ((a + n + 7) / 8 - a / 8)).foldl (fun m i => m.set false (a / 8 + i) true) s.badMem }

/-- A message to the host (R321, R322); it is lost on a module that is down (R320). -/
def send (s : State) (m : HostMsg) : State := if (s.modules.get {} m.module).up then { s with sent := s.sent ++ [m] } else s
def reply (s : State) (m : HostMsg) (stat : Nat) (payload : List Byte := []) : State :=
  s.send { module := m.module, typ := m.typ, sub := m.sub, tag := m.tag, len := payload.length,
           stat := BitVec.ofNat 16 stat, payload := payload }
/-- A message that the device sends of itself goes over its first module that is up; with none it is lost (R320). -/
def report (s : State) (m : HostMsg) : State :=
  match (List.range 4).find? (fun n => (s.modules.get {} n).up) with
  | some n => s.send { m with module := n }
  | none => s
/-- An event notification, TYPE 4 (R322). -/
def notify (s : State) (sub : Nat) (arg : Nat) : State :=
  s.report { typ := 4, sub := BitVec.ofNat 8 sub, arg := BitVec.ofNat 64 arg }

end State

/-! ### Program order of a wave -/

/-- Moves past an instruction of `n` words (R62): to the next body word, or to the next header. -/
def Wave.advance (w : Wave) (n : Nat) : Wave :=
  let k := w.k + n
  { w with pc := w.pc + BitVec.ofNat 64 (4 * n), k := if k ≤ w.body.length then k else 0, reasons := 0, missed := [],
           gathered := false, gathering := none, awaits := none, flagWaitSince := none }

/-- Moves to a clause header (R75). -/
def Wave.jump (w : Wave) (a : DWord) : Wave :=
  { w with pc := a, k := 0, reasons := 0, missed := [], gathered := false, gathering := none, awaits := none, flagWaitSince := none }

/-- The address and body index as s56:s57 hold them (R116). -/
def resumeWord (a : DWord) (k : Nat) : DWord := (a &&& 0x01FFFFFFFFFFFFFF) ||| BitVec.ofNat 64 (k % 32 * 2 ^ 59)

/-- A wave that does not issue keeps its pc and reports its reasons (R272); since when it waits on flags is kept (R271). -/
def State.stallAll (s : State) (p : Nat) (reasons : BitVec 10) : State :=
  s.modWave p (fun w => { w with
    reasons := reasons, readySince := s.clock,
    flagWaitSince := if reasons.getLsbD 4 then some (w.flagWaitSince.getD s.clock) else none })

/-- A wave that does not issue for one reason. -/
def State.stall (s : State) (p reason : Nat) : State := s.stallAll p ((1 : BitVec 10) <<< reason)

/-- A wait that moves the wave to the pending set (R271). -/
def State.demoted (s : State) (p reason : Nat) : State := (s.stall p reason).modWave p (fun w => { w with active := false })

/-- A reason of the vector of R272, where it applies. -/
def reason (n : Nat) (applies : Bool) : BitVec 10 := if applies then (1 : BitVec 10) <<< n else 0

namespace State

/-- The core issues nothing: a stall is on or a miss waits (R228). -/
def coreStalled (s : State) (c : Nat) : Bool := (s.core c).stall.isSome || !(s.core c).misses.isEmpty

/-- The present cycle is one of the two in eight that the pipes and bays of a throttled die skip (R329, assumption 84). -/
def skips (s : State) (c : Nat) : Bool :=
  s.throttled.get false (dieOf c) && decide ((s.clock.toNat + Config.throttlePhase) % 8 < 2)

/-- The reasons for which a wave waits now (R272): those of its next word, a core fault stall (R228), a debug halt (R290), and for
a ready wave that did not issue in this cycle "not selected", a skipped cycle among them (R329). -/
def reasonsOf (s : State) (p : Nat) : BitVec 10 :=
  let w := s.wave p
  let r := w.reasons &&& 0xFF ||| reason 9 (s.coreStalled (coreOf p)) ||| reason 8 w.debug
  if r = 0 then reason 0 (w.issues.head? != some s.clock || s.skips (coreOf p)) else r

end State

/-- What the next word of a wave waits for, as it was last looked at (R271, R272): barrier, tag, flag, pending row, bank conflict, pipe
busy. -/
def Wave.waits (w : Wave) : Bool := w.reasons &&& 0x7E != 0

/-- A form that has begun and missed: it completes before anything else ends or moves the wave (R228). -/
def Wave.unfinished (w : Wave) : Bool := decide (w.k ≠ 0) && !w.missed.isEmpty

/-! ### Fences and outstanding accesses (R176, R177, R210, R211) -/

/-- Fence classes of an operation: those of its access, and XW for the registers that it has still to write (R77, R211). -/
def Op.classes (o : Op) : BitVec 8 :=
  (if (match o.dst with | .vec .. => true | _ => false) then 0x08 else 0) ||| match o.kind with
  | .special => 0
  | .load => 0x01
  | .store => 0x02
  | .amo _ => 0x03
  | .amoc => 0x03
  | .xget => 0x04
  | .xput => 0x08
  | .xatm _ => 0x08

def CopyCmd.classes (c : CopyCmd) : BitVec 8 :=
  match c.kind with
  | .cpin => 0x30
  | .cpout => 0x20
  | .cprr => 0x08
  | .gath => if c.handle < 16 then 0x24 else 0x30
  | .scat => if c.handle < 16 then 0x08 else 0x20
  | .intake => 0x20

def BayCmd.classes (c : BayCmd) : BitVec 8 :=
  match c.work with
  | .mwl .. => 0x40
  | .mma .. => 0x40
  | .mdrn .. => 0x80
  | .mzer .. => 0

/-- Every geode command writes, and all but PINIT read, unless no lane is active (R211, R252). -/
def GeodeWork.classes (w : GeodeWork) : BitVec 8 :=
  match w with
  | .init => 0x80
  | .mul fs => if fs.isEmpty then 0 else 0xC0
  | .div fs => if fs.isEmpty then 0 else 0xC0
  | .rsc => 0xC0
  | .out _ _ _ m => if m = 0 then 0 else 0xC0

def BayCmd.parties (c : BayCmd) : List Nat :=
  match c.work with
  | .mma ms .. => ms.map (·.party)
  | _ => [c.party]

namespace State

/-- The commands of all bays of a core. -/
def bayCmds (s : State) (c : Nat) : List BayCmd := (List.range 3).flatMap (fun b => (s.bay c b).queue)

/-- An operation that has been issued and is not yet performed. -/
def outstanding (s : State) (id : Nat) : Bool :=
  s.ops.any (fun o => o.id == id) || s.copies.any (fun c => c.id == id) || s.remotes.any (fun r => r.id == id) ||
  s.unitQ.any (fun u => u.id == id) ||
  s.cores.any (fun c => (List.range 3).any (fun b => (c.2.bays.get {} b).queue.any (fun q => q.id == id)) ||
                        c.2.geodeQ.any (fun g => g.id == id))

/-- The operations of a wave that belong to a class of the mask, still outstanding. -/
def idsOf (s : State) (p : Nat) (cls : BitVec 8) : List Nat :=
  (s.ops.filter (fun o => o.party == p && o.classes &&& cls != 0)).map (·.id) ++
  (s.copies.filter (fun c => c.party == p && c.classes &&& cls != 0)).map (·.id) ++
  (s.remotes.filter (fun r => r.op.party == p && r.op.classes &&& cls != 0)).map (·.id) ++
  (s.unitQ.filter (fun u => u.source == .wave p && 0x20 &&& cls != 0)).map (·.id) ++
  ((s.bayCmds (coreOf p)).filter (fun c => c.parties.contains p && c.classes &&& cls != 0)).map (·.id) ++
  ((s.core (coreOf p)).geodeQ.filter (fun g => g.party == p && g.work.classes &&& cls != 0)).map (·.id)

/-- A FENCE holds later accesses of these classes (R177). -/
def fenced (s : State) (p : Nat) (cls : BitVec 8) : Bool :=
  (s.wave p).fences.any (fun f => f.succ &&& cls != 0 && f.ids.any s.outstanding)

/-- The wave's returning operations that have not completed (R79, R99). -/
def returningOut (s : State) (p : Nat) : Bool :=
  s.ops.any (fun o => o.party == p && o.dst != .none) || s.remotes.any (fun r => r.op.party == p && r.op.dst != .none)

/-- The rows that an item of an engine's command still reads or writes through a handle. -/
def itemTouches (i : CopyItem) (row : Nat) : Bool :=
  !i.done && ((match i.src with | some (.elem e) => e / 32 == row | _ => false) ||
    (match i.dst with | .row r => r == row | .elem e => e / 32 == row | _ => false))

/-- The rows that lanes 0 to D of a bound register take (R251). -/
def boundRows (x : Geode) : List Nat := (List.range (x.dcap / 32 + 1)).map (fun b => vrow x.party x.vreg b)

/-- An operation through a handle has a row still to touch. -/
def opTouches (o : Op) (row : Nat) : Bool := decide (o.handle < 16) && o.lanes.any (fun l => !l.done && l.loc / 32 == row)

/-- A row that an engine's command of the wave has still to touch through a handle. -/
def copyTouch (s : State) (p row : Nat) : Bool :=
  s.copies.any (fun c => c.party == p && decide (c.handle < 16) && c.items.any (fun i => itemTouches i row))

/-- A row that an earlier access of the wave through a handle has still to touch: program order holds for one element (R212, R218). -/
def handleTouch (s : State) (p row : Nat) : Bool := s.ops.any (fun o => o.party == p && opTouches o row) || s.copyTouch p row

/-- A row of a bound register that a queued POUT has still to read: the wave's own accesses to it and an MDRN's writes come after, an
access through a handle and a transfer need not (R218, ER → Rg and EW, ER → AW and CD). -/
def boundTouch (s : State) (p row : Nat) : Bool :=
  (s.core (coreOf p)).geodeQ.any (fun g => g.party == p &&
    (match g.work with | .out .. => (boundRows (s.geode (coreOf p) g.g)).contains row | _ => false))

/-- A row that an access of the wave to its own slot waits for: an earlier access through a handle, or a queued POUT, has still to touch
it (R212, R218). -/
def ownTouch (s : State) (p row : Nat) : Bool := s.handleTouch p row || s.boundTouch p row

/-- A row that an earlier access of the wave has still to read through a handle or from the ceiling: a command that writes the row is
issued after it (R211, R218, AR → CI and AR → EW). -/
def readTouch (s : State) (p row : Nat) : Bool :=
  s.ops.any (fun o => o.party == p && o.kind == .xget && (o.ceil || decide (o.handle < 16)) && o.lanes.any (fun l => !l.done && l.loc / 32 == row)) ||
  s.copies.any (fun c => c.party == p && decide (c.handle < 16) && c.kind == .gath && c.items.any (fun i => itemTouches i row))

/-- A write through a handle or to the ceiling that has still to reach a row: rows that are pending for it are not counted, since
no access passes them (R47). -/
def opWriting (o : Op) : Bool :=
  (decide (o.handle < 16) || o.ceil) && o.kind != .xget && o.lanes.any (fun l => !l.done && !o.rows.contains (l.loc / 32))

/-- Writes of the wave of type AW that no pending row guards are under way: its later stores, loads and writes of its own rows are
performed after them (R218, AW → Ld, St and Rg). -/
def writesOut (s : State) (p : Nat) : Bool :=
  s.ops.any (fun o => o.party == p && opWriting o) ||
  s.copies.any (fun c => c.party == p && decide (c.handle < 16) && c.kind == .scat)

/-- The adit a row lies in: exporter, entry number, entry (R51: at most one). -/
def aditAt? (s : State) (row : Nat) : Option (Nat × Nat × AditEntry) :=
  s.waves.findSome? (fun pw =>
    if coreOf pw.1 = row / rowsPerCore then
      pw.2.adits.findSome? (fun e =>
        if e.2.state ≠ .free ∧ e.2.first ≤ row % rowsPerCore ∧ row % rowsPerCore < e.2.first + e.2.rows
        then some (pw.1, e.1, e.2) else none)
    else none)

/-- An earlier access of the wave through a handle or to the ceiling, which an operation or a command through a handle that was issued
as number `id` comes after (R218, AR and AW → AR and AW). -/
def accessBefore (s : State) (p id : Nat) : Bool :=
  s.ops.any (fun o => o.party == p && decide (o.id < id) && (decide (o.handle < 16) || o.ceil) && o.lanes.any (fun l => !l.done))

/-- An access of an earlier phase that is still to be performed: it was checked in a phase that has since advanced, and no access of
the new phase has come (R55, R217). -/
def phaseHeld (s : State) (row : Nat) : Bool :=
  let m := s.info row
  let touched : CopyItem → Bool := fun i => match i.src, i.dst with
    | some (.elem e), _ => e / 32 == row
    | _, .elem e => e / 32 == row
    | _, _ => false
  m.exp && (match s.aditAt? row with | some (_, _, e) => m.stp != e.phase | none => false) &&
    (s.ops.any (fun o => opTouches o row) ||
     s.copies.any (fun c => decide (c.handle < 16) && c.items.any (fun i => itemTouches i row) && c.items.any (fun i => i.done && touched i)))

/-- A row that no access may touch yet: it waits for a write, or an access of an earlier phase has still to be performed (R47, R60,
R217). -/
def rowHeld (s : State) (row : Nat) : Bool := s.rowPending row || s.phaseHeld row

/-- A row that an access of the wave must wait for (R47, R212). -/
def rowBlocked (s : State) (p row : Nat) : Bool := s.rowHeld row || s.ownTouch p row

def longOut (s : State) (p : Nat) : Bool :=
  s.ops.any (fun o => o.party == p) || s.remotes.any (fun r => r.op.party == p)

def nativeOf (s : State) (p : Nat) : Bool := (s.launch (s.wave p).lid).native

end State

/-! ### Races (R55, R56) -/

/-- One race-checked access to a row of a live adit in phase `φ`: the row's new metadata, or none for a race. -/
def raceRule (m : RowMeta) (φ : BitVec 4) (party : Nat) (write : Bool) : Option RowMeta :=
  let me : BitVec 13 := BitVec.ofNat 13 party
  if m.stp ≠ φ then some { m with stp := φ, pty := me, pw := write, fr := false }
  else if write then
    if m.pty ≠ me then none else if m.fr then none else some { m with pw := true }
  else if m.pty ≠ me then (if m.pw then none else some { m with fr := true })
  else some m

namespace State

/-- The run of the block of a wave. -/
def runOf (s : State) (p : Nat) : Run := (s.block (s.wave p).blk).run

/-- An audit replay's accesses are not party accesses (R45). -/
def checksRaces (s : State) (p : Nat) : Bool := s.runOf p == .original

/-- The metadata of a row after one access of a wave, or none where it races. -/
def raceRow (s : State) (p row : Nat) (write : Bool) : Option RowMeta :=
  let m := s.info row
  if m.exp && s.checksRaces p then
    match s.aditAt? row with
    | some (_, _, e) => raceRule m e.phase p write
    | none => some m
  else some m

/-- The rows of a list that race. -/
def racing (s : State) (p : Nat) (rows : List (Nat × Bool)) : List Nat :=
  (rows.filter (fun r => (s.raceRow p r.1 r.2).isNone)).map (·.1)

/-- Takes the accesses into the metadata. -/
def markRows (s : State) (p : Nat) (rows : List (Nat × Bool)) : State :=
  rows.foldl (fun s r => match s.raceRow p r.1 r.2 with | some m => s.setMeta r.1 m | none => s) s

end State

/-! ### Audit: log and digest (R293 to R298) -/

/-- One bit of the CRC-64 of ECMA-182, unreflected (R293). -/
def crcBit (r : DWord) : DWord := if r.getLsbD 63 then (r <<< 1) ^^^ 0x42F0E1EBA9EA3693 else r <<< 1
def crcByte (r : DWord) (b : Byte) : DWord :=
  crcBit (crcBit (crcBit (crcBit (crcBit (crcBit (crcBit (crcBit (r ^^^ (b.setWidth 64 <<< 56)))))))))
def crcBytes (r : DWord) (bs : List Byte) : DWord := bs.foldl crcByte r
/-- One 16-byte record of the output digest (R295). -/
def crcRecord (r : DWord) (a v : DWord) : DWord := crcBytes r (leBytes 8 a.toNat ++ leBytes 8 v.toNat)

/-- The bytes of a block of the control window (R323). -/
def State.cw (s : State) (off n : Nat) : Nat := leNat ((List.range n).map (fun i => s.window.get 0 (off + i)))

/-- Layout of the block at 0x2_1000 (assumption 20): log region, record ring, backlog limit, marked launch. -/
def State.logBase (s : State) : Nat := s.cw 0x21000 8
def State.logSize (s : State) : Nat := s.cw 0x21008 8
def State.ringBase (s : State) : Nat := s.cw 0x21010 8
def State.ringSize (s : State) : Nat := s.cw 0x21018 8
def State.backlogLimit (s : State) : Nat := s.cw 0x21020 8
/-- Sixteen bytes of marks: four launch numbers plus one; 0 marks none. -/
def State.marked (s : State) (lid : Nat) : Bool := (List.range 4).any (fun i => s.cw (0x21028 + 4 * i) 4 == lid + 1)

/-- Bytes that open and kept logs take of the region. -/
def State.logUsed (s : State) : Nat := s.jobs.foldl (fun n j => if j.resolved && !j.kept then n else n + j.bytes) 0

/-- BLK (R121): fields B to 5 of the identifier shifted to bit 0, or a task's own index (R30), from a block's index. -/
def blkOf (h : Header) (task : Bool) (index : DWord) : DWord :=
  if task then index
  else
    let put : Nat × Nat × Nat → Nat → Nat × Nat × Nat := fun a i =>
      (a.1 / (h.ext.getD i 1), a.2.1 + a.1 % (h.ext.getD i 1) * 2 ^ a.2.2, a.2.2 + h.widths.getD i 0)
    BitVec.ofNat 64 (((List.range (6 - h.b)).map (· + h.b)).foldl put (index.toNat, 0, 0)).2.1

/-- The 64-byte audit record of a job (R300), into the ring if it has room for one. -/
def State.auditRecord (s : State) (j : Job) (verd abr : Nat) : State :=
  if s.ringSize < 64 then s
  else
    let div := if j.repEarly then j.divRep.toNat else if j.thrEarly then j.divThr.toNat else 0xFFFFFFFF
    let v := s.clock.toNat + 2 ^ 64 * div + 2 ^ 96 * min j.bnanr 0xFFFFFFFF + 2 ^ 128 * min j.bsatr 0xFFFFFFFF +
      2 ^ 160 * j.flgr.toNat + 2 ^ 176 * abr + 2 ^ 192 * verd + 2 ^ 200 * j.cthr + 2 ^ 208 * j.crep + 2 ^ 216 * j.corg +
      2 ^ 224 * (j.lid % 2 ^ 32) + 2 ^ 256 * (blkOf j.hdr j.task j.index).toNat + 2 ^ 320 * j.dthr.toNat + 2 ^ 384 * j.drep.toNat +
      2 ^ 448 * j.dorig.toNat
    let n := s.ringSize / 64
    { s.store (s.ringBase + 64 * (s.ringPos % n)) (leBytes 64 v) with ringPos := s.ringPos + 1 }

/-- An audit is abandoned: its record, its counter, and no more logging (R301). That bit 1 of ADRD selector 0 then reads 0 whatever the
reason, 4, 5 and 6 among them, is the model's choice (assumption 125). -/
def State.abandon (s : State) (id reason : Nat) : State :=
  match s.job? id with
  | none => s
  | some j =>
    if j.resolved then s
    else
      let s := s.auditRecord j 4 reason
      let s := { s with abr := s.abr.set 0 reason (s.abr.get 0 reason + 1) }
      let s := s.modJob id (fun j => { j with resolved := true, opened := false, log := if j.kept then j.log else [] })
      { s with blocks := s.blocks.map (fun b => if b.job = id ∧ b.run = .original then { b with logging := false } else b) }

/-- Bytes that an entry takes in the log (R294). -/
def entryBytes (data : List Word) : Nat := 16 + (4 * data.length + 15) / 16 * 16

/-- An entry as it lies in the log region: the 16-byte header of R294, then the data, padded with zeros to 16 bytes. -/
def entryImage (e : LogEntry) : List Byte :=
  let n := 4 * e.data.length
  leBytes 16 (e.seq % 2 ^ 32 + 2 ^ 32 * (n % 2 ^ 16) + 2 ^ 52 * (e.wave % 16) + 2 ^ 56 * (e.kind % 256) + 2 ^ 64 * e.src.toNat) ++
  e.data.flatMap (fun x => leBytes 4 x.toNat) ++ List.replicate ((n + 15) / 16 * 16 - n) 0

/-- The ranges of the region that the entries of open and kept logs take: first offset, and the offset past the last. -/
def State.logTaken (s : State) : List (Nat × Nat) :=
  s.jobs.flatMap (fun j => if j.resolved && !j.kept then [] else
    j.log.filterMap (fun e => e.place.map (fun a => (a, a + entryBytes e.data))))

/-- Where the next entry of a log goes in the region: at the lowest free place after the log's entries, else at the lowest free place
(R294, assumption 30). -/
def State.logPlace (s : State) (job n : Nat) : Option Nat :=
  let taken := s.logTaken
  let free : List Nat := ((0 :: taken.map (·.2)).filter (fun a => decide (a + n ≤ s.logSize) &&
    taken.all (fun x => decide (a + n ≤ x.1) || decide (x.2 ≤ a)))).mergeSort (fun a b => decide (a ≤ b))
  let last : Nat := (((s.job? job).map (·.log)).getD []).foldl (fun m e => match e.place with | some a => max m (a + entryBytes e.data) | none => m) 0
  (free.find? (fun a => decide (last ≤ a))).or free.head?

/-- The logger writes the entries of a wave in their program order: one whose value is not yet known holds back those after it
(R294). -/
def State.flushLog (s : State) (job wave : Nat) : Nat → State
  | 0 => s
  | n + 1 =>
    match (s.job? job).map (·.log) with
    | none => s
    | some log =>
      let next := (log.filter (fun e => e.wave == wave && e.place.isSome)).length
      match log.find? (fun e => e.wave == wave && e.seq == next && e.place.isNone) with
      | none => s
      | some e =>
        match s.logPlace job (entryBytes e.data) with
        | none => s.abandon job 2
        | some a =>
          let s := s.store (s.logBase + a) (entryImage e)
          (s.modJob job (fun j => { j with log := j.log.map (fun x => if x = e then { x with place := some a } else x) })).flushLog job wave n

/-- Appends an entry to the log of a block: into its job, and through the logger's 64 KiB buffer into the log region; where the region is
full or the buffer overruns the audit is abandoned (R294, R301). An entry that is larger than the buffer overruns it whatever room the
region has: the model's order of the two reasons (assumption 134). -/
def State.putEntry (s : State) (job : Nat) (e : LogEntry) (go : State → State) : State :=
  let n := entryBytes e.data
  if 65536 < n then s.abandon job 3
  else if s.logSize < s.logUsed + n then s.abandon job 2
  else if Config.loggerOverrun s.tick then s.abandon job 3
  else
    let s := s.modJob job (fun j => { j with log := j.log ++ [e], bytes := j.bytes + n })
    go (s.flushLog job e.wave (((s.job? job).map (·.log.length)).getD 0))

/-- Appends an entry to the log of the wave's block, if it is logged (R294, R301). -/
def State.logIn (s : State) (p kind : Nat) (src : DWord) (data : List Word) : State :=
  let w := s.wave p
  let b := s.block w.blk
  if b.run = .original ∧ b.logging then
    s.putEntry b.job { kind := kind, wave := w.num, seq := w.seq, src := src, data := data } fun s =>
      s.modWave p (fun w => { w with seq := w.seq + 1 })
  else s

/-- Folds records into the wave's digest in an audited block (R295). -/
def State.foldOut (s : State) (p : Nat) (recs : List (DWord × DWord)) : State :=
  if (s.block (s.wave p).blk).logging || s.runOf p != .original then
    s.modWave p (fun w => { w with digest := recs.foldl (fun r a => crcRecord r a.1 a.2) w.digest })
  else s

/-- The job that a replaying block belongs to. -/
def jobOf : Run → Option Nat
  | .original => none
  | .replay j => some j
  | .third j => some j
  | .capture j => some j

/-- What a run still counts after its block has ended reaches the record of its audit: the values of a replay are the record's
(R99, R300); a replay that is taken off its core has none. -/
def State.lateCounts (s : State) (b : Block) (f : Job → Job) : State :=
  match b.run with
  | .replay j => s.modJob j (fun x => if x.repStarted then f x else x)
  | .capture j => s.modJob j f
  | _ => s

/-- The waves of a block that still run, by number. -/
def State.livesOf (s : State) (b : Block) : List (Nat × Nat) :=
  b.parties.filter (fun e => (s.wave e.2).blk == b.id && (s.wave e.2).status == .running)

/-- The waves of a block that runs for an audit stop where they are, and the block is over. -/
def State.stopBlock (s : State) (b : Block) : State :=
  let s := (s.livesOf b).foldl (fun s e => s.modWave e.2 (fun v => { v with status := .ended, wait := .none, trap := none })) s
  s.modBlock b.id (fun b => { b with ended := true, rends := [], arrivals := [], landed := none })

/-- A replay or third run ends early (R298): its waves stop, and the job keeps the next SEQ and the digest so far. -/
def State.endEarly (s : State) (p : Nat) : State :=
  let w := s.wave p
  let b := s.block w.blk
  let dig := (s.livesOf b).foldl (fun d e => d ^^^ ((s.wave e.2).digest).rotateLeft e.1) b.digest
  let flg := (s.livesOf b).foldl (fun f e => f ||| (s.wave e.2).flg) b.rflags
  let f : Job → Job := fun j =>
    match b.run with
    | .third _ => { j with thrDone := true, thrEarly := true, divThr := BitVec.ofNat 32 w.seq, dthr := dig }
    | .original => j
    | _ => { j with repDone := true, repEarly := true, divRep := BitVec.ofNat 32 w.seq, drep := dig, flgr := flg, bsatr := b.rsat, bnanr := b.rnan }
  let s := match jobOf b.run with | some id => s.modJob id f | none => s
  (s.stopBlock b).modBlock b.id (fun b => { b with rflags := flg })

/-- A core has no room for what a run claims as it goes: the run is taken off it and has left nothing in its job, which waits for a core
anew until its second is over (R58, R297, R301); a replay on the core that the host named is abandoned (assumption 90). -/
def State.endUnplaced (s : State) (p : Nat) : State :=
  let b := s.block (s.wave p).blk
  let s := match b.run with
    | .original => s
    | .replay id => s.modJob id (fun j => { j with repStarted := false, crep := 0xFF })
    | .third id => s.modJob id (fun j => { j with thrStarted := false, cthr := 0xFF })
    | .capture id => s.abandon id 7
  s.stopBlock b

/-- What a replay's input form is served: the next entry of its wave, if kind, source and keys agree (R298). -/
def State.served? (s : State) (p kind : Nat) (src : DWord) (agree : List Word → Bool) : Option (List Word) :=
  let w := s.wave p
  match (jobOf (s.runOf p)).bind s.job? with
  | none => none
  | some j =>
    match j.log.find? (fun e => e.wave == w.num && e.seq == w.seq) with
    | some e => if e.kind = kind ∧ e.src = src ∧ agree e.data then some e.data else none
    | none => none

/-! ### The halt area (R283, R284) -/

/-- What a replay's trap is compared by: its cause, and its address where that is its own (R100, R298). -/
def TrapReq.key (t : TrapReq) : Nat × Option DWord := (t.cause, if t.late then none else some t.addr)

namespace State

/-- A stop record as the number its 64 bytes hold (R284). -/
def stopRecord (clk pc addr : DWord) (lid who cause detail kind : Nat) (lanes : LaneMask) (md flg aux : Nat) : Nat :=
  aux % 2 ^ 64 + 2 ^ 64 * (flg % 2 ^ 16) + 2 ^ 80 * (md % 2 ^ 16) + 2 ^ 96 * lanes.toNat + 2 ^ 208 * (kind % 2 ^ 16) +
  2 ^ 224 * (detail % 2 ^ 16) + 2 ^ 240 * (cause % 2 ^ 16) + 2 ^ 256 * (who % 2 ^ 32) + 2 ^ 288 * (lid % 2 ^ 32) +
  2 ^ 320 * addr.toNat + 2 ^ 384 * pc.toNat + 2 ^ 448 * clk.toNat

/-- Position of a core in a launch's rectangle, row-major (R283). -/
def posIn (l : Launch) (c : Nat) : Nat := (c / 8 - l.y0) * l.hdr.rw + (c % 8 - l.x0)
/-- The cores of a rectangle in row-major order. -/
def rectCores (x0 y0 rw rh : Nat) : List Nat :=
  (List.range rh).flatMap (fun j => (List.range rw).map (fun i => 8 * (y0 + j) + x0 + i))
def coresOf (l : Launch) : List Nat := rectCores l.x0 l.y0 l.hdr.rw l.hdr.rh

/-- Writes stop record `n` of a launch's halt area (R283). -/
def writeStop (s : State) (l : Launch) (n rec : Nat) : State := s.store (l.hdr.halt + 64 * n) (leBytes 64 rec)

/-- The record number of a slot (R283). -/
def recNo (l : Launch) (c slot : Nat) : Nat := 1 + 135 * posIn l c + slot

/-! ### Context halts (R281, R282) -/

/-- Raises the halt line for a launch; the first cause is the primary, of causes in one cycle that of the lowest core and slot. Audits
of its live blocks are abandoned. -/
def raiseHalt (s : State) (lid core party cause detail : Nat) (pc addr : DWord) (lanes : LaneMask) : State :=
  let l := s.launch lid
  match l.halt with
  | some h =>
    if l.prog = .halting ∧ h.clk = s.clock ∧ (core < h.core ∨ (core = h.core ∧ slotOf party < slotOf h.party)) then
      s.modLaunch lid (fun l => { l with halt := some { h with
        cause := cause, detail := detail, pc := pc, addr := addr, lanes := lanes, party := party, core := core } })
    else s
  | none =>
    let h : Halt := { cause := cause, detail := detail, pc := pc, addr := addr, lanes := lanes, party := party, core := core,
                      clk := s.clock, since := s.clock }
    let s := s.modLaunch lid (fun l => { l with prog := .halting, preempt := none, halt := some h })
    s.blocks.foldl (fun s b => if b.lid = lid ∧ b.logging ∧ b.run = .original ∧ !b.ended then s.abandon b.job 4 else s) s

/-- A wave raises a context halt at its present word: it has no effect and issues nothing more (R281). -/
def halt (s : State) (p cause detail : Nat) (lanes : LaneMask := 0) (addr : DWord := 0) : State :=
  if s.runOf p != .original then s.endEarly p
  else
    let w := s.wave p
    let s := s.setWave p { w with
      status := .halted, active := false, reasons := 0, stop := some (cause, detail, addr, lanes), stopPc := none, stopClk := s.clock }
    s.raiseHalt w.lid (coreOf p) p cause detail (resumeWord w.pc w.k) addr lanes

/-- A race of a bay's or the geode unit's access halts the context at the command that made it: the record of its wave, while
it runs, and the summary give the command's word and the row (R333). -/
def engineHalt (s : State) (lid core party detail row : Nat) (word : DWord) : State :=
  let addr := BitVec.ofNat 64 (row % rowsPerCore)
  let s := if (s.wave party).lid = lid ∧ (s.wave party).status = .running then
      s.modWave party (fun w => { w with stop := some (0x27, detail, addr, 0), stopPc := some word, stopClk := s.clock }) else s
  s.raiseHalt lid core party 0x27 detail word addr 0

/-! ### Taking an exception (R115, R116) and returning from it is in Control -/

/-- The handler's address; 0 means none (R115). -/
def trapVector (s : State) (p : Nat) : DWord := (((s.imageOf? (s.wave p).lid).map (·.trapVector)).getD 0)

/-- The rows that trap entry writes: v254 and v255. -/
def trapRows (p : Nat) : List (Nat × Bool) :=
  ([254, 255].flatMap (fun v => (List.range 3).map (fun b => vrow p v b))).map (fun r => (r, true))

/-- Trap entry proper (R116). -/
def enterTrap (s : State) (p : Nat) (t : TrapReq) : State :=
  let w := s.wave p
  let r := resumeWord t.addr t.k
  let s := s.markRows p (trapRows p)
  let s := s.vput p 255 allLanes (fun l => BitVec.ofNat 32 ((w.cnt.get 0 l).toNat + (if w.cont.getLsbD l then 64 else 0)))
  let s := s.vput p 254 allLanes (fun l => BitVec.ofNat 32 ((if t.lanes.getLsbD l then 1 else 0) + 256 * (t.flags.get 0 l).toNat))
  let w := (w.putPair 56 r).sput 58 (BitVec.ofNat 32 (t.cause * 65536 + t.detail))
  let w := w.sput 59 (w.md.setWidth 32)
  s.setWave p { w.jump (s.trapVector p) with
    cnt := (List.range 96).foldl (fun m l => m.set 0 l (if t.lanes.getLsbD l then 0 else 1)) [], cont := 0,
    md := 2, hnd := true, trap := none, opens := [] }

/-- Entry can be made: no returning operation is outstanding, v254 and v255 are free and no FENCE holds the wave's register
writes (R79, R132, R177, R212). -/
def trapReady (s : State) (p : Nat) : Bool :=
  !s.returningOut p && !s.fenced p 0x08 && !s.writesOut p && (trapRows p).all (fun r => !s.rowBlocked p r.1)

/-- Enters the handler, or holds the entry until it can be made, as a pending row or a FENCE holds a write; a race on v254 or v255
escalates (R116). -/
def tryTrap (s : State) (p : Nat) (t : TrapReq) : State :=
  if !s.trapReady p then
    (s.stall p (if s.fenced p 0x08 || s.writesOut p then 1 else 3)).modWave p (fun w => { w with trap := some t })
  else if (s.racing p (trapRows p)).isEmpty then s.enterTrap p t
  else s.halt p 0x0008 0x00FF t.lanes

/-- An in-wave trap: the handler, or a context halt without one or inside it (R115). In a logged block the trap is noted, and a
replay that takes one which the original run did not ends (R298). -/
def trap (s : State) (p : Nat) (t : TrapReq) : State :=
  let w := s.wave p
  let b := s.block w.blk
  if s.trapVector p = 0 then s.halt p t.cause t.detail t.lanes
  else if w.hnd then s.halt p 0x0023 t.cause t.lanes
  else
    match b.run with
    | .original =>
      let s := if b.logging then s.modJob b.job (fun j => { j with traps := j.traps ++ [(w.num, t.key)] }) else s
      s.tryTrap p t
    | _ =>
      let raised := (((jobOf b.run).bind s.job?).map (fun j => (j.traps.filter (fun x => x.1 == w.num)).map (·.2))).getD []
      if w.trapped.count t.key < raised.count t.key then (s.modWave p (fun w => { w with trapped := t.key :: w.trapped })).tryTrap p t
      else s.endEarly p

/-- A trap whose resume word is the present one (causes 0x0003 and 0x0005 to 0x0008). -/
def trapHere (s : State) (p cause detail : Nat) (lanes : LaneMask) : State :=
  s.trap p { cause := cause, detail := detail, lanes := lanes, addr := (s.wave p).pc, k := (s.wave p).k }

end State

/-- The condition an enabled set names first: invalid, divide, overflow, underflow, inexact (R100); bits of flg. -/
def topCond (c : BitVec 6) : Nat :=
  if c.getLsbD 4 then 0x10 else if c.getLsbD 3 then 8 else if c.getLsbD 2 then 4 else if c.getLsbD 1 then 2 else 1

/-- The conditions that md enables, as bits of flg (R86). -/
def Wave.enables (w : Wave) : BitVec 6 :=
  BitVec.ofNat 6 ((if w.md.getLsbD 12 then 16 else 0) + (if w.md.getLsbD 11 then 8 else 0) + (if w.md.getLsbD 10 then 4 else 0) +
    (if w.md.getLsbD 9 then 2 else 0) + (if w.md.getLsbD 8 then 1 else 0))

/-- The lanes whose conditions meet an enabled one. -/
def trapping (flags : SMap (BitVec 6)) (en : BitVec 6) : LaneMask := maskOf (fun l => flags.get 0 l &&& en != 0)

def orFlags (flags : SMap (BitVec 6)) : BitVec 6 := flags.foldl (fun a f => a ||| f.2) 0

/-! ### Guards -/

/-- An instruction is given to the wave at the turn, which must be running. -/
def onWave (s : State) (f : Nat → State) : Host.Outcome State Fault Refusal :=
  if (s.wave s.cur).status = .running then .next (f s.cur) else .fault .noWave

/-- A step that has no word takes place under its condition. -/
def when (mnemonic : String) (c : Bool) (s' : State) : Host.Outcome State Fault Refusal :=
  if c then .next s' else .refused (.notEnabled mnemonic)

end Sys2Proof.Machine
end

