-- ==== Sys2Proof/Machine/Unit.lean ====
section
/-! DEFINITION. The watermark unit: sources, watermarks, windows, queues, notices, the output source (R229 to R240, R264). -/

namespace Sys2Proof.Machine

/-! ### Sources and watermarks (R232) -/

def topMark : DWord := BitVec.allOnes 64

def maxMark (a b : DWord) : DWord := if a.toNat < b.toNat then b else a
def minMark (a b : DWord) : DWord := if b.toNat < a.toNat then b else a

/-- W after an entry. -/
def Stream.refresh (t : Stream) : Stream :=
  let ws := t.srcs.filterMap (fun x => if x.2.idle then none else some x.2.ws)
  let w := match ws with
    | [] => t.w
    | x :: r => maxMark t.w (r.foldl minMark x)
  { t with w := if !t.srcs.isEmpty && t.srcs.all (fun x => x.2.ws == topMark) then topMark else w }

/-- A stream has ended: every source is closed. -/
def Stream.over (t : Stream) : Bool := !t.srcs.isEmpty && t.srcs.all (fun x => x.2.ws == topMark)

def Stream.setSrc (t : Stream) (i : Nat) (x : Source) : Stream := { t with srcs := t.srcs.set {} i x }

/-- The idle timer of a source begins anew. -/
def Stream.mark (t : Stream) (i : Nat) (clk : DWord) : Stream :=
  let o : Source := t.srcs.get {} i
  t.setSrc i { o with last := clk }

/-- An advance: the stream, and whether ws changed or the source rejoined. -/
def Stream.advance (t : Stream) (i : Nat) (x : DWord) : Stream × Bool :=
  let o : Source := t.srcs.get {} i
  let ws := if o.idle then maxMark (maxMark o.ws x) t.w else maxMark o.ws x
  (t.setSrc i { o with ws := ws, idle := false }, o.idle || ws != o.ws)

/-- A record's source rejoins if it was idle. -/
def Stream.rejoin (t : Stream) (i : Nat) : Stream :=
  let o : Source := t.srcs.get {} i
  if o.idle then t.setSrc i { o with ws := maxMark o.ws t.w, idle := false } else t

/-! ### Windows and queues (R233 to R238) -/

/-- E_j (R234). -/
def BindDesc.windowEnd (d : BindDesc) (j : Nat) : Nat := d.org + j * d.slide + (d.q + 1) * d.slide

/-- The windows of an event time, ascending (R234). -/
def BindDesc.windowsAt (d : BindDesc) (t : Nat) : List Nat :=
  if t < d.org ∨ d.slide = 0 then []
  else
    let f := (t - d.org) / d.slide
    ((List.range (d.q + 1)).filterMap (fun i => if f + i < d.q then none else some (f + i - d.q))).filter (fun j => decide (j < 2 ^ 32))

def BindDesc.cap (d : BindDesc) : Nat := 2 ^ (d.qcap + 8)

/-- The path of a window for a record: dropped, on-time or late (R236). -/
inductive Path where
  | dropped | onTime | late
deriving DecidableEq, Repr

def Binding.path (b : Binding) (w : Nat) (j : Nat) : Path :=
  let st := b.windows.get .none j
  if b.desc.windowEnd j + b.desc.late ≤ w ∨ st = .released then .dropped
  else if st = .none ∨ st = .opened then .onTime else .late

/-- One queue entry for consecutive windows, or none (R236). -/
def entryFor (words : List Word) (clk : DWord) (id : Nat) (js : List Nat) : List QEntry :=
  match js with
  | [] => []
  | j0 :: _ => [{ words := words, j0 := j0, mask := js.foldl (fun m j => m ||| (1 : BitVec 4) <<< (j - j0)) 0, since := clk, id := id }]

/-- What a record does to a binding: the binding, the new slots, and whether a queue it would join is full. -/
def Binding.offer (b : Binding) (w : Nat) (clk : DWord) (id : Nat) (words : List Word) : Binding × Nat × Bool :=
  let t := (words.getD 1 0 ++ words.getD 0 0).toNat
  let js := b.desc.windowsAt t
  let on := js.filter (fun j => b.path w j == .onTime)
  let late := js.filter (fun j => b.path w j == .late)
  let drop := (js.filter (fun j => b.path w j == .dropped)).length + (if t < b.desc.org then 1 else 0)
  let fresh := on.filter (fun j => b.windows.get .none j == .none)
  let qs := entryFor words clk id on
  ({ b with onTime := b.onTime ++ qs, late := b.late ++ entryFor words clk id late, disc := b.disc + drop,
            entered := b.entered + qs.length, lateIn := b.lateIn + (if late.isEmpty then 0 else 1),
            windows := fresh.foldl (fun m j => m.set .none j .opened) b.windows },
   fresh.length,
   (!on.isEmpty && decide (b.desc.cap ≤ b.onTime.length)) || (!late.isEmpty && decide (b.desc.cap ≤ b.late.length)))

/-- Windows that the watermark reaches: open ones fire in ascending order, those past their lateness free their slots (R235). -/
def Binding.settle (b : Binding) (w : Nat) : Binding :=
  if b.closed then b
  else
    let fired := (b.windows.filter (fun x => decide (x.2 = .opened) && decide (b.desc.windowEnd x.1 ≤ w))).map (·.1)
    let gone : Window → Bool := fun x => match x with | .published _ => true | .released => true | _ => false
    { b with
      notices := b.notices ++ fired.map (fun j => { j := j, after := b.entered }),
      windows := b.windows.mapVal .none (fun j x =>
        if fired.contains j then .fired
        else if gone x && decide (b.desc.windowEnd j + b.desc.late ≤ w) then .none else x) }

namespace State

/-- A binding takes part: its serving block has started, its context has not halted, its launch runs (R263, R264). -/
def bindOn (l : Launch) (b : Binding) : Bool :=
  !b.closed && l.started.get false b.desc.sblk && !l.skipped.get false b.desc.sblk && (l.prog == .resident || l.prog == .saved)

/-- The bindings of a stream. -/
def bindingsOf (s : State) (stream : Nat) : List (Nat × Nat) :=
  s.launches.flatMap (fun l => (l.binds.filter (fun b => b.2.desc.strm == stream && bindOn l b.2)).map (fun b => (l.lid, b.1)))

def binding (s : State) (lid bnd : Nat) : Binding := (s.launch lid).binds.get {} bnd
def setBinding (s : State) (lid bnd : Nat) (b : Binding) : State :=
  s.modLaunch lid (fun l => { l with binds := l.binds.set {} bnd b })

/-- The idle timeouts in force on a stream: the table's, and that of its bindings (R232, R233, assumption 97). -/
def idleTimeouts (s : State) (stream : Nat) : List Nat :=
  ((s.stream stream).timeout :: (s.bindingsOf stream).map (fun x => (s.binding x.1 x.2).desc.idle)).filter (fun n => n != 0)

/-- Slots that windows hold in the unit (R229). -/
def slotsUsed (s : State) : Nat := (s.launches.map (fun l => (l.binds.map (fun b => b.2.windows.length)).sum)).sum

/-- The ring of a binding's queue in the stream area: on-time first, late second (R265). -/
def ringOf (l : Launch) (bnd : Nat) (late : Bool) : Nat :=
  let before := ((l.binds.filter (fun b => decide (b.1 < bnd))).map (fun b => 2 * 64 * b.2.desc.cap)).sum
  let d := (l.binds.get {} bnd).desc
  l.hdr.strm + 128 + before + (if late then 64 * d.cap else 0)

/-- A record that joins a queue is put into its ring, at the place of the number that have joined it before: the model's choice
(assumption 111). -/
def putRing (s : State) (lid bnd : Nat) (old new : Binding) (words : List Word) : State :=
  let l := s.launch lid
  let bs := words.flatMap (fun w => leBytes 4 w.toNat)
  let s := if new.entered ≠ old.entered then s.store (ringOf l bnd false + 64 * (old.entered % old.desc.cap)) bs else s
  if new.lateIn ≠ old.lateIn then s.store (ringOf l bnd true + 64 * (old.lateIn % old.desc.cap)) bs else s

/-- A record offered to every binding of a stream: the new state, or the reason for which it is refused whole (R236, R238); a full queue is
named before a full window store: the model's choice (assumption 106). -/
def offer (s : State) (stream : Nat) (words : List Word) : Except Nat State :=
  let w := (s.stream stream).w.toNat
  let bs := (s.bindingsOf stream).map (fun x => (x, s.binding x.1 x.2, (s.binding x.1 x.2).offer w s.clock s.nextId words))
  if bs.any (fun x => x.2.2.2.2) then .error 1
  else if 4096 < s.slotsUsed + (bs.map (fun x => x.2.2.2.1)).sum then .error 2
  else
    let s : State := { s with nextId := s.nextId + 1 }
    .ok (bs.foldl (fun s x => (s.setBinding x.1.1 x.1.2 x.2.2.1).putRing x.1.1 x.1.2 x.2.1 x.2.2.1 words) s)

/-- The records of one entry: all of them, or none. -/
def offerAll (s : State) (stream : Nat) : List (List Word) → Except Nat State
  | [] => .ok s
  | r :: t => match s.offer stream r with
    | .ok s => s.offerAll stream t
    | .error e => .error e

/-! ### After an entry (R232, R235, R239) -/

/-- Every window is set against its watermark. -/
def settle (s : State) : State :=
  { s with launches := s.launches.map (fun l => { l with
      binds := l.binds.mapVal {} (fun _ b => if bindOn l b then b.settle (s.stream b.desc.strm).w.toNat else b) }) }

/-- The terms of an output watermark: for each binding W and the ends of its fired and taken windows. -/
def outTerms (s : State) (l : Launch) : List (DWord × List Nat) :=
  l.binds.map (fun b => ((s.stream b.2.desc.strm).w,
    (b.2.windows.filter (fun x => x.2 == .fired || x.2 == .taken)).map (fun x => b.2.desc.windowEnd x.1)))

/-- min over the bindings of P_b. -/
def outMark (ts : List (DWord × List Nat)) : Option Nat :=
  match ts.map (fun x => x.2.foldl min x.1.toNat) with
  | [] => none
  | x :: r => some (r.foldl min x)

/-- The advance of a launch's output source. -/
def outAdvance (s : State) (lid : Nat) : State :=
  let l := s.launch lid
  match outMark (s.outTerms l) with
  | none => s
  | some m =>
    let wo := maxMark l.wo (BitVec.ofNat 64 m)
    (s.modLaunch lid (fun l => { l with wo := wo })).modStream l.hdr.ostr (fun t =>
      ((t.advance l.hdr.osrc wo).1.refresh).mark l.hdr.osrc s.clock)

/-- The output sources whose terms changed since `old` advance, and so on down the streams. That the output of a launch which is not
resident yet does not is the model's choice (assumption 113). -/
def advanceOutputs : Nat → State → State → State
  | 0, _, s => s
  | n + 1, old, s =>
    let ls := s.launches.filter (fun l => l.hdr.out && !l.binds.isEmpty && (l.prog == .resident || l.prog == .saved) &&
      old.outTerms (old.launch l.lid) != s.outTerms l)
    if ls.isEmpty then s else advanceOutputs n s (ls.foldl (fun s l => s.outAdvance l.lid) s).settle

/-- What follows every entry of a source (R232). -/
def afterEntry (s old : State) (stream src : Nat) : State :=
  let s := s.modStream stream (fun t => t.refresh.mark src s.clock)
  advanceOutputs 64 old s.settle

/-- The unit takes a record, or refuses it. -/
def enterRecord (s : State) (stream src : Nat) (words : List Word) : Except Nat State :=
  match s.offer stream words with
  | .error e => .error e
  | .ok s' => .ok ((s'.modStream stream (fun t => t.rejoin src)).afterEntry s stream src)

/-- The unit takes an advance: whether it changed anything, and the state. -/
def enterAdvance (s : State) (stream src : Nat) (x : DWord) : Bool × State :=
  let r := (s.stream stream).advance src x
  (r.2, (s.modStream stream (fun _ => r.1)).afterEntry s stream src)

/-- The unit takes an idle declaration or timeout: whether the source was idle already, and the state. -/
def enterIdle (s : State) (stream src : Nat) : Bool × State :=
  let o : Source := (s.stream stream).srcs.get {} src
  (o.idle, (s.modStream stream (fun t => t.setSrc src { o with idle := true })).afterEntry s stream src)

/-- A record as it is published: TIME is the window's end, bits 31:24 of word 3 the revision (R239). -/
def stamped (words : List Word) (e rev : Nat) : List Word :=
  words.zipIdx.map (fun x =>
    if x.2 = 0 then BitVec.ofNat 32 e else if x.2 = 1 then BitVec.ofNat 32 (e / 2 ^ 32)
    else if x.2 = 3 then (x.1 &&& 0x00FFFFFF) ||| BitVec.ofNat 32 (rev % 256 * 2 ^ 24) else x.1)

/-- The status of a publication before its records are offered, and its revision (R247). -/
def publishCheck (b : Binding) (j : Nat) (amend : Bool) : Nat × Nat :=
  match b.windows.get .none j with
  | .none => (3, 0)
  | .released => (3, 0)
  | .taken => if amend then (1, 0) else (0, 0)
  | .published r => if amend then (if r = 255 then (2, 0) else (0, r + 1)) else (1, 0)
  | _ => (1, 0)

/-- The unit takes or refuses a publication: status, revision, state (R239, R247). -/
def enterGroup (s : State) (lid bnd j : Nat) (amend : Bool) (recs : List (List Word)) : Nat × Nat × State :=
  let l := s.launch lid
  let b := s.binding lid bnd
  let c := publishCheck b j amend
  if c.1 ≠ 0 then (c.1, 0, s)
  else
    let put : State → State := fun s =>
      let b := s.binding lid bnd
      s.setBinding lid bnd { b with windows := b.windows.set .none j (.published c.2) }
    if !l.hdr.out then (0, c.2, advanceOutputs 64 s (put s).settle)
    else match s.offerAll l.hdr.ostr (recs.map (fun r => stamped r (b.desc.windowEnd j) c.2)) with
      | .error _ => (4, 0, s)
      | .ok s' =>
        let s' := if recs.isEmpty then s' else s'.modStream l.hdr.ostr (fun t => t.rejoin l.hdr.osrc)
        (0, c.2, (put s').afterEntry s l.hdr.ostr l.hdr.osrc)

/-- WREL at the unit: status and state (R239, R248). -/
def enterRelease (s : State) (lid bnd j : Nat) : Nat × State :=
  let b := s.binding lid bnd
  let ok := match b.windows.get .none j with | .taken => true | .published _ => true | _ => false
  if !ok then (1, s)
  else (0, advanceOutputs 64 s (s.setBinding lid bnd { b with windows := b.windows.set .none j .released }).settle)

/-- The device sources of a launch become idle (R263, R281). -/
def idleSources (s : State) (lid : Nat) : State :=
  s.streams.foldl (fun s t => t.2.srcs.foldl (fun s x =>
    if x.2.kind = .device lid ∧ !x.2.idle then (s.enterIdle t.1 x.1).2 else s) s) s

end State

end Sys2Proof.Machine
end

