-- ==== Sys2Proof/Machine/Ends.lean ====
section
/-! DEFINITION. The ends of waves, blocks and launches; kills (R24, R30, R33 to R35, R52, R53, R269, R285). -/

namespace Sys2Proof.Machine

/-- The outcome of the current generation stands: its last arrival landed in a cycle before this one (R33). -/
def Block.outcomeFixed (b : Block) (now : DWord) : Bool := b.landed.any (· != now)

namespace State

/-- The event table's entry for a block (R269): only original blocks with events publish. -/
def publish (s : State) (b : Block) (err : Bool) : State :=
  let l := s.launch b.lid
  if l.hdr.noev || b.task || b.run != .original then s
  else { s with events := s.events.set .clear (l.hdr.evb + b.index.toNat) (if err then .error else .done) }

/-- Waiting members of a rendezvous that lists wave `n` of the block complete with barrier-abandoned status (R34, R292). -/
def abandonRends (s : State) (blk n : Nat) : State :=
  let b := s.block blk
  let hit := b.rends.filter (fun r => r.members.any (fun m => m.2.gng.getLsbD n))
  let s := hit.foldl (fun s r => r.members.foldl (fun s m =>
    s.modWave m.2.party (fun w => { w.advance 1 with wait := .none, abn := true, readySince := s.clock })) s) s
  s.modBlock blk (fun b => { b with rends := b.rends.filter (fun r => !(r.members.any (fun m => m.2.gng.getLsbD n))) })

/-- Every Attached handle to an entry becomes Stale (R53). -/
def staleHandles (s : State) (exporter entry : Nat) : State :=
  { s with waves := s.waves.mapVal {} (fun _ w => { w with handles := w.handles.mapVal {} (fun _ h =>
      if h.state = .attached ∧ h.exporter = exporter ∧ h.entry = entry then { h with state := .stale } else h) }) }

/-- A Live entry begins to drain (R52). -/
def drain (s : State) (p entry : Nat) : State :=
  if ((s.wave p).adits.get {} entry).state = .live then
    (s.modWave p (fun w => { w with adits := w.adits.set {} entry { w.adits.get {} entry with state := .draining } })).staleHandles p entry
  else s

/-- Unbinds the geodes of a wave whose commands have completed (R254, R263). -/
def unbindIdle (s : State) (p : Nat) : State :=
  let c := s.core (coreOf p)
  let c' := c.geodes.foldl (fun k g =>
    if g.2.bnd && g.2.party == p && !c.geodeQ.any (fun q => q.g == g.1) then { k with geodes := k.geodes.set {} g.1 {} } else k) c
  s.setCore (coreOf p) c'

/-- Every wave of a block has ended. -/
def allEnded (b : Block) : Bool := (List.range b.n).all (fun i => b.ends.get .live i != .live)

/-- What a context holds on the cores goes once it is over and its last block is released (R25, R35, R268). -/
def ungrant (s : State) (lid : Nat) : State :=
  let p := (s.launch lid).prog
  if (p == .ended || p == .halted) && s.blocks.all (fun b => b.lid != lid) then
    { s with cores := s.cores.mapVal {} (fun _ c => { c with
        grants := c.grants.mapVal none (fun _ g => if g = some lid then none else g),
        routes := c.routes.filter (· != lid), lanes := c.lanes.erase lid,
        locks := c.locks.filter (fun x => x.1 != lid), misses := c.misses.filter (fun m => m.lid != lid),
        tasks := c.tasks.filter (fun t => t.lid != lid) }) }
  else s

/-- The launch of a block may be over: no block runs or waits, no task is left (R30). -/
def launchEnd (s : State) (lid : Nat) : State :=
  let l := s.launch lid
  if l.prog = .resident ∧ l.finished = l.total ∧ l.replay = none ∧
     s.blocks.all (fun b => b.lid != lid || b.ended || b.run != .original) ∧
     s.cores.all (fun c => c.2.tasks.all (fun t => t.lid != lid)) then
    let s := s.modLaunch lid (fun l => { l with prog := .ended, binds := [] })
    let s := s.ungrant lid
    let s := if l.hdr.std ∧ l.hdr.out then
        (s.enterAdvance l.hdr.ostr l.hdr.osrc topMark).2
      else s
    if l.hdr.note then s.notify 0 lid else s
  else s

/-- The last wave of a block has ended (R35): its event, its log, its job. After an EVPUB the end publishes nothing, but a
killed wave or a tag in Error still puts the error flag into the entry (R124, R178). -/
def blockEnd (s : State) (blk : Nat) : State :=
  let b := s.block blk
  if b.ended || !allEnded b then s
  else
    let err := b.err || b.tags.any (fun t => match (s.core b.core).tags.get .idle t with | .error _ => true | _ => false)
    let s := if b.published ∧ !err then s else s.publish b err
    let s := s.modBlock blk (fun b => { b with ended := true, published := true })
    match b.run with
    | .original =>
      let s := if b.task then s else s.modLaunch b.lid (fun l => { l with finished := l.finished + 1 })
      let s := if b.logging then s.modJob b.job (fun j => { j with opened := false, closedAt := s.clock, dorig := b.digest }) else s
      s.launchEnd b.lid
    | .third id => s.modJob id (fun j => { j with thrDone := true, dthr := b.digest })
    | .replay id => s.modJob id (fun j => { j with repDone := true, drep := b.digest, flgr := b.rflags, bsatr := b.rsat, bnanr := b.rnan })
    | .capture id => s.modJob id (fun j => { j with repDone := true, drep := b.digest, flgr := b.rflags, bsatr := b.rsat, bnanr := b.rnan })

/-- What the end of a wave and its killing have in common (R24, R285). A remote access that its target has not accepted has not been
issued (R164), and is dropped. -/
def closeWave (s : State) (p : Nat) (killed : Bool) : State :=
  let w := s.wave p
  let s := s.setWave p { w with status := if killed then .killed else .ended, wait := .none, trap := none, due := [], opens := [],
                                fences := [], gng := 0, handles := [], active := false, reasons := 0 }
  let s : State := { s with remotes := s.remotes.filter (fun r => r.op.party != p) }
  let s := (List.range 16).foldl (fun s e => s.drain p e) s
  let s := s.unbindIdle p
  let s := s.modBlock w.blk (fun b => { b with
    ends := b.ends.set .live w.num (if killed then .killed else .ended),
    digest := b.digest ^^^ w.digest.rotateLeft w.num, rflags := b.rflags ||| w.flg,
    err := b.err || killed,
    abandoned := if killed ∧ b.abandoned = none then some (if b.outcomeFixed s.clock then b.gen + 1 else b.gen) else b.abandoned })
  let s := s.abandonRends w.blk w.num
  s.blockEnd w.blk

/-- A wave whose presence bits are all zero after an EXIT or a write ends (R24). -/
def endIfEmpty (s : State) (p : Nat) : State :=
  if (s.wave p).present = 0 ∧ (s.wave p).status = .running then s.closeWave p false else s

/-- A wave is killed by poison that it consumed (R285). -/
def kill (s : State) (p n : Nat) (lanes : LaneMask) : State :=
  let w := s.wave p
  if s.runOf p != .original then s.endEarly p
  else
    let b := s.block w.blk
    let l := s.launch w.lid
    let s := if b.logging then s.abandon b.job 4 else s
    let s := s.writeStop l (recNo l (coreOf p) (slotOf p))
      (stopRecord s.clock (resumeWord w.pc w.k) 0 w.lid (waveId p w + 2 ^ 24 * coreOf p) 0x30 (min n 0xFFFF) 9 lanes
        w.md.toNat w.flg.toNat ((s.reasonsOf p).toNat + 1024 * w.stat))
    let s := if b.published ∧ !l.hdr.noev ∧ !b.task then
        { s with events := s.events.set .clear (l.hdr.evb + b.index.toNat) .error } else s
    s.closeWave p true

end State

end Sys2Proof.Machine
end

