-- ==== Sys2Proof/Machine/Translate.lean ====
section
/-! DEFINITION. Translation, its buffers, the fetch of clauses (R63, R64, R277 to R280). -/

namespace Sys2Proof.Machine

/-- What a translation gives: a physical address, a miss that needs service, or a halt cause with its detail. -/
inductive Tr where
  | pa (a : Nat)
  | miss
  | bad (cause detail : Nat)
deriving DecidableEq, Repr

/-- The permissions an access needs (R280). -/
structure Need where
  rd : Bool := false
  wr : Bool := false
  ex : Bool := false
deriving DecidableEq, Repr

/-- Bits of the virtual address that index the table of a level, and the level's page size as a power of two (R279). -/
def levelIndex (va : Nat) : Nat → Nat
  | 4 => bitsOf va 56 48
  | 3 => bitsOf va 47 39
  | 2 => bitsOf va 38 30
  | 1 => bitsOf va 29 21
  | _ => bitsOf va 20 16

def levelPage : Nat → Nat
  | 2 => 30
  | 1 => 21
  | _ => 16

/-- The walk from the table of a level (R279, R280): a leaf, `none` where an entry is not valid, or the malformed case. -/
def State.walkFrom (s : State) (ctx va : Nat) : Nat → Nat → Except Unit (Option TlbEntry)
  | level, table =>
    let e := s.load (table + 8 * levelIndex va level) 8
    let addr := bitsOf e 38 8 * 256
    if !bitOf e 0 then .ok none
    else if bitsOf e 63 39 ≠ 0 ∨ bitsOf e 7 5 ≠ 0 ∨ memTop ≤ addr then .error ()
    else if bitOf e 1 then
      if 3 ≤ level ∨ addr % 2 ^ levelPage level ≠ 0 then .error ()
      else .ok (some { ctx := ctx, va := va / 2 ^ levelPage level * 2 ^ levelPage level, bits := levelPage level, pa := addr,
                       ex := bitOf e 4, wr := bitOf e 3, rd := bitOf e 2 })
    else
      match level with
      | 0 => .error ()
      | l + 1 => if addr % (if l = 0 then 256 else 4096) ≠ 0 then .error () else s.walkFrom ctx va l addr

namespace State

/-- The root table address of a translation context, 0 for none (R279, R323). -/
def rootOf (s : State) (ctx : Nat) : Nat := s.cw (0x10000 + 16 * ctx) 8

def walk (s : State) (ctx va : Nat) : Except Unit (Option TlbEntry) :=
  if s.rootOf ctx = 0 then .ok none else s.walkFrom ctx va 4 (s.rootOf ctx)

def hitIn (l : List TlbEntry) (ctx va : Nat) : Option TlbEntry :=
  l.find? (fun e => e.ctx == ctx && e.va / 2 ^ e.bits == va / 2 ^ e.bits)

/-- A valid leaf enters a buffer of `cap` entries; a full one gives up an entry (assumption 13). -/
def fillTlb (cap tick : Nat) (l : List TlbEntry) (e : TlbEntry) : List TlbEntry :=
  e :: (if l.length < cap then l else l.eraseIdx (Config.tlbVictim tick % cap))

/-- The leaf for an address: the core's buffer, then the die's, then the walk, which fills both; a context without a root has none
(R279). -/
def lookup (s : State) (c ctx va : Nat) : Except Unit (Option TlbEntry) × State :=
  if s.rootOf ctx = 0 then (.ok none, s)
  else match hitIn (s.core c).tlb ctx va with
  | some e => (.ok (some e), s)
  | none =>
    match hitIn (s.tlb2.get [] (dieOf c)) ctx va with
    | some e => (.ok (some e), s.modCore c (fun k => { k with tlb := fillTlb 128 s.tick k.tlb e }))
    | none =>
      match s.walk ctx va with
      | .ok (some e) =>
        let s := s.modCore c (fun k => { k with tlb := fillTlb 128 s.tick k.tlb e })
        (.ok (some e), { s with tlb2 := s.tlb2.set [] (dieOf c) (fillTlb 4096 s.tick (s.tlb2.get [] (dieOf c)) e) })
      | r => (r, s)

/-- The code pages of a loaded image hold a physical address (R64). -/
def codeLocked (s : State) (pa n : Nat) : Bool :=
  s.images.any (fun i => i.loaded &&
    decide (i.textPa / i.pageSize * i.pageSize < pa + n) &&
    decide (pa < (i.textPa + i.textLen + i.pageSize - 1) / i.pageSize * i.pageSize))

/-- Translation of one access with its permission (R173 order 3 and 4, R280). -/
def translate (s : State) (c ctx va : Nat) (need : Need) : Tr × State :=
  match s.lookup c ctx va with
  | (.error (), s) => (.bad 0x18 1, s)
  | (.ok none, s) => (.miss, s)
  | (.ok (some e), s) =>
    let pa := e.pa + va % 2 ^ e.bits
    if need.rd ∧ !e.rd then (.bad 0x17 0, s)
    else if need.wr ∧ (!e.wr || s.codeLocked pa 1) then (.bad 0x17 1, s)
    else if need.ex ∧ !e.ex then (.bad 0x17 2, s)
    else (.pa pa, s)

/-- A core fault stall moves the core's waves to the pending set (R271). -/
def demoteCore (s : State) (c : Nat) : State :=
  { s with waves := s.waves.mapVal {} (fun p w => if coreOf p = c ∧ w.status = .running then { w with active := false } else w) }

/-- A miss waits for service; misses on one page wait for one service (R228, R277). Where there is no mapping, the page is the 64 KiB
that the smallest leaf maps (assumption 105). -/
def addMiss (s : State) (c : Nat) (m : Miss) : State :=
  if (s.core c).misses.any (fun x => x.va / 65536 == m.va / 65536 && x.lid == m.lid) then s
  else (s.modCore c (fun k => { k with misses := k.misses ++ [m] })).demoteCore c

/-- A wave whose access missed: its word waits for the core's stall to end (R228, R277). -/
def faultStall (s : State) (p : Nat) (pages : List Nat) : State := (s.demoted p 9).modWave p (fun w => { w with missed := pages })

/-- A halt reported at another word than the present one: word `k` of the clause, at address `a` (R63). -/
def haltAt (s : State) (p : Nat) (a : DWord) (k cause detail : Nat) : State :=
  (s.modWave p (fun w => { w with pc := a, k := k })).halt p cause detail

end State

/-- What a fetch gives. -/
inductive Fetched where
  | ok (hdr : Word) (body : List Word)
  | stalled (va : Nat)
  | failed (a : DWord) (k cause detail : Nat)
deriving DecidableEq, Repr

namespace State

/-- The translation of a word that is fetched; no mapping holds an address beyond 57 bits, so such a word misses (R113, R279,
assumption 131). -/
def translateFetch (s : State) (p : Nat) (a : DWord) : Tr × State :=
  if 2 ^ 57 ≤ a.toNat then (.miss, s) else s.translate (coreOf p) (s.launch (s.wave p).lid).ctx a.toNat { ex := true }

/-- Fetches `n` words from an address (R64); `k` counts the words of the clause before it. -/
def fetchWords (s : State) (p : Nat) : Nat → Nat → DWord → (Except Fetched (List Word)) × State
  | 0, _, _ => (.ok [], s)
  | n + 1, k, a =>
    match s.translateFetch p a with
    | (.bad c d, s) => (.error (.failed a k c d), s)
    | (.miss, s) => (.error (.stalled a.toNat),
        s.addMiss (coreOf p) { va := a.toNat, kind := .fetch, party := p, lid := (s.wave p).lid, pc := a, k := k })
    | (.pa pa, s) =>
      match s.fetchWords p n (k + 1) (a + 4) with
      | (.ok t, s) => (.ok (BitVec.ofNat 32 (s.load pa 4) :: t), s)
      | (e, s) => (e, s)

/-- Fetches and decodes the clause whose header is at `a` (R63, R75). Every word is fetched before one is decoded, so that a fetch that
faults or misses comes before a word that fails decoding: the model's choice (assumption 124). -/
def fetchClause (s : State) (p : Nat) (a : DWord) : Fetched × State :=
  match s.fetchWords p 1 0 a with
  | (.error e, s) => (e, s)
  | (.ok hs, s) =>
    let h := hs.headD 0
    match decodeHeader h with
    | .error e => (.failed a 0 0x10 e.code, s)
    | .ok hd =>
      match s.fetchWords p hd.len 1 (a + 4) with
      | (.error e, s) => (e, s)
      | (.ok body, s) =>
        match decodeClause (s.nativeOf p) h body with
        | .error (k, e) => (.failed (a + BitVec.ofNat 64 (4 * k)) k 0x10 e.code, s)
        | .ok _ => (.ok h body, s)

end State

end Sys2Proof.Machine
end

