-- ==== Sys2Proof/Machine/Operands.lean ====
section
/-! DEFINITION. How a word reaches its registers: open registers, pending rows, races, poison, retirement (R46, R47,
R55, R56, R77, R99, R100, R159). -/

namespace Sys2Proof.Machine

/-- Registers a form names with the lanes in which it touches them. -/
abbrev Regs := List (Nat × LaneMask)

/-- The rows that registers take in their lanes; a row in which no lane of a register is touched is not accessed (assumption 93). -/
def rowsOf (p : Nat) (rs : Regs) : List Nat := (rs.flatMap (fun r => (beatsOf r.2).map (vrow p r.1))).dedup

/-- One access for each row: a write where a destination lies in it, else a read (R55). -/
def accesses (p : Nat) (srcs dsts : Regs) : List (Nat × Bool) :=
  let w := rowsOf p dsts
  w.map (fun r => (r, true)) ++ ((rowsOf p srcs).filter (fun r => !w.contains r)).map (fun r => (r, false))

/-- The lanes of registers that lie in some of the rows (R115: conflicting lanes). -/
def lanesIn (p : Nat) (rs : Regs) (rows : List Nat) : LaneMask :=
  maskOf (fun l => rs.any (fun r => r.2.getLsbD l && rows.contains (vrow p r.1 (l / 32))))

namespace State

/-- The flag that counts the next long-latency operation of the clause (R65), 15 for none. -/
def nextFlag (s : State) (p : Nat) : Nat :=
  let w := s.wave p
  if s.nativeOf p then (if w.ll = 0 then w.hdr.toNat / 4096 % 16 else w.hdr.toNat / 256 % 16) else 15

/-- One more operation would take the flag's count to 64 (R68). -/
def flagFull (s : State) (p : Nat) : Bool := s.nextFlag p < 12 && (s.wave p).flags.get 0 (s.nextFlag p) == 63

/-- The flag's count has no room: the operation does not issue (R68). -/
def roomReason (s : State) (p : Nat) : BitVec 10 := reason 4 (s.flagFull p)

/-- Goes on where no reason to wait stands (R272). -/
def unlessHeld (s : State) (p : Nat) (reasons : BitVec 10) (go : State → State) : State :=
  if reasons = 0 then go s else s.stallAll p reasons

/-- The poisoned elements that registers hold in their lanes. -/
def badIn (s : State) (p : Nat) (rs : Regs) : List (Nat × Nat) :=
  rs.dedup.flatMap (fun r => ((lanesOf r.2).filter (fun l => s.poisoned (velem p r.1 l))).map (fun l => (r.1, l)))

def badLanes (bs : List (Nat × Nat)) : LaneMask := maskOf (fun l => bs.any (fun b => b.2 == l))

/-- Open registers (R77): detail 0x0B in native mode, a stall in interlocked mode. A word names its registers whatever its lane
activity (assumption 82). -/
def opened (s : State) (p : Nat) (vecs scals : List Nat) (go : State → State) : State :=
  if (s.wave p).opens.any (fun o => o.vecs.any vecs.contains || o.scals.any scals.contains) then
    (if s.nativeOf p then s.halt p 0x10 0x0B else s.stall p 3)
  else go s

/-- A wave that consumes poison among these registers is killed (R50, R158). -/
def consume (s : State) (p : Nat) (srcs : Regs) (go : State → State) : State :=
  if s.badIn p srcs ≠ [] then s.kill p (s.badIn p srcs).length (badLanes (s.badIn p srcs)) else go s

/-- The fence classes of accesses to the wave's own rows: XR for reads, XW for writes (R211). -/
def rowClasses (p : Nat) (srcs dsts : Regs) : BitVec 8 :=
  (if rowsOf p srcs = [] then 0 else 0x04) ||| (if rowsOf p dsts = [] then 0 else 0x08)

/-- What holds accesses to the wave's own rows: a FENCE, for a write an earlier one through a handle or to the ceiling, rows that are
pending or wait for the wave's own accesses (R47, R177, R218). -/
def rowReasons (s : State) (p : Nat) (srcs dsts : Regs) : BitVec 10 :=
  reason 1 (s.fenced p (rowClasses p srcs dsts) || (rowsOf p dsts != [] && s.writesOut p)) ||| reason 3 ((accesses p srcs dsts).any (fun r => s.rowBlocked p r.1))

/-- Accesses that nothing holds: the race trap, or their marks (R55, R56). -/
def accessRows (s : State) (p : Nat) (srcs dsts : Regs) (go : State → State) : State :=
  if s.racing p (accesses p srcs dsts) ≠ [] then
    s.trapHere p 0x0008 0x00FF (lanesIn p (srcs ++ dsts) (s.racing p (accesses p srcs dsts)))
  else go (s.markRows p (accesses p srcs dsts))

/-- Access to registers: open registers, then what holds it, then races, then the accesses (assumption 11). -/
def access (s : State) (p : Nat) (srcs dsts : Regs) (scals : List Nat) (go : State → State) : State :=
  s.opened p ((srcs ++ dsts).map (·.1)) scals fun s => s.unlessHeld p (s.rowReasons p srcs dsts) fun s => s.accessRows p srcs dsts go

/-- Access by a form that consumes what it reads: poison kills the wave (R50, R158). -/
def direct (s : State) (p : Nat) (srcs dsts : Regs) (scals : List Nat) (go : State → State) : State :=
  s.access p srcs dsts scals fun s => s.consume p srcs go

/-- Retires a word of `n` words whose lanes raised conditions: flg, pc, and the arithmetic trap (R97, R99, R100). -/
def retire (s : State) (p n : Nat) (flags : SMap (BitVec 6)) : State :=
  let w := s.wave p
  let w' := { w.advance n with flg := w.flg ||| orFlags flags }
  let s := s.setWave p w'
  if orFlags flags &&& w.enables ≠ 0 then
    s.trap p { cause := 4, detail := topCond (orFlags flags &&& w.enables), lanes := trapping flags w.enables,
               addr := w'.pc, k := w'.k, flags := flags }
  else s.endIfEmpty p

/-- Retires a scalar form whose single execution raised `f`; the trapping lanes are those active at issue (R100). A form that
empties the presence mask ends its wave, which then takes no trap (R24, assumption 85). -/
def retireScalar (s : State) (p n : Nat) (active : LaneMask) (f : BitVec 6) : State :=
  let w := s.wave p
  let w' := { w.advance n with flg := w.flg ||| f }
  let s := s.setWave p w'
  if f &&& w.enables ≠ 0 ∧ w.present ≠ 0 then
    s.trap p { cause := 4, detail := topCond (f &&& w.enables), lanes := active, addr := w'.pc, k := w'.k,
               flags := (lanesOf active).foldl (fun m l => m.set 0 l f) [] }
  else s.endIfEmpty p

/-- A scalar or wave-level form of one word that only changes the wave. -/
def scalarForm (s : State) (p : Nat) (regs : List Nat) (f : Wave → Wave) : State :=
  s.opened p [] regs fun s => (s.setWave p ((f (s.wave p)).advance 1)).endIfEmpty p

def regsOfDest : Dest → List Nat × List Nat
  | .none => ([], [])
  | .vec d pair => (if pair then [d, d + 1] else [d], [])
  | .scal d pair => ([], if pair then [d, d + 1] else [d])

/-- The rows of a vector destination, marked pending from issue (R77). -/
def destRows (p : Nat) (d : Dest) : List Nat :=
  (regsOfDest d).1.flatMap (fun v => (List.range 3).map (vrow p v))

/-- Issues a long-latency operation: number, flag, open destination, pending rows (R67, R68, R77). -/
def issueOp (s : State) (p n : Nat) (o : Op) : State :=
  let f := s.nextFlag p
  let id := s.nextId
  let s := { s with nextId := id + 1, ops := s.ops ++ [{ o with id := id, flag := f, rows := destRows p o.dst }] }
  let s := s.pend id (destRows p o.dst)
  s.modWave p (fun w => { w.advance n with
    ll := w.ll + 1,
    flags := if f < 12 then w.flags.set 0 f (w.flags.get 0 f + 1) else w.flags,
    opens := if o.dst = .none then w.opens else
      w.opens ++ [{ op := id, flag := f, vecs := (regsOfDest o.dst).1, scals := (regsOfDest o.dst).2 }] })

/-- The log of the wave's block takes an entry, or the block replays (R294, R297). -/
def audited (s : State) (p : Nat) : Bool := (s.block (s.wave p).blk).logging || s.runOf p != .original

/-- An output of an audited wave waits while an earlier atomic's written value is not known: the digest's records stand
in program order (R295, assumption 21). -/
def outGate (s : State) (p : Nat) (go : State → State) : State :=
  if s.audited p && s.ops.any (fun o => o.party == p && o.out) then s.stall p 1 else go s

/-- The number of the log entry of an input form, reserved at issue (R294). -/
def reserveSeq (s : State) (p : Nat) : Option Nat × State :=
  if s.audited p then (some (s.wave p).seq, s.modWave p (fun w => { w with seq := w.seq + 1 })) else (none, s)

/-- Appends the entry that was reserved. -/
def logReserved (s : State) (p seq kind : Nat) (src : DWord) (data : List Word) : State :=
  let w := s.wave p
  let b := s.block w.blk
  if b.run = .original ∧ b.logging then
    s.putEntry b.job { kind := kind, wave := w.num, seq := seq, src := src, data := data } id
  else s

/-- Folds records after their wave may have ended: the block's digest follows the wave's (R295, R296). -/
def foldLate (s : State) (p blk : Nat) (recs : List (DWord × DWord)) : State :=
  let w := s.wave p
  if w.blk = blk ∧ w.status = .running then s.foldOut p recs
  else if w.blk = blk ∧ s.audited p then
    let d := recs.foldl (fun r a => crcRecord r a.1 a.2) w.digest
    let x := w.digest.rotateLeft w.num ^^^ d.rotateLeft w.num
    let b := s.block blk
    let s := (s.modWave p (fun w => { w with digest := d })).modBlock blk (fun b => { b with digest := b.digest ^^^ x })
    if b.ended then
      match b.run with
      | .original => s.modJob b.job (fun j => { j with dorig := j.dorig ^^^ x })
      | .third j => s.modJob j (fun j => { j with dthr := j.dthr ^^^ x })
      | .replay j => s.modJob j (fun j => { j with drep := j.drep ^^^ x })
      | .capture j => s.modJob j (fun j => { j with drep := j.drep ^^^ x })
    else s
  else s

/-- The end of an operation: pending rows clear, the flag falls, an interlocked register closes (R46, R68, R77). -/
def finishOp (s : State) (o : Op) : State :=
  let s := s.unpend o.id o.rows
  let s := { s with ops := s.ops.filter (fun x => x.id != o.id) }
  s.modWave o.party (fun w => { w with
    flags := if o.flag < 12 then w.flags.set 0 o.flag (w.flags.get 0 o.flag - 1) else w.flags,
    opens := if s.nativeOf o.party then w.opens else w.opens.filter (fun x => x.op != o.id) })

end State

end Sys2Proof.Machine
end

