-- ==== Sys2Proof/Machine/Control.lean ====
section
/-! DEFINITION. Structured regions, branches, calls, traps, tool forms, modes and special registers (R101 to R122, R128). -/

namespace Sys2Proof.Machine

/-! ### Structured regions (R107 to R111) -/

/-- Some present lane of a set stands at 63, so that raising it overflows (R26, R107). -/
def Wave.overflows (w : Wave) (up : Nat → Bool) : Bool :=
  (List.range 96).any (fun l => w.present.getLsbD l && up l && decide (w.cnt.get 0 l = 63))

/-- New counters for present lanes. -/
def Wave.mapCnt (w : Wave) (f : Nat → BitVec 6 → BitVec 6) : Wave :=
  { w with cnt := (List.range 96).foldl (fun m l => if w.present.getLsbD l then m.set 0 l (f l (m.get 0 l)) else m) w.cnt }

/-- Opens a region: lanes that leave execution get 1, lanes outside it count one more (R26). -/
def Wave.openRegion (w : Wave) (leaves : Nat → Bool) : Wave :=
  w.mapCnt (fun l c => if c ≠ 0 then c + 1 else if leaves l then 1 else 0)

/-- Closes a region: every nonzero counter falls by 1 (R26). -/
def Wave.closeRegion (w : Wave) : Wave := w.mapCnt (fun _ c => if c ≠ 0 then c - 1 else 0)

/-- A continuing lane at counter 1 runs the next pass (R109, R110). -/
def Wave.revive (w : Wave) : Wave :=
  let r : Nat → Bool := fun l => w.present.getLsbD l && w.cont.getLsbD l && decide (w.cnt.get 0 l = 1)
  { w.mapCnt (fun l c => if r l then 0 else c) with cont := maskOf (fun l => w.cont.getLsbD l && !r l) }

/-- Some present lane stands at 0. -/
def Wave.someActive (w : Wave) : Bool := w.activeMask != 0

/-- The lane tests (R108): the element as a bit pattern. -/
def ccTest (cc : Cc) (x : Word) : Bool :=
  match cc with
  | .nz => x != 0
  | .z => x == 0
  | .neg => x.getLsbD 31
  | .nneg => !x.getLsbD 31

/-- Opens a region, or raises the nesting-overflow fault and changes nothing (R107). -/
def State.openRegion (s : State) (p : Nat) (leaves : Nat → Bool) (go : Wave → Wave) : State :=
  let w := s.wave p
  if w.overflows (fun l => decide (w.cnt.get 0 l ≠ 0)) then s.halt p 0x11 0 else s.setWave p (go (w.openRegion leaves))

/-- A displacement in words (R74). -/
def offset {n : Nat} (d : BitVec n) : DWord := d.signExtend 64 <<< 2

def execNop (s : State) : Host.Outcome State Fault Refusal := onWave s fun p => s.modWave p (·.advance 1)

def execIf (a : Nat) (cc : Cc) (s : State) : Host.Outcome State Fault Refusal := onWave s fun p =>
  let w := s.wave p
  s.direct p [(a, w.activeMask)] [] [] fun read =>
    -- a nesting overflow changes nothing, the marks of the read among it
    if w.overflows (fun l => decide (w.cnt.get 0 l ≠ 0)) then s.halt p 0x11 0
    else read.openRegion p (fun l => !ccTest cc (s.vget p a l)) (·.advance 1)

def execElse (s : State) : Host.Outcome State Fault Refusal := onWave s fun p =>
  s.modWave p (fun w => (w.mapCnt (fun _ c => if c = 0 then 1 else if c = 1 then 0 else c)).advance 1)

def execEndif (s : State) : Host.Outcome State Fault Refusal := onWave s fun p =>
  s.modWave p (fun w => w.closeRegion.advance 1)

def execIfm (a : Nat) (inv : Bool) (s : State) : Host.Outcome State Fault Refusal := onWave s fun p =>
  s.opened p [] [a, a + 1, a + 2] fun s =>
    s.openRegion p (fun l => ((s.wave p).sget (a + l / 32)).getLsbD (l % 32) == inv) (·.advance 1)

def execLoop (k a : Nat) (disp : BitVec 16) (s : State) : Host.Outcome State Fault Refusal := onWave s fun p =>
  s.opened p [] [a] fun s =>
    let n := (s.wave p).sget a
    if n = 0 then s.modWave p (fun w => w.jump (w.pc + offset disp))
    else s.openRegion p (fun _ => false) (fun w => { w.jump (w.pc + 4) with lc := w.lc.set 0 k n })

def execEndl (k : Nat) (disp : BitVec 22) (s : State) : Host.Outcome State Fault Refusal := onWave s fun p =>
  let w := (s.wave p).revive
  let n := w.lc.get 0 k
  let n' : Word := if n.toNat > 1 then n - 1 else 0
  if n' ≠ 0 ∧ w.someActive then s.setWave p { w.jump (w.pc + offset disp) with lc := w.lc.set 0 k n' }
  else s.setWave p { w.closeRegion.jump (w.pc + 4) with lc := w.lc.set 0 k 0 }

def execBrk (n : Nat) (s : State) : Host.Outcome State Fault Refusal := onWave s fun p =>
  s.modWave p (fun w => (w.mapCnt (fun _ c => if c = 0 then BitVec.ofNat 6 (n + 1) else c)).advance 1)

def execCont (n : Nat) (s : State) : Host.Outcome State Fault Refusal := onWave s fun p =>
  s.modWave p (fun w =>
    { (w.mapCnt (fun _ c => if c = 0 then BitVec.ofNat 6 (n + 1) else c)).advance 1 with cont := w.cont ||| w.activeMask })

def execLbeg (s : State) : Host.Outcome State Fault Refusal := onWave s fun p =>
  s.openRegion p (fun _ => false) (fun w => w.jump (w.pc + 4))

def execLend (disp : BitVec 22) (s : State) : Host.Outcome State Fault Refusal := onWave s fun p =>
  let w := (s.wave p).revive
  if w.someActive then s.setWave p (w.jump (w.pc + offset disp)) else s.setWave p (w.closeRegion.jump (w.pc + 4))

/-! ### Branches, calls and exit (R112 to R114) -/

def execBra (disp : BitVec 22) (s : State) : Host.Outcome State Fault Refusal := onWave s fun p =>
  s.modWave p (fun w => w.jump (w.pc + offset disp))

/-- The conditions of BRC (R112). -/
def Wave.branchTaken (w : Wave) (c : BrCond) (a : Nat) : Bool :=
  match c with
  | .none => !w.someActive
  | .any => w.someActive
  | .all => w.activeMask == w.present
  | .z => w.sget a == 0
  | .nz => w.sget a != 0
  | .neg => (w.sget a).getLsbD 31
  | .pos => w.sget a != 0 && !(w.sget a).getLsbD 31

/-- The conditions that read s(a). -/
def brReads : BrCond → Nat → List Nat
  | .none, _ => []
  | .any, _ => []
  | .all, _ => []
  | _, a => [a]

def execBrc (c : BrCond) (a : Nat) (disp : BitVec 15) (s : State) : Host.Outcome State Fault Refusal := onWave s fun p =>
  s.opened p [] (brReads c a) fun s =>
    s.modWave p (fun w => w.jump (if w.branchTaken c a then w.pc + offset disp else w.pc + 4))

/-- Moves to a register target; one that is not a multiple of 4 raises detail 0x04 here (R113). -/
def State.jumpReg (s : State) (p : Nat) (t : DWord) (f : Wave → Wave) : State :=
  if t.toNat % 4 ≠ 0 then s.halt p 0x10 0x04 else s.modWave p (fun w => (f w).jump t)

def execBrx (q : Nat) (s : State) : Host.Outcome State Fault Refusal := onWave s fun p =>
  s.opened p [] [2 * q, 2 * q + 1] fun s => s.jumpReg p ((s.wave p).pair (2 * q)) id

def execCall (link : Nat) (disp : BitVec 19) (s : State) : Host.Outcome State Fault Refusal := onWave s fun p =>
  s.opened p [] [2 * link, 2 * link + 1] fun s =>
    s.modWave p (fun w => (w.putPair (2 * link) (w.pc + 4)).jump (w.pc + offset disp))

def execCallx (link q : Nat) (s : State) : Host.Outcome State Fault Refusal := onWave s fun p =>
  s.opened p [] [2 * link, 2 * link + 1, 2 * q, 2 * q + 1] fun s =>
    s.jumpReg p ((s.wave p).pair (2 * q)) (fun w => w.putPair (2 * link) (w.pc + 4))

def execRet (q : Nat) (s : State) : Host.Outcome State Fault Refusal := onWave s fun p =>
  s.opened p [] [2 * q, 2 * q + 1] fun s => s.jumpReg p ((s.wave p).pair (2 * q)) id

def execExit (s : State) : Host.Outcome State Fault Refusal := onWave s fun p =>
  (s.modWave p (fun w => { w.advance 1 with present := w.present &&& ~~~w.activeMask, exist := w.exist &&& ~~~w.activeMask })).endIfEmpty p

/-! ### Traps (R115 to R118) and tool forms (R119) -/

def execTrap (imm : BitVec 16) (s : State) : Host.Outcome State Fault Refusal := onWave s fun p =>
  let w := s.wave p
  if w.someActive then s.trap p { cause := 1, detail := imm.toNat, lanes := w.activeMask, addr := w.pc + 4, k := 0 }
  else s.setWave p (w.jump (w.pc + 4))

/-- Long-latency forms that stand in a decoded body before word `k`. -/
def longBefore (l : List (Nat × Instr)) (k : Nat) : Nat := (l.filter (fun e => decide (e.1 < k) && e.2.long)).length

/-- The return from a trap (R117): v255 gives the counters, s59 md, s56:s57 the resume word. -/
def Wave.leaveHandler (w : Wave) (v255 : Nat → Word) (a : DWord) (k : Nat) : Wave :=
  { w.jump a with
    k := k, cnt := (List.range 96).foldl (fun m l => m.set 0 l ((v255 l).setWidth 6)) [],
    cont := maskOf (fun l => (v255 l).getLsbD 6), md := (w.sget 59).setWidth 16, hnd := false }

/-- RTE (R117): s59 and s57 are judged before v255 is read. Its read of v255 marks rows only where it returns, so that a miss or a halt
has changed nothing (R228, R281). That s56 bits 1:0 other than 0 raise detail 0x04 at the RTE, for every k, is the model's choice
(assumption 135). -/
def execRte (s : State) : Host.Outcome State Fault Refusal := onWave s fun p =>
  let w := s.wave p
  let r := w.pair 56
  let k := bitsOf r.toNat 63 59
  let a : DWord := BitVec.ofNat 64 (bitsOf r.toNat 56 0)
  if !w.hnd then s.halt p 0x24 0
  else s.opened p [] [56, 57, 59] fun s =>
    if !mdLegal ((w.sget 59).setWidth 16) then s.halt p 0x12 0
    else if bitsOf r.toNat 58 57 ≠ 0 ∨ 16 < k ∨ a.toNat % 4 ≠ 0 then s.halt p 0x10 0x04
    else s.direct p [(255, allLanes)] [] [] fun read =>
    if k = 0 then read.setWave p (w.leaveHandler (s.vget p 255) a 0)
    else
      let h := a - BitVec.ofNat 64 (4 * k)
      match s.fetchClause p h with
      | (.stalled va, s) => s.faultStall p [va / 65536]
      | (.failed x j c d, s) => s.haltAt p x j c d
      | (.ok hdr body, s) =>
        match decodeClause (s.nativeOf p) hdr body with
        | .error (j, e) => s.haltAt p (h + BitVec.ofNat 64 (4 * j)) j 0x10 e.code
        | .ok l =>
          if l.any (fun e => e.1 == k) then
            (s.markRows p (accesses p [(255, allLanes)] [])).setWave p { w.leaveHandler (s.vget p 255) a k with hdr := hdr, body := body, ll := longBefore l k }
          else s.haltAt p h 0 0x10 0x04

def execBkpt (imm : BitVec 16) (s : State) : Host.Outcome State Fault Refusal := onWave s fun p =>
  let w := s.wave p
  if !w.someActive then s.setWave p (w.jump (w.pc + 4))
  else if (s.launch w.lid).hdr.dbg then
    s.setWave p { w.jump (w.pc + 4) with debug := decide (s.runOf p = .original), reasons := if s.runOf p = .original then 0x100 else 0 }
  else s.trap p { cause := 2, detail := imm.toNat, lanes := w.activeMask, addr := w.pc + 4, k := 0 }

def execTrmp (disp : BitVec 22) (s : State) : Host.Outcome State Fault Refusal := onWave s fun p =>
  if (s.wave p).trb then s.trapHere p 3 0 (s.wave p).activeMask
  else s.opened p [] [52, 53] fun s =>
    s.modWave p (fun w => { (w.putPair 52 (w.pc + 4)).jump (w.pc + offset disp) with trb := true })

def execTrmpr (disp : BitVec 22) (s : State) : Host.Outcome State Fault Refusal := onWave s fun p =>
  s.modWave p (fun w => { w.jump (w.pc + offset disp) with trb := false })

def execPatch (s : State) : Host.Outcome State Fault Refusal := onWave s fun p => s.modWave p (·.advance 1)

/-- PPT (R286): with a request pending, the wave stops at the PPT and resumes at the word after it. -/
def execPpt (n : Nat) (s : State) : Host.Outcome State Fault Refusal := onWave s fun p =>
  let w := s.wave p
  s.setWave p { w.advance 1 with ppt := if (s.launch w.lid).preempt.isSome then some n else none }

/-! ### Modes and special registers (R120 to R122) -/

/-- A write of md at execution: reserved values raise the invalid-mode fault (R87). -/
def State.writeMode (s : State) (p : Nat) (m : BitVec 16) : State :=
  if mdLegal m then s.modWave p (fun w => { w.advance 1 with md := m }) else s.halt p 0x12 0

def execMode (imm : BitVec 16) (s : State) : Host.Outcome State Fault Refusal := onWave s fun p => s.writeMode p imm

def execModes (a : Nat) (s : State) : Host.Outcome State Fault Refusal := onWave s fun p =>
  s.opened p [] [a] fun s => s.writeMode p (((s.wave p).sget a).setWidth 16)

/-- A form whose values are logged as KIND 8 in an audited block and served in a replay (R131, R186, R294). -/
def State.statusForm (s : State) (p : Nat) (vals : List Word) (apply : State → List Word → State) : State :=
  if s.runOf p = .original then apply (s.logIn p 8 0 vals) vals
  else match s.served? p 8 0 (fun d => d.length == vals.length) with
    | some d => apply (s.modWave p (fun w => { w with seq := w.seq + 1 })) d
    | none => s.endEarly p

/-- The value of a uniform special register (R121), 64 bits wide where it is. -/
def uniform (s : State) (p : Nat) (sr : SpecReg) : DWord :=
  let w := s.wave p
  let b := s.block w.blk
  match sr with
  | .md => w.md.setWidth 64
  | .flg => w.flg.setWidth 64
  | .lc k => (w.lc.get 0 k).setWidth 64
  | .wave => BitVec.ofNat 64 (waveId p w)
  | .core => BitVec.ofNat 64 (coreOf p + 256 * (coreOf p % 8) + 65536 * (coreOf p / 8))
  | .step => BitVec.ofNat 64 (0xA1 + if s.nativeOf p then 0 else 65536)
  | .clock => s.clock
  | .gng => w.gng.setWidth 64
  | .stat => BitVec.ofNat 64 w.stat
  | .lid => BitVec.ofNat 64 w.lid
  | .blk => blkOf (s.launch w.lid).hdr b.task b.index
  | .ilck => BitVec.ofNat 64 ((s.core (coreOf p)).locks.filter (fun l => l.1 == w.lid)).length
  | .wfield _ => 0
  | .wid => 0
  | .lane => 0

/-- The special registers whose reads are logged (R294). -/
def loggedSpec : SpecReg → Bool
  | .wave => true
  | .core => true
  | .clock => true
  | .lid => true
  | .ilck => true
  | .step => true
  | _ => false

def wide : SpecReg → Bool
  | .clock => true
  | .blk => true
  | _ => false

/-- RDSR of a uniform register, once a read of FLG has waited for the returning operations (R99, R121). -/
def State.readUniform (s : State) (p d : Nat) (sr : SpecReg) : State :=
  s.opened p [] (if wide sr then [d, d + 1] else [d]) fun s =>
    if sr = .flg ∧ s.returningOut p then s.stall p 4
    else
      let v := uniform s p sr
      let vals : List Word := if wide sr then [v.setWidth 32, (v >>> 32).setWidth 32] else [v.setWidth 32]
      let put : State → List Word → State := fun s vs =>
        (s.modWave p (fun w =>
          let w := (w.sput d (vs.getD 0 0)).advance 1
          if wide sr then w.sput (d + 1) (vs.getD 1 0) else w)).endIfEmpty p
      if loggedSpec sr then s.statusForm p vals put else put s vals

/-- RDSR of a per-lane register writes the active lanes of a vector register or pair (R121). -/
def State.readLanes (s : State) (p d : Nat) (sr : SpecReg) : State :=
  let m := (s.wave p).activeMask
  match sr with
  | .wfield i => s.direct p [] [(d, m)] [] fun s =>
      (s.vput p d m (fun l => (s.wave p).wf.get 0 (96 * i + l))).modWave p (·.advance 1)
  | .wid => s.direct p [] [(d, m), (d + 1, m)] [] fun s =>
      ((s.vput p d m (fun l => ((s.wave p).wid.get 0 l).setWidth 32)).vput p (d + 1) m
        (fun l => ((s.wave p).wid.get 0 l >>> 32).setWidth 32)).modWave p (·.advance 1)
  | _ => s.direct p [] [(d, m)] [] fun s => (s.vput p d m (fun l => BitVec.ofNat 32 l)).modWave p (·.advance 1)

def execRdsr (d : Nat) (sr : SpecReg) (s : State) : Host.Outcome State Fault Refusal := onWave s fun p =>
  match sr with
  | .wfield i => s.readLanes p d (.wfield i)
  | .wid => s.readLanes p d .wid
  | .lane => s.readLanes p d .lane
  | sr => s.readUniform p d sr

/-- WRSR reaches FLG (bits 5:0) and LC0 to LC2; a word that names another register does not decode (R121). -/
def execWrsr (sr : SpecReg) (a : Nat) (s : State) : Host.Outcome State Fault Refusal := onWave s fun p =>
  match sr with
  | .flg => s.scalarForm p [a] (fun w => { w with flg := (w.sget a).setWidth 6 })
  | .lc k => s.scalarForm p [a] (fun w => { w with lc := w.lc.set 0 k (w.sget a) })
  | _ => s.halt p 0x10 0x02

/-- The element NSAV writes and trap entry saves (R116, R122). -/
def Wave.nesting (w : Wave) (l : Nat) : Word :=
  BitVec.ofNat 32 ((w.cnt.get 0 l).toNat + if w.cont.getLsbD l then 64 else 0)

def execNsav (d : Nat) (s : State) : Host.Outcome State Fault Refusal := onWave s fun p =>
  s.direct p [] [(d, allLanes)] [] fun s => (s.vput p d allLanes (s.wave p).nesting).modWave p (·.advance 1)

def execNrst (a : Nat) (s : State) : Host.Outcome State Fault Refusal := onWave s fun p =>
  s.direct p [(a, (s.wave p).present)] [] [] fun s =>
    s.modWave p (fun w =>
      { (w.mapCnt (fun l _ => (s.vget p a l).setWidth 6)).advance 1 with
        cont := maskOf (fun l => if w.present.getLsbD l then (s.vget p a l).getLsbD 6 else w.cont.getLsbD l) })

/-! ### Waits on flags (R69, R77, R100, R128) -/

/-- Registers whose flags a met wait names close (R77). -/
def Wave.closeFlags (w : Wave) (mask : BitVec 12) : Wave :=
  { w with opens := w.opens.filter (fun o => !(decide (o.flag < 12) && mask.getLsbD o.flag)) }

/-- Every named flag stands at zero. -/
def Wave.flagsZero (w : Wave) (mask : BitVec 12) : Bool :=
  (List.range 12).all (fun f => !mask.getLsbD f || decide (w.flags.get 0 f = 0))

/-- Takes a due arithmetic trap at a resume word (R100). -/
def State.takeDue (s : State) (p : Nat) (t : DueTrap) (addr : DWord) (k : Nat) : State :=
  (s.modWave p (fun w => { w with due := w.due.erase t })).trap p
    { cause := 4, detail := topCond t.conds, lanes := t.lanes, addr := addr, k := k, flags := t.flags, late := !s.nativeOf p }

/-- A wait that names `mask` takes a due trap: one that it closes, or outside the handler one that an earlier wait has closed. -/
def Wave.takesDue (w : Wave) (mask : BitVec 12) (t : DueTrap) : Bool :=
  if t.closed then !w.hnd else decide (t.flag < 12) && mask.getLsbD t.flag

/-- A due trap whose closing wait has been met. -/
def DueTrap.close (t : DueTrap) (mask : BitVec 12) : DueTrap :=
  if decide (t.flag < 12) && mask.getLsbD t.flag then { t with closed := true } else t

/-- After a wait that names `mask` is met, the due traps that it closes are taken at a resume word, else `go`: the first at once,
each further one when the handler of the one before has returned there (R100, assumption 86). -/
def State.closeWait (s : State) (p : Nat) (mask : BitVec 12) (addr : DWord) (k : Nat) (go : State → State) : State :=
  let w := s.wave p
  let s := s.modWave p (fun w => { w.closeFlags mask with due := w.due.map (·.close mask) })
  match w.due.find? (w.takesDue mask) with
  | some t => s.takeDue p (t.close mask) addr k
  | none => go s

def execWaitf (mask : BitVec 12) (s : State) : Host.Outcome State Fault Refusal := onWave s fun p =>
  if s.nativeOf p then
    if (s.wave p).flagsZero mask then
      let w := (s.wave p).advance 1
      (s.setWave p w).closeWait p mask w.pc w.k id
    else s.stall p 4
  else if s.longOut p then s.stall p 4 else s.modWave p (·.advance 1)

end Sys2Proof.Machine
end

