-- ==== Sys2Proof/Machine/Adit.lean ====
section
/-! DEFINITION. Indexed and adit access, adit management, common slots (R51 to R58, R160 to R171). -/

namespace Sys2Proof.Machine

/-! ### Atomic operations (R163) -/

/-- The new value of an element of `w` bits: the operation, the old value, the operand, the compared value. -/
def atom (w op : Nat) (x y c : Nat) : Nat :=
  match op with
  | 0 => (x + y) % 2 ^ w
  | 1 => if sext w x ≤ sext w y then x else y
  | 2 => if sext w x ≤ sext w y then y else x
  | 3 => min x y
  | 4 => max x y
  | 5 => x &&& y
  | 6 => x ||| y
  | 7 => x ^^^ y
  | 8 => y
  | _ => if x = c then y else x

/-! ### The five access forms (R160 to R164) -/

/-- Where the elements of a space lie for a wave: the first row's key and the number of elements (R161). -/
def spaceOf (s : State) (p : Nat) (sp : Space) : Nat × Nat :=
  match sp with
  | .handle h =>
    let x := (s.wave p).handles.get {} h
    (rowKey (coreOf x.exporter) x.first, 32 * x.rows)
  | .slot => (slotRow p 0, 24576)
  | .ceil => (ceilRow (coreOf p) 0, 3145728)

/-- The handle a space uses, 16 for none. -/
def handleOf : Space → Nat
  | .handle h => h
  | _ => 16

/-- The detail of a trap through a space (R115). -/
def spaceDetail : Space → Nat
  | .handle h => h
  | _ => 0xFF

/-- The space lies outside the wave's block: the ceiling, or an adit whose exporter is of another block (R186). -/
def outsideBlock (s : State) (p : Nat) (sp : Space) : Bool :=
  match sp with
  | .handle h => (s.wave ((s.wave p).handles.get {} h).exporter).blk != (s.wave p).blk
  | .slot => false
  | .ceil => true

/-- The address half of a digest record (R295). -/
def spaceRecord (sp : Space) (e : Int) : DWord :=
  match sp with
  | .handle h => BitVec.ofNat 64 (0xFC00000000000000 + h * 2 ^ 40 + (e % (2 ^ 32 : Nat)).toNat)
  | _ => BitVec.ofNat 64 (0xFD00000000000000 + (e % (2 ^ 56 : Nat)).toNat)

/-- The pair of a log entry: index or address, then the value (R294). -/
def pairWords (a v : DWord) : List Word := [a.setWidth 32, (a >>> 32).setWidth 32, v.setWidth 32, (v >>> 32).setWidth 32]

/-- The address words of the pairs of an entry. -/
def pairKeys : List Word → List (Word × Word)
  | a :: b :: _ :: _ :: t => (a, b) :: pairKeys t
  | _ => []

/-- The values of the pairs of an entry. -/
def pairValues : List Word → List DWord
  | _ :: _ :: c :: d :: t => (d ++ c) :: pairValues t
  | _ => []

/-- An access form as its word gives it: the space, each lane's index, what it reads and writes. -/
structure XForm where
  n : Nat
  sp : Space
  idx : Nat → Int
  /-- registers consumed, registers copied, scalars -/
  srcs : Regs
  copied : Regs
  scals : List Nat
  dst : Dest
  write : Bool
  kind : OpKind
  data : Nat → Word
  cmp : Nat → Word
  mark : Nat → Bool

/-- The checks of R161 in their order: a cause with its lanes, or none. -/
def XForm.check (x : XForm) (s : State) (p : Nat) (m : LaneMask) : Option (Nat × LaneMask) :=
  let sz := spaceOf s p x.sp
  let out := maskOf (fun l => m.getLsbD l && !(decide (0 ≤ x.idx l) && decide (x.idx l < (sz.2 : Int))))
  let h := (s.wave p).handles.get {} (handleOf x.sp)
  let viaHandle := decide (handleOf x.sp < 16)
  let ungranted := maskOf (fun l => m.getLsbD l && x.sp == .ceil &&
    (s.core (coreOf p)).grants.get none ((x.idx l).toNat / 1048576) != some (s.wave p).lid)
  if m = 0 then none
  else if viaHandle && h.state != .attached then some (5, m)
  else if out ≠ 0 then some (6, out)
  else if viaHandle && x.write && !h.xch && h.exporter != p then some (7, m)
  else if ungranted ≠ 0 then some (0x14, ungranted)
  else none

/-- The target rows of the active lanes, each with the lanes that touch it. -/
def XForm.rows (x : XForm) (s : State) (p : Nat) (m : LaneMask) : List Nat :=
  ((lanesOf m).map (fun l => (spaceOf s p x.sp).1 + (x.idx l).toNat / 32)).dedup

/-- The access of each active lane. -/
def XForm.lanes (x : XForm) (s : State) (p : Nat) (m : LaneMask) : List LaneAcc :=
  (lanesOf m).map (fun l =>
    { lane := l, va := BitVec.ofInt 64 (x.idx l), loc := (spaceOf s p x.sp).1 * 32 + (x.idx l).toNat,
      data := (x.data l).setWidth 64, cmp := (x.cmp l).setWidth 64, mark := x.mark l })

/-- One lane at its element: the value read, and the write (R162, R163). That an XATM leaves an element that reads poison, while its
other lanes write, is the model's choice (assumption 127). -/
def State.accessElem (s : State) (k : OpKind) (a : LaneAcc) : LaneAcc × State :=
  let old := s.elem a.loc
  let bad := s.poisoned a.loc
  let a' := { a with done := true, value := old.setWidth 64, poison := a.poison || bad }
  match k with
  | .xput => ({ a with done := true }, s.putElem a.loc (a.data.setWidth 32) a.mark)
  | .xatm op =>
    if bad then (a', s)
    else (a', s.putElem a.loc (BitVec.ofNat 32 (atom 32 op old.toNat a.data.toNat a.cmp.toNat)) false)
  | _ => (a', s)

/-- Lanes in order. -/
def State.accessAll (s : State) (k : OpKind) : List LaneAcc → List LaneAcc × State
  | [] => ([], s)
  | a :: t =>
    if a.done then
      let r := s.accessAll k t
      (a :: r.1, r.2)
    else
      let x := s.accessElem k a
      let r := x.2.accessAll k t
      (x.1 :: r.1, r.2)

/-- What a replay is served for an input form through a space: its lanes done with the logged values (R131, R186). -/
def State.serveLanes (s : State) (p kind : Nat) (ls : List LaneAcc) : Option (List LaneAcc) :=
  match ls with
  | [] => some []
  | l :: _ =>
    match s.served? p kind l.va (fun d => pairKeys d == ls.map (fun (a : LaneAcc) => (a.va.setWidth 32, (a.va >>> 32).setWidth 32))) with
    | some d => some ((ls.zip (pairValues d)).map (fun x => { x.1 with done := true, value := x.2 }))
    | none => none

/-- The digest records of a write through a space (R295). -/
def spaceRecords (sp : Space) (ls : List LaneAcc) : List (DWord × DWord) := ls.map (fun a => (spaceRecord sp a.va.toInt, a.data))

/-- The adit of a handle lies on another core. -/
def remoteSpace (s : State) (p : Nat) (sp : Space) : Bool :=
  match sp with
  | .handle h => coreOf ((s.wave p).handles.get {} h).exporter != coreOf p
  | _ => false

/-- Issues an access form whose checks have passed. Rows of the own slot are accessed at once (R47); those of an adit on the same core
and the ceiling's after it (R218, assumption 94); an adit's on another core wait for acceptance (R164). -/
def XForm.issue (x : XForm) (s : State) (p : Nat) (m : LaneMask) (own : List (Nat × Bool)) : State :=
  let w := s.wave p
  let outside := outsideBlock s p x.sp
  let ls := x.lanes s p m
  let h := w.handles.get {} (handleOf x.sp)
  let reading := x.kind != .xput
  let late := outside && (match x.kind with | .xatm _ => true | _ => false)
  let op : Op := { id := 0, kind := x.kind, party := p, lid := w.lid, dst := x.dst, lanes := ls, handle := handleOf x.sp,
                   exporter := h.exporter, entry := h.entry, ceil := x.sp == .ceil, active := m, out := late && s.audited p }
  let fold : State → State := fun s => if outside && x.write && !late then s.foldOut p (spaceRecords x.sp ls) else s
  let logs := outside && reading && !ls.isEmpty
  if outside && s.runOf p != .original then
    if reading then
      match s.serveLanes p 3 ls with
      | some ls' =>
        let s := s.markRows p own
        (if ls = [] then s else s.modWave p (fun w => { w with seq := w.seq + 1 })).issueOp p x.n { op with lanes := ls' }
      | none => s.endEarly p
    else (fold (s.markRows p own)).issueOp p x.n { op with lanes := [] }
  else if remoteSpace s p x.sp && m != 0 then
    let id := s.nextId
    let targets := (x.rows s p m).map (fun k => (k, maskOf (fun l => ls.any (fun a => a.lane == l && a.loc / 32 == k))))
    let req : RemoteReq := { id := id, op := op, rows := targets, write := x.write, own := own, logs := logs, pc := w.pc, k := w.k }
    let s' : State := { s with nextId := id + 1, remotes := s.remotes ++ [req] }
    s'.modWave p (fun w => { w with wait := .remote id, reasons := 0x02 })
  else
    let s := fold (s.markRows p own)
    let r := if logs then s.reserveSeq p else (none, s)
    if x.sp = .slot then
      let y := r.2.accessAll x.kind ls
      y.2.issueOp p x.n { op with seq := r.1, lanes := if reading then y.1 else [] }
    else r.2.issueOp p x.n { op with seq := r.1 }

/-- Registers that indexed access to the own slot reaches (R77); an index beyond it reaches none. -/
def XForm.slotRegs (x : XForm) (m : LaneMask) : List Nat :=
  if x.sp = .slot then ((lanesOf m).filter (fun l => decide (0 ≤ x.idx l) && decide (x.idx l < 24576))).map (fun l => (x.idx l).toNat / 96)
  else []

/-- The fence classes of an access form: reads and writes of its space, and of the registers it names (R211). -/
def XForm.classes (x : XForm) (p : Nat) (m : LaneMask) (srcs dsts : Regs) : BitVec 8 :=
  (if m = 0 then 0 else if x.write then 0x08 else 0x04) ||| State.rowClasses p srcs dsts

/-- An access form writes rows of the wave's own slot. -/
def XForm.writesOwn (x : XForm) (m : LaneMask) (dsts : Regs) : Bool := m != 0 && ((x.write && x.sp == .slot) || !dsts.isEmpty)

/-- An access form: open registers, what holds it, the checks of R161, races, poison, then its issue. A remote form's own rows are
checked here and accessed at acceptance, so that one that faults there has changed no metadata (R56, R159). -/
def State.xform (s : State) (p : Nat) (f : State → XForm) : State :=
  let m := (s.wave p).activeMask
  let x := f s
  let dregs : Regs := (regsOfDest x.dst).1.map (fun v => (v, m))
  let srcs := x.srcs ++ x.copied
  s.opened p (((srcs ++ dregs).map (·.1)) ++ x.slotRegs m) x.scals fun s =>
  s.unlessHeld p (reason 1 (s.fenced p (x.classes p m srcs dregs) || (x.writesOwn m dregs && s.writesOut p)) ||| s.roomReason p |||
      reason 3 ((destRows p x.dst).any (s.rowBlocked p) || (accesses p srcs dregs).any (fun r => s.rowBlocked p r.1))) fun s =>
    match x.check s p m with
    | some (0x14, ls) => s.halt p 0x14 0 ls
    | some (c, ls) => s.trapHere p c (spaceDetail x.sp) ls
    | none =>
      let off := outsideBlock s p x.sp && s.runOf p != .original
      let here := !remoteSpace s p x.sp && !off
      let target := if here then x.rows s p m else []
      if target.any s.rowHeld || (x.sp == .slot && target.any (s.ownTouch p)) || (!off && (x.rows s p m).any (s.copyTouch p)) then s.stall p 3
      else
        let named := accesses p srcs dregs
        let all := named.map (fun r => (r.1, r.2 || (x.write && target.contains r.1))) ++
          (target.filter (fun r => !named.any (fun a => a.1 == r))).map (fun r => (r, x.write))
        let racing : List Nat := s.racing p all
        if racing.length ≠ 0 then
          let sz := spaceOf s p x.sp
          let via := maskOf (fun l => m.getLsbD l && target.any (fun r => racing.contains r && sz.1 + (x.idx l).toNat / 32 == r))
          s.trapHere p 0x0008 (if via ≠ 0 then spaceDetail x.sp else 0xFF) (via ||| lanesIn p (srcs ++ dregs) racing)
        else s.consume p x.srcs fun s =>
          (if outsideBlock s p x.sp && x.write then s.outGate p else fun go => go s) fun s => x.issue s p m all

def execXget (d o : Nat) (sp : Space) (s : State) : Host.Outcome State Fault Refusal := onWave s fun p =>
  s.xform p fun s =>
    { n := 1, sp := sp, idx := fun l => (s.vget p o l).toInt, srcs := [(o, (s.wave p).activeMask)], copied := [], scals := [],
      dst := .vec d false, write := false, kind := .xget, data := fun _ => 0, cmp := fun _ => 0, mark := fun _ => false }

def execXgetw (d a : Nat) (sp : Space) (s : State) : Host.Outcome State Fault Refusal := onWave s fun p =>
  s.xform p fun s =>
    { n := 1, sp := sp, idx := fun l => 96 * ((s.wave p).sget a).toInt + l, srcs := [], copied := [], scals := [a],
      dst := .vec d false, write := false, kind := .xget, data := fun _ => 0, cmp := fun _ => 0, mark := fun _ => false }

def execXput (v o : Nat) (sp : Space) (s : State) : Host.Outcome State Fault Refusal := onWave s fun p =>
  s.xform p fun s =>
    { n := 1, sp := sp, idx := fun l => (s.vget p o l).toInt, srcs := [(o, (s.wave p).activeMask)],
      copied := [(v, (s.wave p).activeMask)], scals := [], dst := .none, write := true, kind := .xput,
      data := s.vget p v, cmp := fun _ => 0, mark := fun l => s.poisoned (velem p v l) }

def execXputw (v a : Nat) (sp : Space) (s : State) : Host.Outcome State Fault Refusal := onWave s fun p =>
  s.xform p fun s =>
    { n := 1, sp := sp, idx := fun l => 96 * ((s.wave p).sget a).toInt + l, srcs := [],
      copied := [(v, (s.wave p).activeMask)], scals := [a], dst := .none, write := true, kind := .xput,
      data := s.vget p v, cmp := fun _ => 0, mark := fun l => s.poisoned (velem p v l) }

/-- XATM reads its vd elements as the values compared by cas only (R163). -/
def execXatm (d o c : Nat) (sp : Space) (op : Nat) (s : State) : Host.Outcome State Fault Refusal := onWave s fun p =>
  s.xform p fun s =>
    { n := 2, sp := sp, idx := fun l => (s.vget p o l).toInt,
      srcs := [(o, (s.wave p).activeMask), (c, (s.wave p).activeMask)] ++ (if op = 9 then [(d, (s.wave p).activeMask)] else []),
      copied := [], scals := [], dst := .vec d false, write := true, kind := .xatm op,
      data := s.vget p c, cmp := s.vget p d, mark := fun _ => false }

/-! ### Common slots (R58, R166, R170) -/

namespace State

/-- A context slot that a wave or a block holds, or whose rows still wait for a write (R25). -/
def slotUsed (s : State) (c slot : Nat) : Bool :=
  (s.wave (c * 128 + slot)).status != .absent ||
  s.blocks.any (fun b => b.core == c && b.common.any (fun e => e.2.1 == slot + 1)) ||
  s.slotPending (c * 128 + slot)

/-- The lowest run of `n` free slots (R58). -/
def freeRun (s : State) (c n : Nat) : Option Nat :=
  (List.range (129 - n)).find? (fun a => (List.range n).all (fun i => !s.slotUsed c (a + i)))

end State

/-- The lowest common index from which `n` are unused (R170). -/
def freeIndex (b : Block) (n : Nat) : Option Nat :=
  (List.range (17 - n)).find? (fun a => (List.range n).all (fun i => (b.common.get (0, 0) (a + i)).1 = 0))

/-- The core-local first row of a range of common rows, if one claim brought in its slots together (R58, R166). -/
def commonRow (b : Block) (first n : Nat) : Option Nat :=
  let c0 := b.common.get (0, 0) (first / 768)
  if n = 0 ∨ 12288 < first + n ∨ c0.1 = 0 then none
  else if (List.range ((first + n - 1) / 768 - first / 768 + 1)).all (fun i =>
      let c := b.common.get (0, 0) (first / 768 + i)
      c.1 = c0.1 + i ∧ c.2 = c0.2)
  then some (768 * (c0.1 - 1) + first % 768) else none

/-- Claims slots `a` upward as common slots from index `i`, zeroed (R41, R58). -/
def State.claimCommon (s : State) (blk a i n : Nat) : State :=
  let b := s.block blk
  let claim := s.nextId
  let s := { s with nextId := claim + 1 }
  let s := s.modBlock blk (fun b => { b with common := (List.range n).foldl (fun m j => m.set (0, 0) (i + j) (a + j + 1, claim)) b.common })
  s.zeroRows (rowKey b.core (768 * a)) (768 * n)

/-- XALLOC of n slots: status, index (R170). -/
def State.allocStatus (s : State) (blk n : Nat) : Nat × Nat × Nat :=
  let b := s.block blk
  if n = 0 ∨ 16 < n then (3, 0, 0)
  else if 16 < b.common.length + n then (2, 0, 0)
  else match freeIndex b n with
    | none => (2, 0, 0)
    | some i => match s.freeRun b.core n with
      | none => (1, 0, 0)
      | some a => (0, i, a)

/-- XALLOC. The log of a replay says that it succeeded; where the replay's core has no free run of slots it fails at once, and with it the
placement of the run (R58, R297, assumption 90). -/
def execXalloc (d a : Nat) (s : State) : Host.Outcome State Fault Refusal := onWave s fun p =>
  s.opened p [] [d, d + 1, a] fun s =>
    let w := s.wave p
    let n := (w.sget a).toNat
    let r := s.allocStatus w.blk n
    let write : State → List Word → State := fun s vs =>
      (s.modWave p (fun w => ((w.sput d (vs.getD 0 0)).sput (d + 1) (vs.getD 1 0)).advance 1)).endIfEmpty p
    if s.runOf p ≠ .original then
      match s.served? p 8 0 (fun d => d.length == 2) with
      | none => s.endEarly p
      | some vs =>
        if vs.getD 0 1 ≠ 0 then write (s.modWave p (fun w => { w with seq := w.seq + 1 })) vs
        else match s.freeRun (coreOf p) n with
          | none => s.endUnplaced p
          | some a => write ((s.modWave p (fun w => { w with seq := w.seq + 1 })).claimCommon w.blk a (vs.getD 1 0).toNat n) vs
    else if r.1 = 0 then
      s.statusForm p [0, BitVec.ofNat 32 r.2.1] (fun s vs => write (s.claimCommon w.blk r.2.2 r.2.1 n) vs)
    else s.statusForm p [BitVec.ofNat 32 r.1, 0xFFFFFFFF] write

/-- XFREE's status for indices from `a` (R170). -/
def State.freeStatus (s : State) (blk a n : Nat) : Nat :=
  let b := s.block blk
  if n = 0 ∨ 16 < n ∨ !(List.range n).all (fun i => (b.common.get (0, 0) (a + i)).1 != 0) then 1
  else if (List.range n).any (fun i =>
      let row := rowKey b.core (768 * ((b.common.get (0, 0) (a + i)).1 - 1))
      s.rows.any (fun e => e.2.exp && decide (row ≤ e.1) && decide (e.1 < row + 768))) then 2
  else 0

def execXfree (d a b : Nat) (s : State) : Host.Outcome State Fault Refusal := onWave s fun p =>
  s.opened p [] [d, a, b] fun s =>
    let w := s.wave p
    let i := (w.sget a).toNat
    let n := (w.sget b).toNat
    let st := s.freeStatus w.blk i n
    let s := if st = 0 then s.modBlock w.blk (fun b => { b with common := (List.range n).foldl (fun m j => m.erase (i + j)) b.common })
             else s
    (s.modWave p (fun w => (w.sput d (BitVec.ofNat 32 st)).advance 1)).endIfEmpty p

/-! ### Adits (R165 to R169, R171) -/

/-- Sets EXP in a range, and scrubs it for phase φ: STP one behind, PW and FR clear (R52, R57). -/
def State.exportRows (s : State) (row n : Nat) (φ : BitVec 4) : State :=
  (List.range n).foldl (fun s i => s.modMeta (row + i) (fun m => { m with exp := true, stp := φ - 1, pw := false, fr := false })) s

/-- Scrubs the rows of an entry for its phase: STP one behind, PW and FR clear. A row that an access of this phase has reached is as that
access left it (R57, assumption 23). -/
def State.scrubRows (s : State) (p entry : Nat) : State :=
  let e := (s.wave p).adits.get {} entry
  (List.range e.rows).foldl (fun s i => s.modMeta (rowKey (coreOf p) (e.first + i)) (fun m =>
    if m.stp = e.phase then m else { m with stp := e.phase - 1, pw := false, fr := false })) s

/-- XEXP's status and core-local first row (R166). That rows of a Draining adit give status 2 as those of a Live one do is the model's
choice (assumption 130). -/
def State.exportStatus (s : State) (p entry first n : Nat) (cmn : Bool) : Nat × Nat :=
  let w := s.wave p
  if (w.adits.get {} entry).state ≠ .free then (1, 0)
  else
    let row : Option Nat := if cmn then commonRow (s.block w.blk) first n
      else if n = 0 ∨ 768 < first + n then none else some (768 * slotOf p + first)
    match row with
    | none => (3, 0)
    | some r => if (List.range n).any (fun i => (s.info (rowKey (coreOf p) (r + i))).exp) then (2, 0) else (0, r)

/-- XEXP waits as pipe busy while the entry's last scrub is unfinished, for no advance overtakes a scrub (R57). -/
def execXexp (sb entry : Nat) (aud : Audience) (xch cmn : Bool) (s : State) : Host.Outcome State Fault Refusal := onWave s fun p =>
  s.opened p [] [sb, sb + 1, sb + 2] fun s =>
    let w := s.wave p
    let first := (w.sget sb).toNat
    let n := (w.sget (sb + 1)).toNat
    let r := s.exportStatus p entry first n cmn
    let φ := (w.adits.get {} entry).phase + 1
    if r.1 = 0 ∧ (w.adits.get {} entry).scrub then s.stall p 1
    else
    let s := if r.1 = 0 then
        (s.exportRows (rowKey (coreOf p) r.2) n φ).modWave p (fun w => { w with
          adits := w.adits.set {} entry { state := .live, aud := aud, xch := xch, first := r.2, rows := n, phase := φ, scrub := true } })
      else s
    (s.modWave p (fun w => (w.sput (sb + 2) (BitVec.ofNat 32 r.1)).advance 1)).endIfEmpty p

def execXrev (d entry : Nat) (s : State) : Host.Outcome State Fault Refusal := onWave s fun p =>
  s.opened p [] [d] fun s =>
    if ((s.wave p).adits.get {} entry).state = .live then
      (s.drain p entry).modWave p (fun w => { w with wait := .xrev entry d, reasons := 0x02 })
    else (s.modWave p (fun w => (w.sput d 1).advance 1)).endIfEmpty p

/-- XATT waits for the exporter's core; a replay is served the status (R168). -/
def execXatt (sb h : Nat) (adr : Bool) (s : State) : Host.Outcome State Fault Refusal := onWave s fun p =>
  s.opened p [] [sb, sb + 1, sb + 2] fun s =>
    s.modWave p (fun w => { w with wait := .xatt sb h adr, reasons := 0x02 })

def execXdet (h : Nat) (s : State) : Host.Outcome State Fault Refusal := onWave s fun p =>
  s.modWave p (fun w => { w.advance 1 with handles := w.handles.set {} h {} })

def audCode : Audience → Nat
  | .block => 0
  | .core => 1
  | .partition => 2

/-- The two values of XPRB (R171). For a Free entry and a Detached handle the XCH and AUD fields are 0: the model's choice (assumption
102). -/
def State.probe (s : State) (p : Nat) (own : Bool) (n : Nat) : Nat × Nat :=
  let w := s.wave p
  if own then
    let e := w.adits.get {} n
    let st := match e.state with | .free => 0 | .live => 1 | .draining => 2
    if st = 0 then (256 * e.phase.toNat, 0)
    else (st + (if e.xch then 4 else 0) + 8 * audCode e.aud + 256 * e.phase.toNat, 32 * e.rows)
  else
    let h := w.handles.get {} n
    let st := match h.state with | .detached => 0 | .attached => 1 | .stale => 2
    if st = 0 then (0, 0) else (st + (if h.xch then 4 else 0) + 8 * audCode h.aud, 32 * h.rows)

def execXprb (d : Nat) (own : Bool) (n : Nat) (s : State) : Host.Outcome State Fault Refusal := onWave s fun p =>
  s.opened p [] [d, d + 1] fun s =>
    let r := s.probe p own n
    s.statusForm p [BitVec.ofNat 32 r.1, BitVec.ofNat 32 r.2] fun s vs =>
      (s.modWave p (fun w => ((w.sput d (vs.getD 0 0)).sput (d + 1) (vs.getD 1 0)).advance 1)).endIfEmpty p

/-! ### Steps that have no word -/

/-- The status of XATT (R168); 6,144 is the party of no wave. A wave that has ended and whose slot is not yet released still exists: the model's choice (assumption
103). -/
def State.attachStatus (s : State) (p sb h : Nat) (adr : Bool) : Nat × Nat × AditEntry :=
  let w := s.wave p
  let a := (w.sget sb).toNat
  let e := (w.sget (sb + 1)).toNat
  let b := s.block w.blk
  -- a party of the original run names the wave of its number in a replay
  let own := ((jobOf b.run).bind s.job?).map (fun j => (j.parties.find? (fun e => e.2 == a)).map (fun e => b.parties.get 6144 e.1))
  let q := if adr then (match own with | some (some q) => q | some none => 6144 | none => a) else b.parties.get 6144 a
  let x := s.wave q
  let exists_ := (if adr then decide (a < 6144) else decide (a < b.n) && x.blk == w.blk) && x.status != .absent && decide (e < 16)
  let entry := x.adits.get {} e
  let inAud := match entry.aud with
    | .block => x.blk == w.blk
    | .core => x.lid == w.lid && coreOf q == coreOf p
    | .partition => x.lid == w.lid
  let st := if (w.handles.get {} h).state ≠ .detached then 1 else if !exists_ then 2
    else if entry.state ≠ .live then 3 else if !inAud then 4 else 0
  (st, q, entry)

/-- The exporter's core answers an attach (R53, R168). In a replay the status comes from the log; an exporter outside
the block is then reached by no access of the replay. -/
def execXattAnswer (p : Nat) (s : State) : Host.Outcome State Fault Refusal :=
  let w := s.wave p
  match w.wait with
  | .xatt sb h adr =>
    let r := s.attachStatus p sb h adr
    let attached : Handle := { state := .attached, exporter := r.2.1, entry := (w.sget (sb + 1)).toNat % 16, first := r.2.2.first,
                               rows := r.2.2.rows, aud := r.2.2.aud, xch := r.2.2.xch }
    let beyond : Handle := { state := .attached, exporter := 6144, rows := 2 ^ 27, xch := true }
    let mine := (s.wave r.2.1).blk == w.blk && r.1 == 0
    let hd : Handle := if s.runOf p = .original ∨ mine then attached else beyond
    -- a replay's own exporter may export later than the original did: its handle waits for the entry
    let x := s.wave r.2.1
    let early := s.runOf p != .original && x.blk == w.blk && x.status == .running && r.1 == 3 && r.2.2.state == .free &&
      (s.served? p 8 0 (fun d => d == [0])).isSome
    if early then .refused (.notEnabled "XATT_ANSWER")
    else .next (s.statusForm p [BitVec.ofNat 32 r.1] fun s vs =>
      (s.modWave p (fun w =>
        let w := { (w.sput (sb + 2) (vs.getD 0 0)).advance 1 with wait := .none, readySince := s.clock }
        if vs.getD 0 1 = 0 then { w with handles := w.handles.set {} h hd } else w)).endIfEmpty p)
  | _ => .refused (.notEnabled "XATT_ANSWER")

/-- An access through an entry's handles is in flight (R52). -/
def State.aditBusy (s : State) (p entry : Nat) : Bool :=
  s.ops.any (fun o => decide (o.handle < 16) && o.exporter == p && o.entry == entry) ||
  s.remotes.any (fun r => decide (r.op.handle < 16) && r.op.exporter == p && r.op.entry == entry) ||
  s.copies.any (fun c => decide (c.handle < 16) && c.exporter == p && c.entry == entry)

/-- The last earlier access of a Draining entry has completed: Free, EXP clear, XREV returns; the phase and an unfinished
scrub go on (R52, R57, R167). Rows that the scrub has not reached are scrubbed as the entry gives them up (assumption 23). -/
def execAditDrainComplete (p entry : Nat) (s : State) : Host.Outcome State Fault Refusal :=
  let w := s.wave p
  let e := w.adits.get {} entry
  when "ADIT_DRAIN_COMPLETE" (e.state == .draining && !s.aditBusy p entry)
    (let s := if e.scrub && e.gen then s.scrubRows p entry else s
     let s := (List.range e.rows).foldl (fun s i => s.modMeta (rowKey (coreOf p) (e.first + i)) (fun m => { m with exp := false })) s
     let w := { w with adits := w.adits.set {} entry { phase := e.phase, scrub := e.scrub, gen := e.gen } }
     match w.wait with
     | .xrev n d =>
       if n = entry then (s.setWave p { (w.sput d 0).advance 1 with wait := .none, readySince := s.clock }).endIfEmpty p
       else s.setWave p w
     | _ => s.setWave p w)

/-- The target core takes the rows of a copy between cores: they are marked pending (R46, R182). -/
def State.acceptCopy (s : State) (req : Nat) : Host.Outcome State Fault Refusal :=
  match s.copies.find? (fun c => c.id == req && c.kind == .cprr && c.rows.isEmpty) with
  | none => .refused (.notEnabled "REMOTE_ACCESS_ACCEPT")
  | some c =>
    let rows := c.items.filterMap (fun i => match i.dst with | .row k => some k | _ => none)
    if rows.any s.rowHeld then .refused (.notEnabled "REMOTE_ACCESS_ACCEPT")
    else
      let s' : State := { s with copies := s.copies.map (fun x => if x.id = req then { x with rows := rows } else x) }
      .next (s'.pend req rows)

/-- An accepted remote access: its own rows and the target's are accessed, its writes enter the digest, its log entry takes its
number; a read is performed now, the rows of a write are pending until its lanes are (R46, R164, R217). -/
def State.acceptRemote (s : State) (r : RemoteReq) : State :=
  let p := r.op.party
  let s := s.markRows p (r.own ++ r.rows.map (fun x => (x.1, r.write)))
  let s := if r.op.kind = .xput ∧ outsideBlock s p (.handle r.op.handle) then
      s.foldOut p (spaceRecords (.handle r.op.handle) r.op.lanes) else s
  let q := if r.logs then s.reserveSeq p else (none, s)
  let y := if r.write then (r.op.lanes, q.2) else q.2.accessAll r.op.kind r.op.lanes
  let id := y.2.nextId
  let s := y.2.issueOp p (if r.op.kind == .xget || r.op.kind == .xput then 1 else 2) { r.op with seq := q.1, lanes := y.1 }
  if r.write then
    let s := s.pend id (r.rows.map (·.1))
    { s with ops := s.ops.map (fun o => if o.id = id then { o with rows := o.rows ++ r.rows.map (·.1) } else o) }
  else s

/-- The target core accepts a remote access once its rows are not pending: the race check, the pending marks, the issue
(R46, R47, R164). One that races has had no effect (R56). -/
def execRemoteAccessAccept (req : Nat) (s : State) : Host.Outcome State Fault Refusal :=
  match s.remotes.find? (fun r => r.id == req) with
  | none => s.acceptCopy req
  | some r =>
    if r.rows.any (fun x => s.rowHeld x.1) then .refused (.notEnabled "REMOTE_ACCESS_ACCEPT")
    else
      let p := r.op.party
      let s := { s with remotes := s.remotes.filter (fun x => x.id != req) }
      let s := s.modWave p (fun w => { w with wait := .none, reasons := 0, readySince := s.clock })
      let racing : List Nat := s.racing p (r.own ++ r.rows.map (fun x => (x.1, r.write)))
      if racing.length ≠ 0 then
        let via := r.rows.foldl (fun m x => if racing.contains x.1 then m ||| x.2 else m) 0
        -- a row of the wave's own slot holds the lanes of one beat
        let mine := maskOf (fun l => r.op.active.getLsbD l && r.own.any (fun x => racing.contains x.1 && x.1 % 3 == l / 32))
        .next (s.trapHere p 0x0008 (if via ≠ 0 then r.op.handle else 0xFF) (via ||| mine))
      else .next (s.acceptRemote r)

end Sys2Proof.Machine
end

