-- ==== Sys2Proof/Machine/MemForms.lean ====
section
/-! DEFINITION. Device memory: loads, stores, atomics, FENCE, the memory port, and the completion of long-latency
operations (R67, R68, R172 to R177, R210 to R216, R330). -/

namespace Sys2Proof.Machine

/-! ### The memory port (R212, R216) -/

/-- Two ranges of bytes meet. -/
def meets (a n b m : Nat) : Bool := decide (a < b + m) && decide (b < a + n)

/-- An operation reaches device memory. -/
def OpKind.memory : OpKind → Bool
  | .load => true
  | .store => true
  | .amo _ => true
  | .amoc => true
  | _ => false

def OpKind.writesMem : OpKind → Bool
  | .store => true
  | .amo _ => true
  | .amoc => true
  | _ => false

/-- The value an atomic writes, if it writes (R163, R175). -/
def Op.written (o : Op) (a : LaneAcc) : Option DWord :=
  match o.kind with
  | .amo op => some (BitVec.ofNat 64 (atom (8 * o.size) op a.value.toNat a.data.toNat 0))
  | .amoc => if a.value = a.cmp then some a.data else none
  | .xatm op => some (BitVec.ofNat 64 (atom 32 op a.value.toNat a.data.toNat a.cmp.toNat))
  | _ => none

/-- The lanes that are performed together with one: those of its row, which a later reader sees whole (R205); at the memory port the
lane alone. -/
def Op.together (o : Op) (lane : Nat) : List Nat :=
  let row : LaneAcc → Nat := fun a => a.loc / 32
  if o.kind.memory then [lane]
  else (o.lanes.filter (fun a => !a.done && o.lanes.any (fun b => b.lane == lane && row b == row a))).map (·.lane)

namespace State

/-- Operations issued before one. -/
def before (s : State) (o : Op) : List Op := s.ops.takeWhile (fun x => x.id != o.id)

/-- An access `b` of an earlier operation `e` of the core holds back the access `a` of `o` to the same location: one wave's accesses
go in order, the port's writes go in order, and what an atomic has yet to write cannot be forwarded (R212, R216). -/
def memHolds (o : Op) (a : LaneAcc) (e : Op) (b : LaneAcc) : Bool :=
  let own := e.party == o.party
  let atomic := e.kind.writesMem && e.kind != .store
  !b.done && meets a.loc o.size b.loc e.size && ((own && e.kind != .store) || atomic || (o.kind.writesMem && e.kind.writesMem))

/-- The operations of a core that the port received before one. -/
def portBefore (s : State) (o : Op) : List Op := (s.before o).filter (fun e => e.kind.memory && coreOf e.party == coreOf o.party)

/-- A write can leave the port: no earlier load of its wave, and none before a write that the port received earlier, is left to
perform (R216: the port sends writes on in the order in which it received them). -/
def leavesPort (s : State) (o : Op) : Bool :=
  let reads : Op → Bool := fun e => e.kind != .store && e.lanes.any (fun b => !b.done)
  (o :: (s.portBefore o).filter (fun e => e.kind.writesMem)).all (fun e =>
    !(s.portBefore e).any (fun r => r.party == e.party && reads r))

/-- A lane's access of a memory operation may be performed; lanes that meet go in lane order (R174, R175, R216). Of two stores to other
bytes the later may be performed first, so that another wave's engine may see it first: the model's choice (R219, assumption 140). -/
def memReady (s : State) (o : Op) (a : LaneAcc) : Bool :=
  (!o.kind.writesMem || (s.leavesPort o &&
    o.lanes.all (fun b => b.done || decide (a.lane ≤ b.lane) || !meets a.loc o.size b.loc o.size))) &&
  (s.portBefore o).all (fun e => e.lanes.all (fun b => !memHolds o a e b))

/-- The earlier stores of the core that the port still holds. -/
def queued (s : State) (o : Op) : List Op :=
  (s.before o).filter (fun e => e.kind == .store && coreOf e.party == coreOf o.party)

/-- The youngest queued byte for an address (R216). -/
def queuedByte (s : State) (o : Op) (a : Nat) : Option Byte :=
  ((s.queued o).flatMap (fun e => e.lanes.filterMap (fun b =>
    if b.loc ≤ a ∧ a < b.loc + e.size then some (b.data.extractLsb' (8 * (a - b.loc)) 8) else none))).getLast?

/-- What a load reads: queued bytes of its core, else memory. -/
def portLoad (s : State) (o : Op) (a : Nat) : Nat :=
  leNat ((List.range o.size).map (fun i => (s.queuedByte o (a + i)).getD (s.byte (a + i))))

/-- A poisoned unit, unless a queued store covers it whole (R50). -/
def portPoison (s : State) (o : Op) (a : Nat) : Bool :=
  s.loadPoison a o.size && !(s.queued o).any (fun e => e.size == 8 && e.lanes.any (fun b => b.loc == a / 8 * 8))

/-- An access through a handle or to the ceiling may be performed: the row is pending for it or for nothing, the lanes that write
one element go in lane order, and the wave's earlier accesses of the kind, an engine's among them, are done (R47, R60, R162, R164,
R212, R218). -/
def xReady (s : State) (o : Op) (a : LaneAcc) : Bool :=
  let row := a.loc / 32
  (if o.rows.contains row then (s.info row).owner == o.id else !s.rowPending row) &&
  (o.kind == .xget || o.lanes.all (fun b => b.done || decide (a.lane ≤ b.lane) || b.loc != a.loc)) &&
  !s.accessBefore o.party o.id &&
  !s.copies.any (fun c => c.party == o.party && decide (c.id < o.id) && decide (c.handle < 16) && c.kind != .cprr)

def laneReady (s : State) (o : Op) (a : LaneAcc) : Bool := if o.kind.memory then s.memReady o a else s.xReady o a

/-- Performs one lane's access: the lane as it then stands, and the state (R162, R174, R175). An atomic that meets
poison does not write. -/
def performLane (s : State) (o : Op) (a : LaneAcc) : LaneAcc × State :=
  match o.kind with
  | .load => ({ a with done := true, value := BitVec.ofNat 64 (s.portLoad o a.loc), poison := s.portPoison o a.loc }, s)
  | .store => ({ a with done := true }, s.store a.loc (leBytes o.size a.data.toNat))
  | .amo _ =>
    let a' := { a with done := true, value := BitVec.ofNat 64 (s.load a.loc o.size), poison := s.loadPoison a.loc o.size }
    match o.written a' with
    | some v => (a', if a'.poison then s else s.store a.loc (leBytes o.size v.toNat))
    | none => (a', s)
  | .amoc =>
    let a' := { a with done := true, value := BitVec.ofNat 64 (s.load a.loc o.size), poison := s.loadPoison a.loc o.size }
    match o.written a' with
    | some v => (a', if a'.poison then s else s.store a.loc (leBytes o.size v.toNat))
    | none => (a', s)
  | .special => (a, s)
  | _ => s.accessElem o.kind a

/-- Puts a lane back into its operation. -/
def setLane (s : State) (id : Nat) (a : LaneAcc) : State :=
  { s with ops := s.ops.map (fun o => if o.id = id then { o with lanes := o.lanes.map (fun b => if b.lane = a.lane then a else b) } else o) }

/-- A row pending for a remote write clears after its own last byte (R46). -/
def clearsRow (s : State) (o : Op) (row : Nat) (left : List LaneAcc) : State :=
  if !o.kind.memory && o.rows.contains row && !left.any (fun b => b.loc / 32 == row) then s.unpend o.id [row] else s

/-- One lane performed, if it may be. -/
def stepLane (s : State) (id lane : Nat) : Option State :=
  match s.ops.find? (fun o => o.id == id) with
  | none => none
  | some o =>
    match o.lanes.find? (fun a => a.lane == lane && !a.done) with
    | none => none
    | some a => if s.laneReady o a then
        let r := s.performLane o a
        let left := o.lanes.filter (fun b => !b.done && b.lane != lane)
        some ((r.2.setLane id r.1).clearsRow o (a.loc / 32) left)
      else none

/-- The lanes that are left, in order; none where one may not be performed yet. -/
def stepLanes (s : State) (id : Nat) : List Nat → Option State
  | [] => some s
  | l :: t => match s.stepLane id l with
    | some s => s.stepLanes id t
    | none => none

/-- A lane's access is performed, if it may be, with those that go with it. -/
def stepRow (s : State) (id lane : Nat) : Option State :=
  match s.ops.find? (fun o => o.id == id) with
  | none => none
  | some o => if o.lanes.any (fun a => a.lane == lane && !a.done) then s.stepLanes id (Op.together o lane) else none

/-! ### Addresses (R72, R173) -/

/-- The address of an access (R72). -/
def address (base : DWord) (off size imm : Nat) : DWord := BitVec.ofNat 64 (base.toNat + off * size + imm * size)

/-- The translation of each access. -/
def translateAll (s : State) (c ctx : Nat) (need : Need) : List (Nat × DWord) → List (Nat × DWord × Tr) × State
  | [] => ([], s)
  | (l, a) :: t =>
    let r := s.translate c ctx a.toNat need
    let q := r.2.translateAll c ctx need t
    ((l, a, r.1) :: q.1, q.2)

end State

/-- What the checks of R173 give. -/
inductive Located where
  | at_ (pas : List Nat)
  | missed (as : List (Nat × Nat))
  | bad (cause detail lane : Nat) (a : DWord)
deriving DecidableEq, Repr

/-- The first access whose translation ended in a cause. -/
def firstBad (rs : List (Nat × DWord × Tr)) (c : Nat) : Option Located :=
  rs.findSome? (fun r => match r.2.2 with | .bad c' d => if c' = c then some (.bad c d r.1 r.2.1) else none | _ => none)

namespace State

/-- The checks of R173 in their order; among the failing lanes the lowest is reported. -/
def locate (s : State) (p size : Nat) (need : Need) (as : List (Nat × DWord)) : Located × State :=
  match as.find? (fun a => a.2.toNat % size != 0) with
  | some a => (.bad 0x15 size a.1 a.2, s)
  | none =>
    match as.find? (fun a => decide (2 ^ 57 ≤ a.2.toNat)) with
    | some a => (.bad 0x16 0 a.1 a.2, s)
    | none =>
      -- a replay takes its values from the log and reaches no memory (R297)
      if s.runOf p ≠ .original then (.at_ (as.map (fun a => a.2.toNat)), s)
      else
        let r := s.translateAll (coreOf p) (s.launch (s.wave p).lid).ctx need as
        let missed := r.1.filterMap (fun x => if x.2.2 = .miss then some (x.1, x.2.1.toNat) else none)
        if missed.length ≠ 0 then (.missed missed, r.2)
        else match (firstBad r.1 0x18).or (firstBad r.1 0x17) with
          | some b => (b, r.2)
          | none => (.at_ (r.1.map (fun x => match x.2.2 with | .pa a => a | _ => 0)), r.2)

/-- The pages of missed accesses wait for service, in ascending order; a refusal reports the lowest lane that missed on the page (R173,
R277). -/
def addMisses (s : State) (p : Nat) (k : AccKind) (scalar : Bool) (as : List (Nat × Nat)) : State :=
  (as.map (fun a => a.2 / 65536)).dedup.mergeSort.foldl (fun s g =>
    let here := as.filter (fun a => a.2 / 65536 == g)
    s.addMiss (coreOf p)
      { va := (here.map (·.2)).headD 0, kind := k, party := p, lid := (s.wave p).lid,
        pc := (s.wave p).pc, k := (s.wave p).k,
        lanes := if scalar then 0 else maskOf (fun l => here.head?.any (fun a => a.1 == l)) }) s

end State

/-! ### Loads, stores and atomics (R172 to R175) -/

/-- A memory form as its word gives it. -/
structure MForm where
  n : Nat := 1
  off : Nat
  pair : Nat
  imm : Nat
  size : Nat
  scalar : Bool := false
  kind : OpKind
  dst : Dest := .none
  srcs : Regs := []
  scals : List Nat := []
  data : Nat → DWord := fun _ => 0
  cmp : Nat → DWord := fun _ => 0

def MForm.need (f : MForm) : Need := { rd := f.kind != .store, wr := f.kind.writesMem }

/-- Issues a memory form whose checks have passed. -/
def MForm.issue (f : MForm) (s : State) (p : Nat) (as : List (Nat × DWord)) (pas : List Nat) : State :=
  let w := s.wave p
  let ls : List LaneAcc := (as.zip pas).map (fun x =>
    { lane := x.1.1, va := x.1.2, loc := x.2, data := f.data x.1.1 &&& BitVec.ofNat 64 (2 ^ (8 * f.size) - 1), cmp := f.cmp x.1.1 })
  let store := f.kind == .store
  let atomic := f.kind.writesMem && !store
  let op : Op := { id := 0, kind := f.kind, party := p, lid := w.lid, size := f.size, dst := f.dst, lanes := ls,
                   scalar := f.scalar, active := if f.scalar then 0 else w.activeMask, out := atomic && s.audited p }
  let s := if store then s.foldOut p (ls.map (fun a => (a.va, a.data))) else s
  if s.runOf p ≠ .original then
    if store then s.issueOp p f.n { op with lanes := [] }
    else match s.serveLanes p (if atomic then 2 else 1) ls with
      | some ls' => (if ls.length = 0 then s else s.modWave p (fun w => { w with seq := w.seq + 1 })).issueOp p f.n { op with lanes := ls' }
      | none => s.endEarly p
  else
    let r := if !store && ls.length != 0 then s.reserveSeq p else (none, s)
    r.2.issueOp p f.n { op with seq := r.1 }

/-- A memory form: open registers, fences, the flag, pending rows, the checks of R173, races, poison, then its issue. Once every access
translates, nothing of it is left that a miss has begun (R228). That a miss of an atomic is reported as a read is the model's choice
(assumption 128). -/
def State.memForm (s : State) (p : Nat) (f : MForm) : State :=
  let w := s.wave p
  let m := w.activeMask
  let dregs : Regs := (regsOfDest f.dst).1.map (fun v => (v, m))
  let acc := accesses p f.srcs dregs
  let cls : BitVec 8 := (if f.kind != .store then 1 else 0) + (if f.kind.writesMem then 2 else 0)
  let cls := (if !f.scalar && m = 0 then 0 else cls) ||| rowClasses p f.srcs dregs
  s.opened p ((f.srcs ++ dregs).map (·.1)) (f.scals ++ (regsOfDest f.dst).2 ++ [2 * f.pair, 2 * f.pair + 1]) fun s =>
  s.unlessHeld p (reason 1 (s.fenced p cls || (cls != 0 && s.writesOut p)) ||| s.roomReason p |||
      reason 3 ((destRows p f.dst).any (s.rowBlocked p) || acc.any (fun r => s.rowBlocked p r.1))) fun s =>
      let base := w.pair (2 * f.pair)
      let as : List (Nat × DWord) :=
        if f.scalar then [(0, State.address base (w.sget f.off).toNat f.size f.imm)]
        else (lanesOf m).map (fun l => (l, State.address base (s.vget p f.off l).toNat f.size f.imm))
      match s.locate p f.size f.need as with
      | (.bad c d l a, s) => s.halt p c d (if f.scalar then 0 else maskOf (fun x => x == l)) a
      | (.missed ms, s) =>
        (s.addMisses p (if f.kind = .store then .write else .read) f.scalar ms).faultStall p (ms.map (fun x => x.2 / 65536))
      | (.at_ pas, s) =>
        let s := s.modWave p (fun w => { w with missed := [] })
        if (s.racing p acc).length ≠ 0 then s.trapHere p 0x0008 0x00FF (lanesIn p (f.srcs ++ dregs) (s.racing p acc))
        else s.consume p f.srcs fun s =>
          (if f.kind.writesMem then s.outGate p else fun go => go s) fun s => f.issue (s.markRows p acc) p as pas

namespace State

/-- A vector load (R174). -/
def vload (s : State) (p d o q i size : Nat) : State :=
  s.memForm p { off := o, pair := q, imm := i, size := size, kind := .load, dst := .vec d (size == 8),
                srcs := [(o, (s.wave p).activeMask)] }

/-- The value a vector store writes for a lane. -/
def storeData (s : State) (p v : Nat) (two : Bool) (l : Nat) : DWord :=
  if two then s.vget p (v + 1) l ++ s.vget p v l else (s.vget p v l).setWidth 64

/-- A vector store (R174). -/
def vstore (s : State) (p v o q i size : Nat) : State :=
  let m := (s.wave p).activeMask
  s.memForm p { off := o, pair := q, imm := i, size := size, kind := .store,
                srcs := [(o, m), (v, m)] ++ (if size = 8 then [(v + 1, m)] else []),
                data := s.storeData p v (size == 8) }

/-- A scalar load (R174). -/
def sload (s : State) (p d o q i size : Nat) : State :=
  s.memForm p { off := o, pair := q, imm := i, size := size, scalar := true, kind := .load, dst := .scal d (size == 8), scals := [o] }

/-- A scalar store (R174). -/
def sstore (s : State) (p v o q i size : Nat) : State :=
  s.memForm p { off := o, pair := q, imm := i, size := size, scalar := true, kind := .store,
                scals := [o, v] ++ (if size = 8 then [v + 1] else []),
                data := fun _ => if size = 8 then (s.wave p).pair v else ((s.wave p).sget v).setWidth 64 }

/-- VAMO and VAMOC (R175). -/
def vatomic (s : State) (p d o q i c : Nat) (kind : OpKind) (w64 : Bool) : State :=
  let m := (s.wave p).activeMask
  let two : Nat → Regs := fun v => (v, m) :: (if w64 then [(v + 1, m)] else [])
  s.memForm p { n := 2, off := o, pair := q, imm := i, size := if w64 then 8 else 4, kind := kind, dst := .vec d w64,
                srcs := (o, m) :: two c ++ (if kind = .amoc then two d else []),
                data := s.storeData p c w64, cmp := s.storeData p d w64 }

end State

def execVldb (d o q i : Nat) (s : State) : Host.Outcome State Fault Refusal := onWave s fun p => s.vload p d o q i 1
def execVldh (d o q i : Nat) (s : State) : Host.Outcome State Fault Refusal := onWave s fun p => s.vload p d o q i 2
def execVldw (d o q i : Nat) (s : State) : Host.Outcome State Fault Refusal := onWave s fun p => s.vload p d o q i 4
def execVldd (d o q i : Nat) (s : State) : Host.Outcome State Fault Refusal := onWave s fun p => s.vload p d o q i 8
def execVstb (v o q i : Nat) (s : State) : Host.Outcome State Fault Refusal := onWave s fun p => s.vstore p v o q i 1
def execVsth (v o q i : Nat) (s : State) : Host.Outcome State Fault Refusal := onWave s fun p => s.vstore p v o q i 2
def execVstw (v o q i : Nat) (s : State) : Host.Outcome State Fault Refusal := onWave s fun p => s.vstore p v o q i 4
def execVstd (v o q i : Nat) (s : State) : Host.Outcome State Fault Refusal := onWave s fun p => s.vstore p v o q i 8
def execSldw (d o q i : Nat) (s : State) : Host.Outcome State Fault Refusal := onWave s fun p => s.sload p d o q i 4
def execSldd (d o q i : Nat) (s : State) : Host.Outcome State Fault Refusal := onWave s fun p => s.sload p d o q i 8
def execSstw (v o q i : Nat) (s : State) : Host.Outcome State Fault Refusal := onWave s fun p => s.sstore p v o q i 4
def execSstd (v o q i : Nat) (s : State) : Host.Outcome State Fault Refusal := onWave s fun p => s.sstore p v o q i 8

/-- The scope of an atomic has no further effect: each is indivisible at every scope (R175). -/
def execVamo (d o q i op c : Nat) (w64 : Bool) (s : State) : Host.Outcome State Fault Refusal := onWave s fun p =>
  s.vatomic p d o q i c (.amo op) w64
def execVamoc (d o q i c : Nat) (w64 : Bool) (s : State) : Host.Outcome State Fault Refusal := onWave s fun p =>
  s.vatomic p d o q i c .amoc w64

/-- FENCE holds later accesses until the earlier ones are performed; each is performed at every scope at once (R177, R210). -/
def execFence (pred succ : BitVec 8) (s : State) : Host.Outcome State Fault Refusal := onWave s fun p =>
  let ids := s.idsOf p pred
  s.modWave p (fun w => { w.advance 1 with
    fences := (w.fences.filter (fun f => f.ids.any s.outstanding)) ++
              (if succ = 0 ∨ ids.length = 0 then [] else [{ succ := succ, ids := ids }]) })

/-! ### Completion (R50, R68, R99, R100, R210) -/

namespace State

/-- Writes the destination of a completed operation. -/
def writeDest (s : State) (o : Op) : State :=
  match o.dst with
  | .none => s
  | .vec d pair =>
    o.lanes.foldl (fun s (a : LaneAcc) =>
      let s := s.putElem (velem o.party d a.lane) (a.value.setWidth 32) false
      if pair then s.putElem (velem o.party (d + 1) a.lane) ((a.value >>> 32).setWidth 32) false else s) s
  | .scal d pair =>
    match o.lanes with
    | a :: _ => s.modWave o.party (fun w => if pair then w.putPair d a.value else w.sput d (a.value.setWidth 32))
    | [] => s

/-- The digest records of an atomic (R295). -/
def writtenRecords (o : Op) : List (DWord × DWord) :=
  o.lanes.filterMap (fun a => if a.poison then none else (o.written a).map (fun v =>
    (if o.kind.memory then a.va else BitVec.ofNat 64 (0xFC00000000000000 + o.handle * 2 ^ 40 + (a.va.toInt % (2 ^ 32 : Nat)).toNat), v)))

def logKind : OpKind → Nat
  | .load => 1
  | .amo _ => 2
  | .amoc => 2
  | _ => 3

/-- The conditions of a special function: flg, and a trap that is due (R99, R100). -/
def takeConds (s : State) (o : Op) : State :=
  s.modWave o.party (fun w => { w with
    flg := w.flg ||| orFlags o.conds,
    due := if orFlags o.conds &&& o.enables = 0 then w.due else w.due ++
      [{ flag := o.flag, conds := orFlags o.conds &&& o.enables, lanes := trapping o.conds o.enables, flags := o.conds }] })

/-- What an operation raises after its wave has ended still counts in the run's record (R99, R300). -/
def lateConds (s : State) (o : Op) : State :=
  let w := s.wave o.party
  if w.status = .running then s
  else
    let s := s.modBlock w.blk (fun b => { b with rflags := b.rflags ||| orFlags o.conds })
    let b := s.block w.blk
    if b.ended then s.lateCounts b (fun j => { j with flgr := b.rflags }) else s

/-- Everything of a returning operation is in hand: it writes its destination, or kills the wave (R50, R285). -/
def completeOp (s : State) (o : Op) : State :=
  let bad := o.lanes.filter (·.poison)
  let blk := (s.wave o.party).blk
  let s := if o.out then s.foldLate o.party blk (writtenRecords o) else s
  let s := match o.seq with
    | some q => s.logReserved o.party q (logKind o.kind) ((o.lanes.map (fun (a : LaneAcc) => a.va)).headD 0)
                  (o.lanes.flatMap (fun (a : LaneAcc) => pairWords a.va a.value))
    | none => s
  if bad.length ≠ 0 then
    let s := s.finishOp o
    if (s.wave o.party).status = .running then s.kill o.party bad.length (if o.scalar then 0 else maskOf (fun l => bad.any (fun a => a.lane == l))) else s
  else
    let s := ((s.writeDest o).takeConds o).lateConds o
    (s.finishOp o).endIfEmpty o.party

end State

/-- The end of a wave that an operation would bring, by poison or by an empty presence mask, comes after the form of the wave that
missed (R173, R228). -/
def State.endsEarly (s : State) (o : Op) : Bool :=
  let w := s.wave o.party
  decide (w.status = .running) && w.unfinished && (o.lanes.any (·.poison) ||
    (match o.dst with | .scal d _ => decide (59 ≤ d) && decide (d < 63) | _ => false))

/-- A returning operation completes: the lanes left are performed in order and every destination is written (R68). -/
def execReturningOperationComplete (op : Nat) (s : State) : Host.Outcome State Fault Refusal :=
  match s.ops.find? (fun o => o.id == op) with
  | none => .refused (.notEnabled "RETURNING_OPERATION_COMPLETE")
  | some o =>
    if o.dst = .none then .refused (.notEnabled "RETURNING_OPERATION_COMPLETE")
    else match s.stepLanes op ((o.lanes.filter (fun a => !a.done)).map (·.lane)) with
      | none => .refused (.notEnabled "RETURNING_OPERATION_COMPLETE")
      | some s' =>
        let o' := (s'.ops.find? (fun x => x.id == op)).getD o
        when "RETURNING_OPERATION_COMPLETE" (!s'.endsEarly o') (s'.completeOp o')

/-- One write of a non-returning operation is performed, through a handle or to the ceiling a row of them (R205); with the last the
flag falls (R68, R210). An operation with no write left is done. -/
def execStorePerformed (op lane : Nat) (s : State) : Host.Outcome State Fault Refusal :=
  match s.ops.find? (fun o => o.id == op) with
  | none => .refused (.notEnabled "STORE_PERFORMED")
  | some o =>
    if o.dst ≠ .none then .refused (.notEnabled "STORE_PERFORMED")
    else if o.lanes.length = 0 then .next (s.finishOp o)
    else match s.stepRow op lane with
      | none => .refused (.notEnabled "STORE_PERFORMED")
      | some s =>
        let left := o.lanes.filter (fun a => !(Op.together o lane).contains a.lane)
        if left.length = 0 then .next (s.finishOp o)
        else .next { s with ops := s.ops.map (fun x => if x.id = op then { x with lanes := left } else x) }

end Sys2Proof.Machine
end

