-- ==== Sys2Proof/Machine/Copy.lean ====
section
/-! DEFINITION. Copy and gather engines, copy tags, pinned handles, the scale-out window (R178 to R187, R324). -/

namespace Sys2Proof.Machine

/-! ### Pinned handles (R179) and ranges (R181) -/

/-- A valid entry of the pinned handle table. -/
structure Pinned where
  base : Nat
  len : Nat
  wr : Bool
  rd : Bool

namespace State

/-- The entry of a memory handle, if it is valid (R179). That a nonzero bit 96 makes it invalid is the model's choice (assumption 126). -/
def pinned (s : State) (p h : Nat) : Option Pinned :=
  let e := s.load ((s.launch (s.wave p).lid).hdr.htbl + 16 * h) 16
  let base := bitsOf e 63 0
  let len := bitsOf e 95 64
  if 4096 ≤ h ∨ !bitOf e 99 ∨ bitsOf e 127 100 ≠ 0 ∨ bitOf e 96 ∨ base % 128 ≠ 0 ∨ len % 128 ≠ 0 ∨ 2 ^ 39 ≤ base ∨ 2 ^ 39 < base + len
  then none else some { base := base, len := len, wr := bitOf e 98, rd := bitOf e 97 }

end State

/-- The first error code of a list of checks, 0 where all pass (R182). -/
def firstCode (cs : List Nat) : Nat := cs.foldl (fun a c => if c = 0 then a else if a = 0 then c else min a c) 0

/-- The codes of byte ranges of a handle: HANDLE, BOUNDS, PERM (R182). -/
def memCode (h : Option Pinned) (ranges : List (Nat × Nat)) (write : Bool) : Nat :=
  match h with
  | none => 1
  | some e => if ranges.any (fun r => decide (e.len < r.1 + r.2)) then 2 else if (if write then e.wr else e.rd) then 0 else 3

namespace State

/-- The codes of a row range in a space (R166, R181): ACCESS, OPERAND. A ceiling range that starts in a granted bay and runs past x = 98,303
has code 6: the model's choice (R37, assumption 76). -/
def rowCode (s : State) (p : Nat) (sp : CpSpace) (first n : Nat) : Nat :=
  match sp with
  | .slot => if n = 0 ∨ 768 < first + n then 6 else 0
  | .common => if (commonRow (s.block (s.wave p).blk) first n).isSome then 0 else 6
  | .ceil =>
    if (List.range 3).any (fun b => decide (0 < n) && decide (first < 32768 * (b + 1)) && decide (32768 * b < first + n) &&
        (s.core (coreOf p)).grants.get none b != some (s.wave p).lid) then 4
    else if n = 0 ∨ 98304 < first + n then 6 else 0

/-- The key of the first row of a range that passed its check. -/
def firstRow (s : State) (p : Nat) (sp : CpSpace) (first n : Nat) : Nat :=
  match sp with
  | .slot => slotRow p first
  | .common => rowKey (coreOf p) ((commonRow (s.block (s.wave p).blk) first n).getD 0)
  | .ceil => ceilRow (coreOf p) first

/-! ### Tags (R178) -/

/-- A tag's state; its bit of the core's bitmap is set in Done and Error. -/
def setTag (s : State) (c t : Nat) (st : TagState) : State :=
  s.modCore c (fun k => { k with
    tags := k.tags.set .idle t st,
    tagBits := if st = .idle ∨ st = .busy then k.tagBits &&& ~~~((1 : BitVec 64) <<< t) else k.tagBits ||| (1 : BitVec 64) <<< t })

/-- The state of a block tag of the wave. -/
def tagOf (s : State) (p i : Nat) : TagState :=
  let b := s.block (s.wave p).blk
  (s.core b.core).tags.get .idle (b.tags.getD i 64)

/-- A command on a tag: range, state, fences; `go` gets the core's number of the tag (R178). -/
def onTag (s : State) (p sb tag : Nat) (regs vecs : List Nat) (cls : BitVec 8) (go : State → Nat → State) : State :=
  s.opened p vecs (regs.map (sb + ·)) fun s =>
    let b := s.block (s.wave p).blk
    if b.tags.length ≤ tag then s.halt p 0x1B tag
    else match s.tagOf p tag with
      | .error c => s.halt p 0x1A (256 * tag + c)
      | .busy => s.demoted p 5
      | _ => if s.fenced p cls then s.stall p 1 else go s (b.tags.getD tag 0)

/-- A command whose issue check failed: its tag is in Error, the wave goes on (R178, R182). -/
def tagError (s : State) (p t code : Nat) : State :=
  (s.setTag (coreOf p) t (.error code)).modWave p (·.advance 1)

/-- A row that a command may not mark for its writes yet (R46, R218). -/
def markHeld (s : State) (p row : Nat) : Bool := s.rowHeld row || s.readTouch p row

/-- The rows queued at a copy engine. -/
def queuedRows (s : State) (c : Nat) (e : Engine) : Nat :=
  ((s.copies.filter (fun x => x.core == c && x.engine == e)).map (fun x => (x.items.filter (fun i => !i.done)).length)).sum

/-- The copy engine with fewer rows queued, the lower-numbered on a tie (R182). -/
def copyEngine (s : State) (c : Nat) : Engine := if s.queuedRows c .copy1 < s.queuedRows c .copy0 then .copy1 else .copy0

/-- Issues a command: Busy, rows pending; one with nothing to move is complete at once (R68, R178, R182). -/
def issueCopy (s : State) (c : CopyCmd) : State :=
  if c.items.length = 0 then (s.setTag c.core c.tag (if c.code = 0 then .done else .error c.code)).modWave c.party (·.advance 1)
  else
    let id := s.nextId
    let s : State := { s with nextId := id + 1, copies := s.copies ++ [{ c with id := id }] }
    ((s.pend id c.rows).setTag c.core c.tag .busy).modWave c.party (·.advance 1)

/-- What a replay delivers of a transfer that ended in error in the original run: its items so far and the code (R178, R298). -/
def servedCut (s : State) (p : Nat) (c : CopyCmd) : CopyCmd :=
  let w := s.wave p
  match (((jobOf (s.runOf p)).bind s.job?).bind (fun j => j.cuts.find? (fun x => x.1 == w.num && x.2.1 == w.seq))).map (·.2.2) with
  | some (n, code) => { c with items := c.items.take n, code := code }
  | none => c

/-- Sources of a command: it holds while one is pending, and not for an earlier write through a handle (R218, AW → CI); a race puts
the tag in Error with code 8 (R182). -/
def sourceRows (s : State) (p t : Nat) (rows : List Nat) (go : State → State) : State :=
  if rows.any s.rowHeld then s.stall p 1
  else if (s.racing p (rows.map (fun r => (r, false)))).length ≠ 0 then s.tagError p t 8
  else go (s.markRows p (rows.map (fun r => (r, false))))

end State

/-- The digest records of an output of words at an address (R295). -/
def recordsFrom (a : Nat) (ws : List Word) : List (DWord × DWord) :=
  (List.range ((ws.length + 1) / 2)).map (fun k =>
    (BitVec.ofNat 64 (a + 8 * k), ws.getD (2 * k + 1) 0 ++ ws.getD (2 * k) 0))

/-- Records in ascending order of their addresses, those of one address as they stood (R295). -/
def byAddress (l : List (DWord × DWord)) : List (DWord × DWord) := l.mergeSort (fun a b => decide (a.1.toNat ≤ b.1.toNat))

/-! ### CPIN, CPOUT, CPRR (R180 to R183) -/

def execCpin (sb tag : Nat) (sp : CpSpace) (s : State) : Host.Outcome State Fault Refusal := onWave s fun p =>
  s.onTag p sb tag [0, 1, 2, 3] [] 0x30 fun s t =>
    let w := s.wave p
    let off := (w.sget (sb + 1)).toNat
    let first := (w.sget (sb + 2)).toNat
    let n := (w.sget (sb + 3)).toNat
    let h := s.pinned p (w.sget sb).toNat
    let code := firstCode [memCode h [(off, 128 * n)] false, s.rowCode p sp first n, if off % 4 = 0 then 0 else 6]
    if code ≠ 0 then s.tagError p t code
    else
      let pa := (h.map (·.base)).getD 0 + off
      let row := s.firstRow p sp first n
      let rows := (List.range n).map (row + ·)
      if rows.any (s.markHeld p) then s.stall p 3
      else
        let cmd : CopyCmd :=
          { id := 0, kind := .cpin, engine := s.copyEngine (coreOf p), core := coreOf p, party := p, lid := w.lid, tag := t, btag := tag,
            rows := rows, source := BitVec.ofNat 64 pa,
            items := (List.range n).map (fun i =>
              { src := some (.mem (pa + 128 * i)), dst := .row (row + i), n := 128, idx := BitVec.ofNat 64 (pa + 128 * i) }) }
        if s.runOf p ≠ .original then
          match s.served? p 4 (BitVec.ofNat 64 pa) (fun _ => true) with
          | none => s.endEarly p
          | some d =>
            (s.modWave p (fun w => { w with seq := w.seq + 1 })).issueCopy (s.servedCut p
              { cmd with items := cmd.items.zipIdx.map (fun x => { x.1 with src := none, data := (d.drop (32 * x.2)).take 32 }) })
        else
          let r := s.reserveSeq p
          r.2.issueCopy { cmd with seqNo := r.1.getD 0 }

def execCpout (sb tag : Nat) (sp : CpSpace) (s : State) : Host.Outcome State Fault Refusal := onWave s fun p =>
  s.onTag p sb tag [0, 1, 2, 3] [] 0x30 fun s t =>
    let w := s.wave p
    let off := (w.sget (sb + 1)).toNat
    let first := (w.sget (sb + 2)).toNat
    let n := (w.sget (sb + 3)).toNat
    let h := s.pinned p (w.sget sb).toNat
    let code := firstCode [memCode h [(off, 128 * n)] true, s.rowCode p sp first n, if off % 4 = 0 then 0 else 6]
    if code ≠ 0 then s.tagError p t code
    else
      let pa := (h.map (·.base)).getD 0 + off
      if s.codeLocked pa (128 * n) then s.halt p 0x17 1 0 (BitVec.ofNat 64 pa)
      else
        let row := s.firstRow p sp first n
        let rows := (List.range n).map (row + ·)
        s.outGate p fun s => s.sourceRows p t rows fun s =>
          let s := s.foldOut p (rows.zipIdx.flatMap (fun x => recordsFrom (0x4000000000000000 + pa + 128 * x.2) (s.rowWords x.1)))
          s.issueCopy
            { id := 0, kind := .cpout, engine := s.copyEngine (coreOf p), core := coreOf p, party := p, lid := w.lid, tag := t, btag := tag,
              items := if s.runOf p ≠ .original then [] else rows.zipIdx.map (fun x =>
                { dst := .mem (pa + 128 * x.2), n := 128, data := s.rowWords x.1, poison := s.rowPoison x.1 }) }

/-- ADIT of R182: the handle is not Attached, the range leaves the adit, or writing is not permitted (R54). -/
def aditCode (s : State) (p hn : Nat) (idx : List Int) (write : Bool) : Nat :=
  let h := (s.wave p).handles.get {} hn
  if 16 ≤ hn then 6
  else if h.state ≠ .attached ∨ idx.any (fun e => decide (e < 0) || decide ((32 * h.rows : Nat) ≤ e)) ∨ (write ∧ !h.xch ∧ h.exporter ≠ p) then 5
  else 0

/-- A replay reaches no rows beyond its block (R186, R297). -/
def beyondReplay (s : State) (p hn : Nat) : Bool :=
  s.runOf p != .original && outsideBlock s p (.handle hn)

/-- The address half of an output through a handle (R295). -/
def handleRecord (hn : Nat) (e : Int) : Nat := 0xFC00000000000000 + hn * 2 ^ 40 + (e % (2 ^ 32 : Nat)).toNat

def execCprr (sb tag : Nat) (common : Bool) (s : State) : Host.Outcome State Fault Refusal := onWave s fun p =>
  s.onTag p sb tag [0, 1, 2, 3] [] 0x18 fun s t =>
    let w := s.wave p
    let hn := (w.sget sb).toNat
    let dst := (w.sget (sb + 1)).toNat
    let first := (w.sget (sb + 2)).toNat
    let n := (w.sget (sb + 3)).toNat
    let sp := if common then CpSpace.common else CpSpace.slot
    let ends : List Int := if n = 0 then [] else [(32 * dst : Nat), (32 * (dst + n) - 1 : Nat)]
    let code := firstCode [aditCode s p hn ends true, s.rowCode p sp first n]
    if code ≠ 0 then s.tagError p t code
    else
      let h := w.handles.get {} hn
      let row := s.firstRow p sp first n
      let rows := (List.range n).map (row + ·)
      let into := (List.range n).map (fun i => rowKey (coreOf h.exporter) (h.first + dst + i))
      let here := coreOf h.exporter == coreOf p
      if !beyondReplay s p hn && ((here && into.any s.rowHeld) || into.any (s.handleTouch p)) then s.stall p 3
      else s.outGate p fun s => s.sourceRows p t rows fun s =>
        let s := s.foldOut p (byAddress (rows.zipIdx.flatMap (fun x =>
          recordsFrom (handleRecord hn (32 * (dst + x.2) : Nat)) (s.rowWords x.1))))
        s.issueCopy
          { id := 0, kind := .cprr, engine := s.copyEngine (coreOf p), core := coreOf p, party := p, lid := w.lid, tag := t, btag := tag,
            handle := hn, exporter := h.exporter, entry := h.entry, rows := if here && !beyondReplay s p hn then into else [],
            items := if beyondReplay s p hn then [] else (rows.zip into).map (fun x =>
              { dst := .row x.2, n := 128, data := s.rowWords x.1, poison := s.rowPoison x.1 }) }

/-! ### GATH and SCAT (R180 to R183) -/

/-- Each active lane's place: a byte offset in the region, or an element index of the adit. -/
def State.gatherPlaces (s : State) (p sb : Nat) (adit : Bool) (sz vi : Nat) : List (Nat × Int) :=
  let w := s.wave p
  (lanesOf w.activeMask).map (fun l =>
    (l, if adit then (w.sget (sb + 1)).toInt + (s.vget p vi l).toInt
        else ((w.sget (sb + 1)).toNat + (s.vget p vi l).toNat * 2 ^ sz : Nat)))

/-- The error code of a gather or scatter at issue. -/
def State.gatherCode (s : State) (p sb : Nat) (adit : Bool) (sz vi : Nat) (write : Bool) : Nat :=
  let w := s.wave p
  let hn := (w.sget sb).toNat
  let places := s.gatherPlaces p sb adit sz vi
  firstCode [
    if adit then aditCode s p hn (places.map (·.2)) write
    else memCode (s.pinned p hn) (places.map (fun x => (x.2.toNat, 2 ^ sz))) write,
    if !adit && (w.sget (sb + 1)).toNat % 2 ^ sz != 0 then 6 else 0,
    if (w.sget (sb + 2)).toNat ≤ (if sz = 3 then 254 else 255) then 0 else 6]

/-- The key of an element of an adit. -/
def aditElem (h : Handle) (e : Int) : Nat := elemKey (rowKey (coreOf h.exporter) h.first) 0 + e.toNat

/-- GATH; with no active lane it waits for its destination rows to clear and is Done at once (R183). That a race at its index register is
the wave's own trap, cause 8 with detail 0xFF, as it is at SCAT's, is the model's choice (R182, assumption 121). -/
def execGath (sb tag : Nat) (adit : Bool) (sz vi : Nat) (s : State) : Host.Outcome State Fault Refusal := onWave s fun p =>
  s.onTag p sb tag [0, 1, 2] [vi] (if adit then 0x34 else 0x30) fun s t =>
    let w := s.wave p
    let m := w.activeMask
    let hn := (w.sget sb).toNat
    let code := s.gatherCode p sb adit sz vi false
    let dst : Dest := .vec (w.sget (sb + 2)).toNat (sz == 3)
    let places := s.gatherPlaces p sb adit sz vi
    if code = 0 ∧ (accesses p [(vi, m)] []).all (fun r => !s.rowBlocked p r.1) ∧ ((State.destRows p dst).any (s.markHeld p) ∨
       (adit ∧ places.any (fun x => s.handleTouch p (aditElem (w.handles.get {} hn) x.2 / 32)))) then s.stall p 3
    else s.direct p [(vi, m)] [] [] fun s =>
      if code ≠ 0 then s.tagError p t code
      else
        let h := w.handles.get {} hn
        let base := ((s.pinned p hn).map (·.base)).getD 0
        let item : Nat × Int → CopyItem := fun x =>
          { src := some (if adit then .elem (aditElem h x.2) else .mem (base + x.2.toNat)),
            dst := .elem (velem p (w.sget (sb + 2)).toNat x.1), n := 2 ^ sz,
            idx := if adit then BitVec.ofInt 64 x.2 else BitVec.ofNat 64 (base + x.2.toNat), lane := x.1 }
        let items := places.map item
        let src : DWord := if adit then (items.map (fun (i : CopyItem) => i.idx)).headD 0 else BitVec.ofNat 64 (base + (w.sget (sb + 1)).toNat)
        let cmd : CopyCmd :=
          { id := 0, kind := .gath, engine := .gather, core := coreOf p, party := p, lid := w.lid, tag := t, btag := tag, items := items,
            rows := if m = 0 then [] else State.destRows p dst, handle := if adit then hn else 16, exporter := h.exporter, entry := h.entry,
            source := src }
        if m = 0 then s.issueCopy cmd
        else if s.runOf p ≠ .original then
          match s.served? p 5 src (fun d => pairKeys d == items.map (fun (i : CopyItem) => (i.idx.setWidth 32, (i.idx >>> 32).setWidth 32))) with
          | none => s.endEarly p
          | some d =>
            (s.modWave p (fun w => { w with seq := w.seq + 1 })).issueCopy (s.servedCut p { cmd with
              items := (items.zip (pairValues d)).map (fun x =>
                { x.1 with src := none, data := [x.2.setWidth 32, (x.2 >>> 32).setWidth 32] }) })
        else
          let r := s.reserveSeq p
          r.2.issueCopy { cmd with seqNo := r.1.getD 0 }

/-- SCAT; a race at its index register is the wave's own trap, as at GATH's (assumption 121). -/
def execScat (sb tag : Nat) (adit : Bool) (sz vi : Nat) (s : State) : Host.Outcome State Fault Refusal := onWave s fun p =>
  s.onTag p sb tag [0, 1, 2] [vi] (if adit then 0x18 else 0x30) fun s t =>
    let w := s.wave p
    let m := w.activeMask
    let hn := (w.sget sb).toNat
    let v := (w.sget (sb + 2)).toNat
    let code := s.gatherCode p sb adit sz vi true
    let h := w.handles.get {} hn
    let base := ((s.pinned p hn).map (·.base)).getD 0
    let places := s.gatherPlaces p sb adit sz vi
    let off := adit && beyondReplay s p hn
    if (accesses p [(vi, m)] []).any (fun r => s.rowBlocked p r.1) then s.stall p 3
    else if code = 0 ∧ adit ∧ !off ∧ ((coreOf h.exporter = coreOf p ∧ places.any (fun x => s.rowHeld (aditElem h x.2 / 32))) ∨
       places.any (fun x => s.handleTouch p (aditElem h x.2 / 32))) then s.stall p 3
    else if code = 0 ∧ !adit ∧ places.any (fun x => s.codeLocked (base + x.2.toNat) (2 ^ sz)) then
      s.halt p 0x17 1 0 (BitVec.ofNat 64 (base + ((places.find? (fun x => s.codeLocked (base + x.2.toNat) (2 ^ sz))).map (·.2.toNat)).getD 0))
    else if code = 0 ∧ (rowsOf p ((v, m) :: (if sz = 3 then [(v + 1, m)] else []))).any s.rowHeld then s.stall p 1
    else s.direct p [(vi, m)] [] [] fun s =>
      if code ≠ 0 then s.tagError p t code
      else s.outGate p fun s => s.sourceRows p t (rowsOf p ((v, m) :: (if sz = 3 then [(v + 1, m)] else []))) fun s =>
        let words : Nat → List Word := fun l => if sz = 3 then [s.vget p v l, s.vget p (v + 1) l] else [s.vget p v l]
        let bad : Nat → List Bool := fun l =>
          if sz = 3 then [s.poisoned (velem p v l), s.poisoned (velem p (v + 1) l)] else [s.poisoned (velem p v l)]
        let value : Nat → DWord := fun l => (words l).getD 1 0 ++ (words l).getD 0 0
        let s := s.foldOut p (places.map (fun x =>
          (BitVec.ofNat 64 (if adit then handleRecord hn x.2 else 0x4000000000000000 + base + x.2.toNat),
           value x.1 &&& BitVec.ofNat 64 (2 ^ (8 * 2 ^ sz) - 1))))
        s.issueCopy
          { id := 0, kind := .scat, engine := .gather, core := coreOf p, party := p, lid := w.lid, tag := t, btag := tag,
            handle := if adit then hn else 16, exporter := h.exporter, entry := h.entry,
            items := if off || (!adit && s.runOf p != .original) then [] else places.map (fun x =>
              { dst := if adit then .elem (aditElem h x.2) else .mem (base + x.2.toNat), n := 2 ^ sz,
                data := words x.1, poison := bad x.1, lane := x.1 }) }

/-! ### Deliveries (R46, R182, R183, R324) -/

/-- The aperture of a physical address in the scale-out window (R324); the entry's layout is of assumption 20. -/
def State.aperture (s : State) (pa : Nat) : Option Nat :=
  let e := s.cw (0x23000 + 32 * ((pa - memTop) / 2 ^ 31)) 32
  if bitOf e 28 && (List.range 16).any (fun i => bitOf e i && (s.ports.get {} i).up) then
    some (bitsOf e 27 16 * 2 ^ 64 + bitsOf e 127 64 + (pa - memTop) % 2 ^ 31)
  else none

/-- The register rows that an item writes. -/
def CopyItem.rows (i : CopyItem) (k : CopyKind) : List Nat :=
  match i.dst with
  | .row r => [r]
  | .puts r _ => [r]
  | .elem e => (e / 32) :: (if k = .gath ∧ i.n = 8 then [(e + 96) / 32] else [])
  | .mem _ => []

/-- The bytes of words. -/
def wordBytes (ws : List Word) (n : Nat) : List Byte := (ws.flatMap (fun w => leBytes 4 w.toNat)).take n

/-- Little-endian words of bytes, the last padded with zeros. -/
def wordsOf (bs : List Byte) : List Word :=
  (List.range ((bs.length + 3) / 4)).map (fun i => BitVec.ofNat 32 (leNat ((bs.drop (4 * i)).take 4)))

namespace State

/-- One word of device memory or of an aperture, with its poison; none where the aperture is invalid (R324). -/
def readWord (s : State) (pa n : Nat) : Option (Word × Bool) :=
  if memTop ≤ pa then
    (s.aperture pa).map (fun r => (BitVec.ofNat 32 (leNat ((List.range n).map (fun j => Config.remoteByte s.tick (r + j)))), false))
  else some (BitVec.ofNat 32 (s.load pa n), s.loadPoison pa n)

/-- The word addresses of an item in memory: each lies in one aperture or in device memory. -/
def itemAddrs (i : CopyItem) (pa : Nat) : List Nat := (List.range ((i.n + 3) / 4)).map (fun j => pa + 4 * j)

/-- The source of an item: its words with their poison, or none where an aperture is invalid. -/
def readItem (s : State) (i : CopyItem) : Option (List Word × List Bool) :=
  match i.src with
  | none => some (i.data, i.poison)
  | some (.mem pa) => (((itemAddrs i pa).mapM (fun a => s.readWord a (min 4 i.n)))).map (fun ws => (ws.map (·.1), ws.map (·.2)))
  | some (.row r) => some (s.rowWords r, s.rowPoison r)
  | some (.elem e) => some ([s.elem e], [s.poisoned e])
  | some (.puts r _) => some (s.rowWords r, s.rowPoison r)

/-- The row accesses of an item: the first element of a row makes them for the command (R55); those of an intake were made at its
issue (R245). -/
def itemAccesses (c : CopyCmd) (n : Nat) (i : CopyItem) : List (Nat × Bool) :=
  let earlier := c.items.take n
  let srcRow : CopyItem → List Nat := fun i => match i.src with | some (.elem e) => [e / 32] | _ => []
  if c.kind = .intake then [] else
  ((srcRow i).filter (fun r => !earlier.any (fun x => (srcRow x).contains r))).map (fun r => (r, false)) ++
  ((i.rows c.kind).filter (fun r => !earlier.any (fun x => (x.rows c.kind).contains r))).map (fun r => (r, true))

/-- Writes an item where it goes; poison goes with it (R50). -/
def writeItem (s : State) (c : CopyCmd) (i : CopyItem) (ws : List Word) (bad : List Bool) : State :=
  match i.dst with
  | .row r => s.putRow r 0 ws bad
  | .puts _ es => es.foldl (fun s e => s.putElem e.1 e.2 false) s
  | .elem e =>
    let s := s.putElem e (ws.getD 0 0) (bad.getD 0 false)
    if c.kind = .gath ∧ i.n = 8 then s.putElem (e + 96) (ws.getD 1 0) (bad.getD 1 false) else s
  | .mem pa =>
    let s := s.store pa ((wordBytes ws i.n).take (memTop - pa))
    bad.zipIdx.foldl (fun s b => if b.1 && decide (pa + 4 * b.2 < memTop) then s.storePoison (pa + 4 * b.2) (min 4 i.n) else s) s

/-- A command ends: its rows clear, its tag is Done or in Error, its log entry is made (R178, R182, R294). The entry of a GATH has a
pair for each active lane; a lane that an error left without its element has a free value there (assumption 96). -/
def endCopy (s : State) (c : CopyCmd) (code : Nat) : State :=
  let s := { s with copies := s.copies.filter (fun x => x.id != c.id) }.unpend c.id c.rows
  let got := c.items.filter (·.done)
  let cut : State → State := fun s =>
    let w := s.wave c.party
    let b := s.block w.blk
    if code ≠ 0 ∧ b.run = .original ∧ b.logging then s.modJob b.job (fun j => { j with cuts := j.cuts ++ [(w.num, c.seqNo, got.length, code)] })
    else s
  let tag : State → State := fun s => s.setTag c.core c.tag (if code = 0 then .done else .error code)
  match c.kind with
  | .cpin => cut ((tag s).logReserved c.party c.seqNo 4 c.source (got.flatMap (·.data)))
  | .gath =>
    let value : CopyItem → DWord := fun i => if i.done then i.data.getD 1 0 ++ i.data.getD 0 0 else Config.unread (s.tick * 128 + i.lane)
    cut ((tag s).logReserved c.party c.seqNo 5 c.source (c.items.flatMap (fun i => pairWords i.idx (value i))))
  | .intake => s
  | _ => tag s

/-- An item is written: rows that it finishes clear, and the last one ends the command. -/
def itemDone (s : State) (c : CopyCmd) (n : Nat) (ws : List Word) (poison : Bool) : State :=
  let items := c.items.zipIdx.map (fun x => if x.2 = n then { x.1 with done := true, data := ws } else x.1)
  let c := { c with items := items, code := if poison ∧ c.code = 0 then 7 else c.code }
  if items.all (·.done) then s.endCopy c c.code
  else
    let left := (items.filter (fun i => !i.done)).flatMap (fun i => i.rows c.kind)
    let s := s.unpend c.id (((items.getD n { dst := .mem 0, n := 0 }).rows c.kind).filter (fun r => !left.contains r))
    { s with copies := s.copies.map (fun x => if x.id = c.id then c else x) }

/-- The halt line has reached the core of an engine: it stops at its row or element boundary (R281). -/
def lineAt (s : State) (lid core : Nat) : Bool :=
  match (s.launch lid).halt with
  | some h => h.reached.contains core
  | none => false

/-- A row that an item of a command reads through a handle or writes is free for it; the first item of the command at a row makes the
access to it (R46, R47, R217). -/
def itemRow (s : State) (c : CopyCmd) (n r : Nat) : Bool :=
  if c.rows.contains r then (s.info r).owner == c.id
  else if (c.items.take n).any (fun x => State.itemTouches { x with done := false } r) then !s.rowPending r else !s.rowHeld r

/-- An item may move: the earlier ones are done, its context is not stopped, its rows are free for it, and through a handle the wave's
earlier accesses are performed. -/
def itemReady (s : State) (c : CopyCmd) (n : Nat) (i : CopyItem) : Bool :=
  !i.done && !i.sent && !s.lineAt c.lid c.core && (c.items.take n).all (fun x => x.done || x.sent) &&
  (c.kind != .cprr || !c.rows.isEmpty) &&
  (decide (16 ≤ c.handle) || !s.accessBefore c.party c.id) &&
  (i.rows c.kind).all (s.itemRow c n) && (match i.src with | some (.elem e) => s.itemRow c n (e / 32) | _ => true)

end State

/-- A copy or gather engine moves one row or element, or an intake delivers one row (R183, R245). What of it lies in the scale-out
window is sent to its package, and the item ends with the acknowledgement (R324). That a race ends a transfer which has carried poison
with code 8, not 7, is the model's choice (assumption 129). -/
def execEngineRowDelivery (cmd item : Nat) (s : State) : Host.Outcome State Fault Refusal :=
  match s.copies.find? (fun c => c.id == cmd) with
  | none => .refused (.notEnabled "ENGINE_ROW_DELIVERY")
  | some c =>
    match c.items[item]? with
    | none => .refused (.notEnabled "ENGINE_ROW_DELIVERY")
    | some i =>
      if !s.itemReady c item i then .refused (.notEnabled "ENGINE_ROW_DELIVERY")
      else if (s.racing c.party (State.itemAccesses c item i)).length ≠ 0 then .next (s.endCopy c 8)
      else match s.readItem i with
        | none => .next (s.endCopy c 9)
        | some (ws, bad) =>
          let far : List Nat := match i.dst with | .mem pa => (State.itemAddrs i pa).filter (fun a => decide (memTop ≤ a)) | _ => []
          if far.any (fun a => (s.aperture a).isNone) then .next (s.endCopy c 9)
          else
            let s := (s.markRows c.party (State.itemAccesses c item i)).writeItem c i ws bad
            if far.length = 0 then .next (s.itemDone c item ws (bad.any id))
            else
              let items := c.items.zipIdx.map (fun x => if x.2 = item then { x.1 with sent := true } else x.1)
              .next { s with copies := s.copies.map (fun x => if x.id = cmd then { c with items := items } else x) }

/-- The remote package has performed a write (R324). -/
def execRemoteWriteAck (cmd item : Nat) (s : State) : Host.Outcome State Fault Refusal :=
  match s.copies.find? (fun c => c.id == cmd) with
  | none => .refused (.notEnabled "REMOTE_WRITE_ACK")
  | some c =>
    match c.items[item]? with
    | none => .refused (.notEnabled "REMOTE_WRITE_ACK")
    | some i => when "REMOTE_WRITE_ACK" (i.sent && !i.done) (s.itemDone c item i.data (i.poison.any id))

/-- A transfer whose retransmissions fail ends with LINK (R324). -/
def execRemoteRetransmissionFailure (cmd : Nat) (s : State) : Host.Outcome State Fault Refusal :=
  match s.copies.find? (fun c => c.id == cmd) with
  | none => .refused (.notEnabled "REMOTE_RETRANSMISSION_FAILURE")
  | some c =>
    let far : CopyItem → Bool := fun i => !i.done &&
      (i.sent || (match i.src with | some (.mem pa) => decide (memTop < pa + i.n) | _ => false))
    when "REMOTE_RETRANSMISSION_FAILURE" (c.items.any far) (s.endCopy c 9)

/-! ### The tag forms (R184, R185) -/

namespace State

/-- The block tags that a mask names (R178). -/
def namedTags (s : State) (p a : Nat) : List Nat :=
  (List.range (s.block (s.wave p).blk).tags.length).filter (fun i => ((s.wave p).pair a).getLsbD i)

/-- Block tags in a state. -/
def tagMap (s : State) (p : Nat) (f : TagState → Bool) : Nat :=
  ((List.range (s.block (s.wave p).blk).tags.length).map (fun i => if f (s.tagOf p i) then 2 ^ i else 0)).sum

/-- The copy-error fault for a block tag (R185). -/
def copyError (s : State) (p i : Nat) : State :=
  match s.tagOf p i with
  | .error c => s.halt p 0x1A (256 * i + c)
  | _ => s

end State

def isError : TagState → Bool
  | .error _ => true
  | _ => false

/-- A tag form writes one value, as a status form does (R186). -/
def State.tagValue (s : State) (p d : Nat) (v : Nat) : State :=
  s.statusForm p [BitVec.ofNat 32 v] fun s vs => (s.modWave p (fun w => (w.sput d (vs.getD 0 0)).advance 1)).endIfEmpty p

def execTwall (a : Nat) (s : State) : Host.Outcome State Fault Refusal := onWave s fun p =>
  s.opened p [] [a, a + 1] fun s =>
    let ts := s.namedTags p a
    if ts.any (fun i => s.tagOf p i == .busy) then s.demoted p 5
    else match ts.find? (fun i => isError (s.tagOf p i)) with
      | some i => s.copyError p i
      | none => s.modWave p (·.advance 1)

/-- The tags among which TWANY waits: the named ones; in a replay the one whose number the log holds (R184, R186). -/
def State.anyOf (s : State) (p : Nat) (ts : List Nat) : List Nat :=
  if s.runOf p = .original then ts else [(((s.served? p 8 0 (fun d => d.length == 1)).map (fun (d : List Word) => d.getD 0 0)).getD 64).toNat]

def execTwany (d a : Nat) (s : State) : Host.Outcome State Fault Refusal := onWave s fun p =>
  s.opened p [] [d, a, a + 1] fun s =>
    let ts := s.namedTags p a
    if ts.length = 0 then s.tagValue p d 64
    else match (s.anyOf p ts).find? (fun i => s.tagOf p i != .busy) with
      | none => s.demoted p 5
      | some i => if isError (s.tagOf p i) then s.copyError p i else s.tagValue p d i

def execTffr (d a : Nat) (s : State) : Host.Outcome State Fault Refusal := onWave s fun p =>
  s.opened p [] [d, a, a + 1] fun s =>
    s.tagValue p d (((s.namedTags p a).find? (fun i => s.tagOf p i == .done || isError (s.tagOf p i))).getD 64)

def execTclr (a : Nat) (s : State) : Host.Outcome State Fault Refusal := onWave s fun p =>
  s.opened p [] [a, a + 1] fun s =>
    let b := s.block (s.wave p).blk
    ((s.namedTags p a).foldl (fun s i => if s.tagOf p i = .busy then s else s.setTag b.core (b.tags.getD i 64) .idle) s).modWave p (·.advance 1)

def execTstat (d sel : Nat) (s : State) : Host.Outcome State Fault Refusal := onWave s fun p =>
  s.opened p [] [d, d + 1] fun s =>
    let n := (s.block (s.wave p).blk).tags.length
    let v : Nat :=
      if sel = 0 then s.tagMap p (· == .done)
      else if sel = 1 then s.tagMap p isError
      else if sel = 2 then s.tagMap p (· == .busy)
      else match (List.range n).find? (fun i => isError (s.tagOf p i)) with
        | some i => 256 * i + (match s.tagOf p i with | .error c => c | _ => 0)
        | none => 0
    s.statusForm p [BitVec.ofNat 32 v, BitVec.ofNat 32 (v / 2 ^ 32)] fun s vs =>
      (s.modWave p (fun w => ((w.sput d (vs.getD 0 0)).sput (d + 1) (vs.getD 1 0)).advance 1)).endIfEmpty p

end Sys2Proof.Machine
end

