-- ==== Sys2Proof/Machine/Slots.lean ====
section
/-! DEFINITION. Slots, blocks and contexts given back: SLOT_RELEASE and the release of a halted context (R25, R35, R281). -/

namespace Sys2Proof.Machine

namespace State

/-- Nothing is in flight for a wave or against the rows of its slot, a scrub among them (R25, assumption 81). -/
def waveQuiet (s : State) (p : Nat) : Bool :=
  s.ops.all (fun o => o.party != p) && s.copies.all (fun c => c.party != p) && s.remotes.all (fun r => r.op.party != p) &&
  (s.bayCmds (coreOf p)).all (fun c => !c.parties.contains p) && (s.core (coreOf p)).geodeQ.all (fun g => g.party != p) &&
  !s.slotPending p && (s.wave p).adits.all (fun e => !e.2.scrub && e.2.state != .draining && (e.2.state == .free || !s.aditBusy p e.1))

/-- Nothing is in flight on the units and common slots of a block (R25, R178, R189). -/
def blockQuiet (s : State) (b : Block) : Bool :=
  s.copies.all (fun c => c.core != b.core || !b.tags.contains c.tag) &&
  b.bays.all (fun y => (s.bay b.core y).queue.isEmpty &&
    (s.core b.core).forced.all (fun f => f.row / 256 != 768 + y)) &&
  (s.core b.core).geodeQ.all (fun q => !b.geodes.contains q.g) &&
  b.common.all (fun e => !s.slotPending (128 * b.core + (e.2.1 - 1)))

/-- A block gives back its common slots, tags, geodes and bays (R35, R178, R189). -/
def releaseBlock (s : State) (b : Block) : State :=
  let s : State := { s with blocks := s.blocks.filter (fun x => x.id != b.id) }
  (b.tags.foldl (fun s t => s.setTag b.core t .idle) s).modCore b.core (fun c => { c with
    geodes := b.geodes.foldl (fun m g => m.erase g) c.geodes,
    bays := b.bays.foldl (fun m y => m.set {} y { m.get {} y with holder := none }) c.bays })

/-- The other slots of a block's waves have been released. -/
def lastSlot (s : State) (b : Block) (p : Nat) : Bool :=
  b.parties.all (fun e => e.2 == p || (s.wave e.2).blk != b.id || (s.wave e.2).status == .absent)

/-- The waves of a context. -/
def wavesOf (s : State) (lid : Nat) : List (Nat × Wave) := s.waves.filter (fun w => w.2.lid == lid && w.2.status != .absent)

/-- A halted context gives back all that it holds (R281). -/
def releaseContext (s : State) (lid : Nat) : State :=
  let s := (s.blocks.filter (fun b => b.lid == lid)).foldl (fun s b => s.releaseBlock b) s
  let s : State := { s with waves := s.waves.filter (fun w => w.2.lid != lid) }
  (s.modLaunch lid (fun l => { l with binds := [] })).ungrant lid

end State

/-- The slot of an ended wave is released, and with the last one its block (R25). -/
def execSlotRelease (p : Nat) (s : State) : Host.Outcome State Fault Refusal :=
  let w := s.wave p
  let b := s.block w.blk
  let last := b.ended && s.lastSlot b p
  let s' := s.setWave p {}
  when "SLOT_RELEASE" ((w.status == .ended || w.status == .killed) && s.waveQuiet p && (!last || s.blockQuiet b))
    (if last then
      let s' := s'.releaseBlock b
      if b.run = .original then s'.ungrant b.lid
      else (s'.modLaunch b.lid (fun l => { l with prog := .ended })).ungrant b.lid
     else s')

end Sys2Proof.Machine
end

