-- ==== Sys2Proof/Machine/Stream.lean ====
section
/-! DEFINITION. The stream forms and the entries of the watermark unit (R231, R232, R237, R241 to R249, R262, R263). -/

namespace Sys2Proof.Machine

/-! ### Checks (R241, R249) -/

/-- Bits of a control scalar that must be 0. -/
def ctlReserved (v : Nat) : Bool := bitsOf v 7 6 != 0 || bitsOf v 31 14 != 0
def ctlStream (v : Nat) : Nat := bitsOf v 5 0
def ctlSource (v : Nat) : Nat := bitsOf v 11 8
def ctlBinding (v : Nat) : Nat := bitsOf v 13 12

namespace State

/-- The launch may enter into a source: a device source of its own that is not its output (R249). A replay enters
nothing, and its original has passed the check. -/
def ownSource (s : State) (p v : Nat) : Bool :=
  let w := s.wave p
  let h := (s.launch w.lid).hdr
  let x : Source := (s.stream (ctlStream v)).srcs.get {} (ctlSource v)
  s.runOf p != .original ||
  (decide (x.kind = .device w.lid) && !(h.out && h.ostr == ctlStream v && h.osrc == ctlSource v))

/-- WMRD may name the stream, its source and the binding that it reads (R249). -/
def readable (s : State) (p v sel : Nat) : Bool :=
  let w := s.wave p
  let h := (s.launch w.lid).hdr
  let t := s.stream (ctlStream v)
  s.runOf p != .original ||
  ((t.srcs.any (fun x => decide (x.2.kind = .device w.lid)) || h.binds.any (fun b => b.strm == ctlStream v) ||
      (h.out && h.ostr == ctlStream v)) &&
   (sel != 1 || decide ((t.srcs.get {} (ctlSource v)).kind ≠ .none)) && (sel != 2 || decide (ctlBinding v < h.binds.length)))

/-- A form on a source (R249). -/
def onSource (s : State) (p a : Nat) (go : State → Nat → State) : State :=
  let v := ((s.wave p).sget a).toNat
  if ctlReserved v || !s.ownSource p v then s.halt p 0x21 (ctlBinding v) else go s v

/-- A form on a binding that the wave's block serves (R249). -/
def onBinding (s : State) (p bnd : Nat) (go : State → BindDesc → State) : State :=
  let w := s.wave p
  let h := (s.launch w.lid).hdr
  let d := h.binds.getD bnd {}
  if h.std ∧ bnd < h.binds.length ∧ (s.block w.blk).index.toNat = d.sblk then go s d else s.halt p 0x21 bnd

/-- A form that reads stream input: logged with its source, or served in a replay (R262, R294). -/
def inputForm (s : State) (p kind src : Nat) (vals : List Word) (fits : List Word → Bool) (apply : State → List Word → State) : State :=
  if s.runOf p = .original then apply (s.logIn p kind (BitVec.ofNat 64 src) vals) vals
  else match s.served? p kind (BitVec.ofNat 64 src) fits with
    | some d => apply (s.modWave p (fun w => { w with seq := w.seq + 1 })) d
    | none => s.endEarly p

end State

/-! ### Records out (R230, R242, R247, R295) -/

/-- The digest records of stream records from number `n` on (R295). -/
def streamRecords (ctl n : Nat) (recs : List (List Word)) : List (DWord × DWord) :=
  recs.zipIdx.flatMap (fun r => (List.range 8).map (fun k =>
    (BitVec.ofNat 64 (0xFE00000000000000 + ctl % 2 ^ 14 * 2 ^ 34 + (64 * (n + r.2) + 8 * k) % 2 ^ 34),
     r.1.getD (2 * k + 1) 0 ++ r.1.getD (2 * k) 0)))

namespace State

/-- Folds records that entered, and counts them. -/
def foldRecords (s : State) (p ctl : Nat) (recs : List (List Word)) : State :=
  (s.foldOut p (streamRecords ctl (s.wave p).nrec recs)).modWave p (fun w => { w with nrec := w.nrec + recs.length })

/-- The records of the active lanes: words of v(r) to v(r + 15). -/
def laneRecords (s : State) (p r : Nat) : List (List Word) :=
  (lanesOf (s.wave p).activeMask).map (fun l => (List.range 16).map (fun j => s.vget p (r + j) l))

def recordRegs (s : State) (p r : Nat) : Regs := (List.range 16).map (fun j => (r + j, (s.wave p).activeMask))

/-- The record registers of WEMIT, WPUB and WAMD are engine reads, held while their rows are pending and by a FENCE over CR or CW;
poison among them kills the wave (R47, R49, R50, R249). That a race on one traps as the wave's direct access, cause 8, detail 0xFF, is the
model's choice (assumption 121). -/
def recordSources (s : State) (p : Nat) (srcs : Regs) (go : State → State) : State :=
  s.unlessHeld p (reason 1 (s.fenced p 0x30) ||| reason 3 ((accesses p srcs []).any (fun r => s.rowHeld r.1))) fun s =>
    s.accessRows p srcs [] fun s => s.consume p srcs go

/-- Sends a request to the unit, for which the wave waits. -/
def askUnit (s : State) (p d ctl : Nat) (work : UWork) : State :=
  let id := s.nextId
  let s : State := { s with nextId := id + 1, unitQ := s.unitQ ++ [{ id := id, work := work, source := .wave p, ctl := ctl }] }
  s.modWave p (fun w => { w with wait := .unit id d, reasons := 0x02 })

/-- The status of a form of `n` words reaches s(d). -/
def giveStatus (s : State) (p d n : Nat) (v : Word) : State :=
  (s.modWave p (fun w => { (w.sput d v).advance n with wait := .none, readySince := s.clock })).endIfEmpty p

/-- What stands in the place of a control scalar for a publication (R295). -/
def publishCtl (s : State) (p bnd : Nat) : Nat :=
  let h := (s.launch (s.wave p).lid).hdr
  h.ostr + 256 * h.osrc + 4096 * bnd

/-- What the log names as the source of a binding form: its stream and the binding, as a control scalar holds them. -/
def bindCtl (d : BindDesc) (bnd : Nat) : Nat := d.strm + 4096 * bnd

end State

def execWemit (r a d : Nat) (s : State) : Host.Outcome State Fault Refusal := onWave s fun p =>
  s.opened p [] [a, d] fun s => s.onSource p a fun s ctl =>
    s.outGate p fun s => s.recordSources p (s.recordRegs p r) fun s =>
      let recs := s.laneRecords p r
      if s.runOf p ≠ .original then
        s.inputForm p 8 ctl [] (fun v => v.length == 1) fun s vs =>
          (s.foldRecords p ctl (recs.take ((vs.getD 0 0).toNat % 256))).giveStatus p d 1 (vs.getD 0 0)
      else if recs.isEmpty then (s.logIn p 8 (BitVec.ofNat 64 ctl) [0]).giveStatus p d 1 0
      else s.askUnit p d ctl (.records (ctlStream ctl) (ctlSource ctl) recs 0)

def execWmadv (d a q : Nat) (s : State) : Host.Outcome State Fault Refusal := onWave s fun p =>
  s.opened p [] [d, a, q, q + 1] fun s => s.onSource p a fun s ctl => s.outGate p fun s =>
    let x := (s.wave p).pair q
    let s := s.foldOut p [(BitVec.ofNat 64 (0xFB00000000000000 + ctl % 2 ^ 14), x)]
    if s.runOf p ≠ .original then
      s.inputForm p 8 ctl [] (fun v => v.length == 1) fun s vs => s.giveStatus p d 1 (vs.getD 0 0)
    else s.askUnit p d ctl (.advance (ctlStream ctl) (ctlSource ctl) x)

def execWmidl (d a : Nat) (s : State) : Host.Outcome State Fault Refusal := onWave s fun p =>
  s.opened p [] [d, a] fun s => s.onSource p a fun s ctl =>
    if s.runOf p ≠ .original then
      s.inputForm p 8 ctl [] (fun v => v.length == 1) fun s vs => s.giveStatus p d 1 (vs.getD 0 0)
    else s.askUnit p d ctl (.idle (ctlStream ctl) (ctlSource ctl))

/-- The value WMRD reads (R244). -/
def State.markValue (s : State) (p v sel : Nat) : DWord :=
  let t := s.stream (ctlStream v)
  let x : Source := t.srcs.get {} (ctlSource v)
  match sel with
  | 0 => t.w
  | 1 => (x.ws &&& 0x7FFFFFFFFFFFFFFF) ||| (if x.idle && !x.ws.getLsbD 63 then 0x8000000000000000 else 0)
  | 2 => BitVec.ofNat 64 (s.binding (s.wave p).lid (ctlBinding v)).disc
  | _ => BitVec.ofNat 64 t.refusals

def execWmrd (d a sel : Nat) (s : State) : Host.Outcome State Fault Refusal := onWave s fun p =>
  s.opened p [] [d, d + 1, a] fun s =>
    let v := ((s.wave p).sget a).toNat
    if ctlReserved v || !s.readable p v sel then s.halt p 0x21 (ctlBinding v)
    else
      let x := s.markValue p v sel
      s.inputForm p 8 v [x.setWidth 32, (x >>> 32).setWidth 32] (fun v => v.length == 2) fun s vs =>
        (s.modWave p (fun w => ((w.sput d (vs.getD 0 0)).sput (d + 1) (vs.getD 1 0)).advance 1)).endIfEmpty p

/-! ### Records in (R237, R240, R245, R246) -/

/-- A record is available at once, or at the latest 64 cycles after the unit took it (R237, assumption 16). -/
def State.available (s : State) (e : QEntry) : Bool :=
  decide (e.since.toNat + 64 ≤ s.clock.toNat) || Config.recordAvailable (s.tick * 2 ^ 32 + e.id)

/-- The late path's order: every window of the entry has had its notice taken (R237). -/
def Binding.lateFree (b : Binding) (e : QEntry) : Bool :=
  (List.range 4).all (fun i => !e.mask.getLsbD i || b.windows.get .none (e.j0 + i) != .fired)

/-- A binding has ended (R240). -/
def State.bindingOver (s : State) (b : Binding) : Bool := (s.stream b.desc.strm).over && b.notices.isEmpty

/-- The entries of a queue that can be taken now; none once the binding has ended (R237, R240). -/
def State.takeable (s : State) (b : Binding) (late : Bool) : List QEntry :=
  if s.bindingOver b then [] else if late then b.late.takeWhile (fun e => s.available e && b.lateFree e) else b.onTime.takeWhile s.available

/-- The notice that WNEXT may return (R237). -/
def Binding.notice (b : Binding) : Option Notice :=
  match b.notices with
  | n :: _ => if n.after ≤ b.taken then some n else none
  | [] => none

/-- The registers of an intake: v(r) to v(r + 15), v(w), v(w + 1) in the active lanes. -/
def intakeRegs (r w : Nat) (m : LaneMask) : Regs := ((List.range 16).map (fun j => (r + j, m))) ++ [(w, m), (w + 1, m)]

/-- What an intake writes, in register order: for each record register the filled lanes, then v(w), v(w + 1), s(d). -/
def intakeWords (es : List QEntry) (n : Nat) : List Word :=
  (List.range 16).flatMap (fun j => es.map (fun e => e.words.getD j 0)) ++ es.map (fun e => BitVec.ofNat 32 e.j0) ++
  (List.range n).map (fun i => match es[i]? with | some e => e.mask.setWidth 32 | none => 0) ++ [BitVec.ofNat 32 es.length]

/-- The elements that an intake writes, from its words, in register order. Where v(w) or v(w + 1) is one of the record registers, j0 and
then the mask stand: the model's choice (R245, assumption 141). -/
def intakePuts (p r w : Nat) (m : LaneMask) (vs : List Word) : List (Nat × Word) :=
  let k := (vs.getLast?.getD 0).toNat
  let ls := lanesOf m
  (List.range 16).flatMap (fun j => (ls.take k).zipIdx.map (fun x => (velem p (r + j) x.1, vs.getD (j * k + x.2) 0))) ++
  (ls.take k).zipIdx.map (fun x => (velem p w x.1, vs.getD (16 * k + x.2) 0)) ++
  ls.zipIdx.map (fun x => (velem p (w + 1) x.1, vs.getD (17 * k + x.2) 0))

/-- The rows of the destination registers of an intake. -/
def intakeRows (p r w : Nat) : List Nat :=
  ((intakeRegs r w 0).flatMap (fun x => (List.range 3).map (vrow p x.1))).dedup

/-- Issues the deliveries of an intake: all rows of its registers are pending until they are written; the count reaches s(d) at
issue (R46, R245, assumption 38). -/
def State.issueIntake (s : State) (p r w d : Nat) (m : LaneMask) (vs : List Word) : State :=
  let rows := intakeRows p r w
  let puts := intakePuts p r w m vs
  let cmd : CopyCmd :=
    { id := s.nextId, kind := .intake, engine := .gather, core := coreOf p, party := p, lid := (s.wave p).lid, tag := 64, btag := 64,
      rows := rows, items := rows.map (fun row => { dst := .puts row (puts.filter (fun e => e.1 / 32 == row)), n := 128 }) }
  let s : State := { s with nextId := s.nextId + 1, copies := s.copies ++ [cmd] }.pend cmd.id rows
  (s.modWave p (fun w => (w.sput d (vs.getLast?.getD 0)).advance 2)).endIfEmpty p

/-- WRECV and WLATE (R245, R263). The deliveries are engine writes: a register of theirs that is open holds the form, as any pending
row does (R46, R47, R77). An intake whose rows race completes with its rows unwritten, its entries queued and the count 0. -/
def State.intake (s : State) (p r w d bnd : Nat) (wait late : Bool) : State :=
  let m := (s.wave p).activeMask
  let n := (lanesOf m).length
  let acc := accesses p [] (intakeRegs r w m)
  s.opened p [] [d] fun s => s.onBinding p bnd fun s ds =>
    let b := s.binding (s.wave p).lid bnd
    let es := (s.takeable b late).take n
    let count : State → Word → State := fun s v => (s.modWave p (fun w => (w.sput d v).advance 2)).endIfEmpty p
    s.unlessHeld p (reason 1 (s.fenced p 0x20) ||| reason 3 ((intakeRows p r w).any s.rowHeld)) fun s =>
      if s.runOf p = .original ∧ wait ∧ n ≠ 0 ∧ es.isEmpty ∧ b.notice.isNone ∧ !s.bindingOver b then
        s.demoted p 5
      else if (s.racing p acc).length ≠ 0 then
        s.inputForm p 9 (State.bindCtl ds bnd) [0] (fun v => v == [0]) fun s _ => count s 0
      else
        s.inputForm p 9 (State.bindCtl ds bnd) (intakeWords es n)
          (fun v => v == [0] || v.length == 17 * (v.getLast?.getD 0).toNat + n + 1) fun s vs =>
          if vs == [0] then count s 0
          else
            let s := if s.runOf p = .original then
                s.setBinding (s.wave p).lid bnd (if late then { b with late := b.late.drop es.length }
                  else { b with onTime := b.onTime.drop es.length, taken := b.taken + es.length })
              else s
            (s.markRows p acc).issueIntake p r w d m vs

def execWrecv (r w d bnd : Nat) (wait : Bool) (s : State) : Host.Outcome State Fault Refusal := onWave s fun p =>
  s.intake p r w d bnd wait false

def execWlate (r w d bnd : Nat) (wait : Bool) (s : State) : Host.Outcome State Fault Refusal := onWave s fun p =>
  s.intake p r w d bnd wait true

/-- WNEXT (R246). -/
def execWnext (d bnd : Nat) (wait : Bool) (s : State) : Host.Outcome State Fault Refusal := onWave s fun p =>
  s.opened p [] [d, d + 1] fun s => s.onBinding p bnd fun s ds =>
    let lid := (s.wave p).lid
    let b := s.binding lid bnd
    let give : List Word → (State → State) → State := fun vs f =>
      s.inputForm p 9 (State.bindCtl ds bnd) vs (fun v => v.length == 2) fun s vs =>
        ((f s).modWave p (fun w => ((w.sput d (vs.getD 0 0)).sput (d + 1) (vs.getD 1 0)).advance 1)).endIfEmpty p
    if s.runOf p ≠ .original then give [] id
    else match b.notice with
      | some n => give [BitVec.ofNat 32 n.j, 0] (fun s => s.setBinding lid bnd { b with
          notices := b.notices.tail, windows := b.windows.set .none n.j .taken })
      | none =>
        if s.bindingOver b then give [0, 2] id
        else if wait then s.demoted p 5 else give [0, 1] id

/-! ### Publication and release (R247, R248) -/

/-- The revision that a publication of the original run entered, for its replay. -/
def State.servedRev (s : State) (p : Nat) : Nat :=
  let w := s.wave p
  (((jobOf (s.runOf p)).bind s.job?).bind (fun j => (j.revs.find? (fun x => x.1 == w.num && x.2.1 == w.seq)).map (·.2.2))).getD 0

/-- WPUB and WAMD (R247). -/
def State.publication (s : State) (p r a d bnd : Nat) (amend : Bool) : State :=
  s.opened p [] [a, d] fun s => s.onBinding p bnd fun s ds =>
    s.outGate p fun s => s.recordSources p (s.recordRegs p r) fun s =>
      let recs := s.laneRecords p r
      let j := ((s.wave p).sget a).toNat
      let ctl := s.publishCtl p bnd
      if s.runOf p ≠ .original then
        let rev := s.servedRev p
        s.inputForm p 8 ctl [] (fun v => v.length == 1) fun s vs =>
          let s := if vs.getD 0 1 = 0 then s.foldRecords p ctl (recs.map (fun x => State.stamped x (ds.windowEnd j) rev)) else s
          s.giveStatus p d 2 (vs.getD 0 0)
      else s.askUnit p d ctl (.publish (s.wave p).lid bnd j amend recs)

def execWpub (r a d bnd : Nat) (s : State) : Host.Outcome State Fault Refusal := onWave s fun p =>
  s.publication p r a d bnd false

def execWamd (r a d bnd : Nat) (s : State) : Host.Outcome State Fault Refusal := onWave s fun p =>
  s.publication p r a d bnd true

def execWrel (d a bnd : Nat) (s : State) : Host.Outcome State Fault Refusal := onWave s fun p =>
  s.opened p [] [d, a] fun s => s.onBinding p bnd fun s ds =>
    let r := if s.runOf p = .original then s.enterRelease (s.wave p).lid bnd ((s.wave p).sget a).toNat else (0, s)
    r.2.inputForm p 8 (State.bindCtl ds bnd) [BitVec.ofNat 32 r.1] (fun v => v.length == 1) fun s vs =>
      (s.modWave p (fun w => (w.sput d (vs.getD 0 0)).advance 1)).endIfEmpty p

/-! ### Entries of the unit (R231) -/

namespace State

/-- A request of the same wave, module or port that came earlier. -/
def sameSource (a b : USource) : Bool :=
  match a, b with
  | .wave p, .wave q => p == q
  | .host m, .host n => m.module == n.module
  | .port p, .port q => p == q
  | _, _ => false

/-- The unit's answer to a request: records that entered, and the status. -/
def answer (s : State) (u : UReq) (recs : List (List Word)) (n status : Nat) (rev : Nat) : State :=
  match u.source with
  | .wave p =>
    match (s.wave p).wait with
    | .unit id d =>
      if id = u.id ∧ (s.wave p).status = .running then
        let s := s.foldRecords p u.ctl recs
        let b := s.block (s.wave p).blk
        let s := if b.logging && n == 2 then
            s.modJob b.job (fun j => { j with revs := j.revs ++ [((s.wave p).num, (s.wave p).seq, rev)] }) else s
        (s.logIn p 8 (BitVec.ofNat 64 u.ctl) [BitVec.ofNat 32 status]).giveStatus p d n (BitVec.ofNat 32 status)
      else s
    | _ => s
  | .host m => s.reply m status
  | .port _ => s

def dropReq (s : State) (id : Nat) : State := { s with unitQ := s.unitQ.filter (fun u => u.id != id) }

/-- The unit takes one entry of a request (R231). -/
def takeEntry (s : State) (u : UReq) : State :=
  match u.work with
  | .records st src recs taken =>
    match recs[taken]? with
    | none => (s.dropReq u.id).answer u [] 1 taken 0
    | some r =>
      match s.enterRecord st src r with
      | .ok s =>
        if taken + 1 = recs.length then (s.dropReq u.id).answer u recs 1 (taken + 1) 0
        else { s with unitQ := s.unitQ.map (fun x => if x.id = u.id then { x with work := .records st src recs (taken + 1) } else x) }
      | .error e =>
        let s := match u.source with
          | .port _ => s.modStream st (fun t => { t with refusals := t.refusals + 1 })
          | _ => s
        (s.dropReq u.id).answer u (recs.take taken) 1 (taken + 256 * e) 0
  | .advance st src x =>
    let r := s.enterAdvance st src x
    (r.2.dropReq u.id).answer u [] 1 (if r.1 then 0 else 1) 0
  | .idle st src =>
    let r := s.enterIdle st src
    (r.2.dropReq u.id).answer u [] 1 (if r.1 then 1 else 0) 0
  | .publish lid bnd j amend recs =>
    let e := (s.binding lid bnd).desc.windowEnd j
    let r := s.enterGroup lid bnd j amend recs
    (r.2.2.dropReq u.id).answer u (if r.1 = 0 then recs.map (fun x => stamped x e r.2.1) else []) 2 r.1 r.2.1

end State

/-- The watermark unit takes one entry; entries of one wave, module or port in their order (R231). -/
def execWatermarkUnitEntry (n : Nat) (s : State) : Host.Outcome State Fault Refusal :=
  match s.unitQ[n]? with
  | none => .refused (.notEnabled "WATERMARK_UNIT_ENTRY")
  | some u =>
    when "WATERMARK_UNIT_ENTRY" (!(s.unitQ.take n).any (fun x => State.sameSource x.source u.source)) (s.takeEntry u)

/-- A source without an entry for the idle timeout takes an idle entry (R232). -/
def execIdleTimeout (stream src : Nat) (s : State) : Host.Outcome State Fault Refusal :=
  let t := s.stream stream
  let x : Source := t.srcs.get {} src
  when "IDLE_TIMEOUT" (t.opened && decide (x.kind ≠ .none) && !x.idle &&
      (s.idleTimeouts stream).any (fun n => decide (n ≤ (s.clock - x.last).toNat))) (s.enterIdle stream src).2

/-- A source is fed by a port that is up (R229). -/
def State.portSource (s : State) (port stream src : Nat) : Bool :=
  decide (((s.stream stream).srcs.get {} src).kind = .port port) && (s.ports.get {} port).up

/-- A record from a scale-out port is offered to the unit; one for no source of the port has no effect. -/
def execScaleOutRecord (port stream src : Nat) (rec : List Word) (s : State) : Host.Outcome State Fault Refusal :=
  if s.portSource port stream src && rec.length == 16 then
    .next { s with nextId := s.nextId + 1,
                   unitQ := s.unitQ ++ [{ id := s.nextId, work := .records stream src [rec] 0, source := .port port }] }
  else .next s

/-- An advance from a scale-out port is taken, after what the port delivered before it. -/
def execPortSourceAdvance (port stream src : Nat) (x : DWord) (s : State) : Host.Outcome State Fault Refusal :=
  if !s.portSource port stream src then .next s
  else if s.unitQ.any (fun u => u.source == .port port) then
    .next { s with nextId := s.nextId + 1,
                   unitQ := s.unitQ ++ [{ id := s.nextId, work := .advance stream src x, source := .port port }] }
  else .next (s.enterAdvance stream src x).2

end Sys2Proof.Machine
end

