-- ==== Sys2Proof/Machine/System.lean ====
section
/-! DEFINITION. Barriers, events, launches, tasks, scheduling hints, instruction-cache locks, audit instructions
(R123 to R131). -/

namespace Sys2Proof.Machine

/-! ### Barriers (R123) -/

/-- The status of a generation (R33): 1 from the first abandoned one on. -/
def Block.genStatus (b : Block) (g : Nat) : Nat :=
  match b.abandoned with
  | some a => if a ≤ g then 1 else 0
  | none => 0

/-- The wave's latest arrival belongs to a generation that has not completed. -/
def State.arrivalOpen (s : State) (p : Nat) : Bool :=
  (s.wave p).arrived == some (s.block (s.wave p).blk).gen

/-- Arrives at the current generation with an entry mask, and notes what it must see performed: its accesses but for engine
transfers, and its queued bay and geode commands (R214). -/
def State.arrive (s : State) (p : Nat) (mask : BitVec 16) : State :=
  let w := s.wave p
  let a : Arrival := { mask := mask, ids := s.idsOf p 0xCF ++ ((s.bayCmds (coreOf p)).filter (fun c => c.parties.contains p)).map (·.id) }
  let g := (s.block w.blk).gen
  (s.modBlock w.blk (fun b => { b with arrivals := b.arrivals.set none w.num (some a) })).modWave p
    (fun w => { w with arrived := some g })

/-- Waits for the generation of the latest arrival; status to s(d). -/
def State.awaitGen (s : State) (p d : Nat) : State :=
  s.modWave p (fun w => { w with wait := .barrier d, reasons := 0x40, active := false })

def execBara (mask : BitVec 16) (s : State) : Host.Outcome State Fault Refusal := onWave s fun p =>
  if s.arrivalOpen p then s.demoted p 6 else (s.arrive p mask).modWave p (·.advance 1)

def execBar (d : Nat) (mask : BitVec 16) (s : State) : Host.Outcome State Fault Refusal := onWave s fun p =>
  s.opened p [] [d] fun s => if s.arrivalOpen p then s.demoted p 6 else (s.arrive p mask).awaitGen p d

def execBarw (d : Nat) (s : State) : Host.Outcome State Fault Refusal := onWave s fun p =>
  s.opened p [] [d] fun s =>
    let w := s.wave p
    match w.arrived with
    | none => (s.setWave p ((w.sput d 0).advance 1)).endIfEmpty p
    | some g =>
      if s.arrivalOpen p then s.awaitGen p d
      else
        let st := (s.block w.blk).genStatus g
        (s.setWave p { (w.sput d (BitVec.ofNat 32 st)).advance 1 with abn := st == 1 }).endIfEmpty p

/-! ### Events, launches and tasks (R124 to R126) -/

/-- EVPUB waits until the wave's earlier memory writes are performed, then publishes the block's event (R124). -/
def execEvpub (s : State) : Host.Outcome State Fault Refusal := onWave s fun p =>
  let b := s.block (s.wave p).blk
  let quiet := b.run != .original || b.task || (s.launch b.lid).hdr.noev || b.published
  if quiet then s.modWave p (·.advance 1)
  else if s.idsOf p 0x22 ≠ [] then s.stall p 1
  else ((s.publish b b.err).modBlock b.id (fun b => { b with published := true })).modWave p (·.advance 1)

/-- Sends a launch request and waits for its status (R125). -/
def State.requestLaunch (s : State) (p sb q : Nat) (addr : Option Nat) : State :=
  let w := s.wave p
  let id := s.nextId
  let r : LaunchReq := { id := id, addr := addr, queue := q, ctx := (s.launch w.lid).ctx, source := .wave p,
                         ids := s.idsOf p 0x22 }
  { s with nextId := id + 1, launchReqs := s.launchReqs ++ [r] }.modWave p
    (fun w => { w with wait := .launch id (sb + 3), reasons := 0x02, missed := [], refused := false })

def execLaunch (sb : Nat) (s : State) : Host.Outcome State Fault Refusal := onWave s fun p =>
  s.opened p [] [sb, sb + 1, sb + 2, sb + 3] fun s =>
    let w := s.wave p
    let a := w.pair sb
    let q := (w.sget (sb + 2)).toNat
    if s.runOf p ≠ .original then
      s.statusForm p [0] (fun s vs => (s.modWave p (fun w => (w.sput (sb + 3) (vs.getD 0 0)).advance 1)).endIfEmpty p)
    else if 16 ≤ q ∨ a.toNat % 256 ≠ 0 ∨ 2 ^ 57 ≤ a.toNat ∨ w.refused then s.requestLaunch p sb q none
    else match s.translate (coreOf p) (s.launch w.lid).ctx a.toNat { rd := true } with
      | (.pa pa, s) => s.requestLaunch p sb q (some pa)
      | (.bad 0x17 _, s) => s.requestLaunch p sb q none
      | (.bad c d, s) => s.halt p c d 0 a
      | (.miss, s) => (s.addMiss (coreOf p)
          { va := a.toNat, kind := .read, party := p, lid := w.lid, soft := true, pc := w.pc, k := w.k }).faultStall p [a.toNat / 65536]

/-- The role of the launch's header whose entry is an address (R31). -/
def roleAt (l : Launch) (a : DWord) : Option Role := l.hdr.roles.find? (fun r => a == BitVec.ofNat 64 (l.hdr.img + r.entry))

/-- An address is a role entry of an image (R31, R126). -/
def isEntry (i : Option Image) (a : DWord) : Bool :=
  match i with
  | some i => i.roles.any (fun r => a == BitVec.ofNat 64 (i.base + r.entry))
  | none => false

/-- The status of a TASK with `n` tasks (R31, R126). -/
def State.taskStatus (s : State) (p : Nat) (a : DWord) (n : Nat) : Nat :=
  let l := s.launch (s.wave p).lid
  if n = 0 then 0
  else if !isEntry (s.imageOf? l.lid) a then 3
  else if l.hdr.csl ≠ 0 ∨ l.hdr.bays ≠ 0 ∨ l.hdr.roles.length ≠ 1 ∨ (roleAt l a).map (·.waves) ≠ some 1 then 2
  else if 4096 < (s.core (coreOf p)).tasks.length + n then 1
  else 0

/-- Enqueues one task for each active lane, in lane order (R30, R126). -/
def State.enqueue (s : State) (p r : Nat) (a : DWord) : State :=
  let w := s.wave p
  let l := s.launch w.lid
  let task : Nat × Nat → Task := fun x =>
    { lid := w.lid, entry := a, number := BitVec.ofNat 64 (l.tasks + x.2),
      args := (List.range 16).map (fun j => s.vget p (r + j) x.1), since := s.clock }
  let new := (lanesOf w.activeMask).zipIdx.map task
  (s.modCore (coreOf p) (fun c => { c with tasks := c.tasks ++ new })).modLaunch w.lid (fun l => { l with tasks := l.tasks + new.length })

/-- TASK: with no active lane it writes status 0 and leaves s(sb + 3) as it is (assumption 87); the log holds what it writes (R294). -/
def execTask (sb r : Nat) (s : State) : Host.Outcome State Fault Refusal := onWave s fun p =>
  let m := (s.wave p).activeMask
  s.direct p ((List.range 16).map (fun j => (r + j, m))) [] [sb, sb + 1, sb + 2, sb + 3] fun s =>
    let w := s.wave p
    let a := w.pair sb
    let n := (lanesOf m).length
    let st := s.taskStatus p a n
    let first := (s.launch w.lid).tasks
    let write : State → List Word → State := fun s vs =>
      (s.modWave p (fun w =>
        let w := (w.sput (sb + 2) (vs.getD 0 0)).advance 1
        if vs.getD 0 0 = 0 ∧ n ≠ 0 then w.sput (sb + 3) (vs.getD 1 0) else w)).endIfEmpty p
    let vals : Nat → List Word := fun st => if st = 0 ∧ n ≠ 0 then [BitVec.ofNat 32 st, BitVec.ofNat 32 first] else [BitVec.ofNat 32 st]
    if s.runOf p ≠ .original then
      match s.served? p 8 0 (fun d => d.length == (vals (d.headD 1).toNat).length) with
      | some d => write (s.modWave p (fun w => { w with seq := w.seq + 1 })) d
      | none => s.endEarly p
    else (if st = 0 then s.enqueue p r a else s).statusForm p (vals st) write

/-! ### Scheduling hints (R127) -/

def execYield (s : State) : Host.Outcome State Fault Refusal := onWave s fun p =>
  s.modWave p (fun w => { w.advance 1 with active := false, readySince := s.clock })

def execNap (n : Nat) (s : State) : Host.Outcome State Fault Refusal := onWave s fun p =>
  s.modWave p (fun w =>
    { w.advance 1 with active := false, readySince := s.clock, reasons := if n = 0 then 0 else 1,
                       wait := if n = 0 then .none else .nap (s.clock + BitVec.ofNat 64 n) })

/-! ### Instruction-cache locks (R129) -/

/-- The 128-byte lines that overlap a range. -/
def linesOf (a n : Nat) : List Nat :=
  if n = 0 then [] else (List.range ((a + n - 1) / 128 - a / 128 + 1)).map (fun i => a / 128 + i)

/-- Some byte of a range lies outside the launch's code pages. -/
def outsideCode (i : Option Image) (a n : Nat) : Bool :=
  match i with
  | none => n != 0
  | some i => n != 0 && (decide (a < i.textVa / i.pageSize * i.pageSize) ||
      decide ((i.textVa + i.textLen + i.pageSize - 1) / i.pageSize * i.pageSize < a + n))

/-- ILOCK and IUNLK. A replay's ILOCK must give the original's status, whatever its own core has locked: it is logged with the
statuses of R131 and served (assumption 88). -/
def State.lockForm (s : State) (p sb : Nat) (logged : Bool) (act : State → Nat → Nat → Nat × State) : State :=
  s.opened p [] [sb, sb + 1, sb + 2, sb + 3] fun s =>
    let w := s.wave p
    let a := (w.pair sb).toNat
    let n := (w.sget (sb + 2)).toNat
    let r := if outsideCode (s.imageOf? w.lid) a n then (2, s) else act s a n
    let put : State → List Word → State := fun s vs =>
      (s.modWave p (fun w => (w.sput (sb + 3) (vs.getD 0 0)).advance 1)).endIfEmpty p
    if logged then r.2.statusForm p [BitVec.ofNat 32 r.1] put else put r.2 [BitVec.ofNat 32 r.1]

def execIlock (sb : Nat) (s : State) : Host.Outcome State Fault Refusal := onWave s fun p =>
  s.lockForm p sb true fun s a n =>
    let c := s.core (coreOf p)
    let new := ((linesOf a n).filter (fun x => !c.locks.contains ((s.wave p).lid, x))).map (fun x => ((s.wave p).lid, x))
    if 128 < c.locks.length + new.length then (1, s)
    else (0, s.setCore (coreOf p) { c with locks := c.locks ++ new })

def execIunlk (sb : Nat) (s : State) : Host.Outcome State Fault Refusal := onWave s fun p =>
  s.lockForm p sb false fun s a n =>
    (0, s.modCore (coreOf p) (fun c =>
      { c with locks := c.locks.filter (fun x => !(x.1 == (s.wave p).lid && (linesOf a n).contains x.2)) }))

/-! ### Audit instructions (R130) -/

def execAdrd (d sel : Nat) (s : State) : Host.Outcome State Fault Refusal := onWave s fun p =>
  s.opened p [] [d] fun s =>
    let b := s.block (s.wave p).blk
    let v : Nat := if sel = 0 then (if b.selected then 1 else 0) + (if b.selected && b.logging then 2 else 0)
                   else (s.launch b.lid).hdr.arate
    s.statusForm p [BitVec.ofNat 32 v] fun s vs => (s.modWave p (fun w => (w.sput d (vs.getD 0 0)).advance 1)).endIfEmpty p

def execAdmix (a tag : Nat) (s : State) : Host.Outcome State Fault Refusal := onWave s fun p =>
  let m := (s.wave p).activeMask
  s.outGate p fun s => s.direct p [(a, m)] [] [] fun s =>
    (s.foldOut p ((lanesOf m).map (fun l =>
      (BitVec.ofNat 64 (0xFF00000000000000 + 256 * tag + l), (s.vget p a l).setWidth 64)))).modWave p (·.advance 1)

end Sys2Proof.Machine
end

