-- ==== Sys2Proof/Machine/Issue.lean ====
section
/-! DEFINITION. Issue of clauses, the active and pending sets, lane-cycle records and samples (R63, R69, R77, R100,
R127, R271 to R273). -/

namespace Sys2Proof.Machine

/-! ### Clauses (R63 to R69) -/

namespace State

/-- Enters the body of a clause. -/
def enterBody (s : State) (p : Nat) (hdr : Word) (body : List Word) : State :=
  s.modWave p (fun w => { w with
    hdr := hdr, body := body, k := 1, pc := w.pc + 4, ll := 0, reasons := 0, missed := [], gathered := false,
    gathering := none, flagWaitSince := none })

/-- The wait of a fetched header (R69, R77, R100), which interlocked mode does not take. -/
def headerWait (s : State) (p : Nat) (hdr : Word) (body : List Word) : State :=
  match decodeHeader hdr with
  | .error e => s.halt p 0x10 e.code
  | .ok h =>
    if !s.nativeOf p then s.enterBody p hdr body
    else if (s.wave p).flagsZero h.wait then
      s.closeWait p h.wait (s.wave p).pc 0 (fun s => s.enterBody p hdr body)
    else s.stall p 4

/-- A wave at a header: a debug stop that was asked for takes effect here (R290); else the clause is fetched whole. -/
def issueClause (s : State) (p : Nat) : State :=
  let w := s.wave p
  if w.stopReq then s.setWave p { w with debug := true, stopReq := false, reasons := 0x100 }
  else match s.fetchClause p w.pc with
    | (.stalled va, s) => s.faultStall p [va / 65536]
    | (.failed a k c d, s) => s.haltAt p a k c d
    | (.ok hdr body, s) => (s.modWave p (fun w => { w with missed := [] })).headerWait p hdr body

end State

/-- A wave may issue: nothing that another agent ends holds it, and it is not stopped. -/
def Wave.mayIssue (w : Wave) : Bool :=
  decide (w.status = .running) && decide (w.wait = .none) && (!w.debug || w.stepReq) && w.ppt.isNone && !w.parked

def execClauseIssue (p : Nat) (s : State) : Host.Outcome State Fault Refusal :=
  when "CLAUSE_ISSUE" ((s.wave p).mayIssue && (s.wave p).k == 0 && (s.wave p).trap.isNone) (s.issueClause p)

/-! ### The sets of a pipe (R271) -/

namespace State

/-- The waves of a pipe. -/
def pipeWaves (s : State) (c pipe : Nat) : List (Nat × Wave) :=
  s.waves.filter (fun x => coreOf x.1 == c && x.2.pipe == pipe && x.2.status == .running)

/-- A wave is ready: it may issue, its next word waits for nothing, and its core does not stall (R228, R271). -/
def awake (s : State) (p : Nat) : Bool := (s.wave p).mayIssue && !(s.wave p).waits && !s.coreStalled (coreOf p)

/-- Waiting is counted from the cycle in which a wave becomes ready (R271). -/
def renew (s : State) : State :=
  { s with waves := s.waves.mapVal {} (fun p w => if w.status = .running ∧ !s.awake p then { w with readySince := s.clock } else w) }

/-- The wave that has waited longest, the first of them on a tie. -/
def oldest : List (Nat × Wave) → Option (Nat × Wave)
  | [] => none
  | x :: t => match oldest t with
    | none => some x
    | some y => if y.2.readySince.toNat < x.2.readySince.toNat then some y else some x

/-- The oldest ready wave of the pending set. -/
def oldestPending (s : State) (c pipe : Nat) : Option (Nat × Wave) :=
  oldest ((s.pipeWaves c pipe).filter (fun x => !x.2.active && s.awake x.1))

/-- Places taken in the active set. -/
def activeCount (s : State) (c pipe : Nat) : Nat := ((s.pipeWaves c pipe).filter (fun x => x.2.active)).length

/-- The oldest pending wave takes a free active place, if there are both. -/
def promote (s : State) (c pipe : Nat) : Option State :=
  match s.oldestPending c pipe with
  | some x => if s.activeCount c pipe < 8 then some (s.modWave x.1 (fun w => { w with active := true })) else none
  | none => none

/-- Issues of a wave in the last 64 cycles. -/
def recent (s : State) (w : Wave) : Nat := (w.issues.filter (fun t => decide ((s.clock - t).toNat ≤ 64))).length

/-- The active wave that issued most, and latest on a tie. -/
def busiest (s : State) : List (Nat × Wave) → Option (Nat × Wave)
  | [] => none
  | x :: t => match s.busiest t with
    | none => some x
    | some y =>
      let key : Wave → Nat × Nat := fun w => (s.recent w, (w.issues.headD 0).toNat)
      if (key x.2).1 < (key y.2).1 ∨ ((key x.2).1 = (key y.2).1 ∧ (key x.2).2 < (key y.2).2) then some y else some x

end State

/-- A flag wait of 16 cycles moves the wave to the pending set. -/
def execFlagWaitDemotion (p : Nat) (s : State) : Host.Outcome State Fault Refusal :=
  let w := s.wave p
  let long := match w.flagWaitSince with | some t => decide (16 ≤ (s.clock - t).toNat) | none => false
  when "FLAG_WAIT_DEMOTION" (w.status == .running && w.active && long) (s.setWave p { w with active := false })

/-- NAP ends (R127). -/
def execNapExpiry (p : Nat) (s : State) : Host.Outcome State Fault Refusal :=
  let w := s.wave p
  match w.wait with
  | .nap till => when "NAP_EXPIRY" (decide (till.toNat ≤ s.clock.toNat))
      (s.setWave p { w with wait := .none, reasons := 0, readySince := s.clock })
  | _ => .refused (.notEnabled "NAP_EXPIRY")

/-- A pending wave that has waited more than 256 cycles displaces an active one. -/
def execAgeingDisplacement (core pipe : Nat) (s : State) : Host.Outcome State Fault Refusal :=
  match s.oldestPending core pipe, s.busiest ((s.pipeWaves core pipe).filter (fun x => x.2.active && !x.2.displaced)) with
  | some x, some y =>
    when "AGEING_DISPLACEMENT" (decide (256 < (s.clock - x.2.readySince).toNat) && decide (8 ≤ s.activeCount core pipe))
      ((s.setWave x.1 { x.2 with active := true, displaced := true }).setWave y.1 { y.2 with active := false, readySince := s.clock })
  | _, _ => .refused (.notEnabled "AGEING_DISPLACEMENT")

/-! ### Lane-cycle records (R273) -/

/-- An exchange pattern moves data between beats (R153). -/
def crossesBeats (pat : Pat) (k : Nat) : Bool :=
  match pat with
  | .xor => decide (32 ≤ k)
  | _ => true

/-- Port cycles of a form: four for a cross-beat exchange, three for a vector form, one otherwise, engine and geode commands among them
(R19, R101, R153, R159, R253). -/
def Instr.portCycles : Instr → Nat
  | .vshf _ _ _ pat k | .vshop _ _ _ _ pat k => if crossesBeats pat k then 4 else 3
  | .vsegop .. | .vmatch .. => 4
  | .nsav .. | .nrst .. | .admix ..
  | .vadd .. | .vsub .. | .vmul .. | .vmulh .. | .vfma .. | .vmin .. | .vmax .. | .vabs .. | .vneg .. | .vand .. | .vor ..
  | .vxor .. | .vnot .. | .vshl .. | .vshr .. | .vsra .. | .vcmp .. | .vsel .. | .vmov .. | .vli .. | .vbcs .. | .vcvt ..
  | .vscl .. | .vbfe .. | .vbfi .. | .vpopc .. | .vclz .. | .vdot .. | .vdota .. | .vrcp .. | .vrsq .. | .vsqrt ..
  | .vex2 .. | .vlg2 .. | .vsin .. | .vcos .. | .vlid .. | .vbal .. | .vany .. | .vall .. | .vffs ..
  | .xget .. | .xput .. | .xgetw .. | .xputw .. | .xatm ..
  | .vldb .. | .vldh .. | .vldw .. | .vldd .. | .vstb .. | .vsth .. | .vstw .. | .vstd .. | .vamo .. | .vamoc ..
  | .wemit .. | .wrecv .. | .wlate .. | .wpub .. | .wamd .. => 3
  | .rdsr _ sr => match sr with | .wfield _ => 3 | .wid => 3 | .lane => 3 | _ => 1
  | _ => 1

/-- The vector registers whose rows a form collects in each beat, where it names more than one (R42). -/
def Instr.collected : Instr → List Nat
  | .vadd _ a b | .vsub _ a b | .vmul _ a b | .vmulh _ a b | .vmin _ a b | .vmax _ a b | .vand _ a b | .vor _ a b | .vxor _ a b
  | .vshl _ a b | .vshr _ a b | .vsra _ a b | .vcmp _ a b _ | .vbfi _ a b _ _ | .vdot _ a b | .vsegop _ a b _ _ => [a, b]
  | .vfma _ a b c | .vsel _ a b c => [a, b, c]
  | .vdota d a b => [a, b, d]
  | .vcvt d a tgt src _ => if tgt.count ≤ src.count then [a] else [a, d]
  | .vshf _ a b pat _ | .vshop _ a b _ pat _ => if pat = .index then [a, b] else [a]
  | .xput v o _ => [v, o]
  | .xatm d o c _ op => if op = 9 then [o, c, d] else [o, c]
  | .vstb v o _ _ | .vsth v o _ _ | .vstw v o _ _ => [o, v]
  | .vstd v o _ _ => [o, v, v + 1]
  | .vamo _ o _ _ _ c _ w64 => if w64 then [o, c, c + 1] else [o, c]
  | .vamoc d o _ _ c _ w64 => if w64 then [o, c, c + 1, d, d + 1] else [o, c, d]
  | _ => []

/-- The cycles that bank conflicts add to a form's collection: in each of three beats one for every register beyond the first of a bank.
Two registers fall in one bank in every beat exactly when their numbers agree modulo 16; one that is named twice is read once (R42). -/
def collectCycles (i : Instr) : Nat :=
  let rs := (Instr.collected i).dedup
  3 * (rs.length - (rs.map (· % 16)).dedup.length)

def bankConflict (i : Instr) : Bool := collectCycles i != 0

/-- The range of a record that holds an address, the lowest. -/
def LaneRec.rangeOf (r : LaneRec) (pc : DWord) : Option Nat :=
  (r.ranges.find? (fun e => decide (e.2.1.toNat ≤ pc.toNat) && decide (pc.toNat ≤ e.2.2.toNat))).map (·.1)

/-- Adds to counter `k` of a range: 0 active, 1 nesting-masked, 2 presence-off, 3 idle. -/
def LaneRec.add (r : LaneRec) (i k n : Nat) : LaneRec :=
  { r with counts := r.counts.set 0 (4 * i + k) (r.counts.get 0 (4 * i + k) + BitVec.ofNat 64 n) }

/-- One port cycle of a beat of a wave. -/
def LaneRec.beat (r : LaneRec) (i : Nat) (w : Wave) (b : Nat) : LaneRec :=
  let ls := (List.range 32).map (32 * b + ·)
  let on := ls.filter (fun l => w.present.getLsbD l)
  let act := (on.filter (fun l => decide (w.cnt.get 0 l = 0))).length
  ((r.add i 0 act).add i 1 (on.length - act)).add i 2 (32 - on.length)

namespace State

def modLanes (s : State) (c lid : Nat) (f : LaneRec → LaneRec) : State :=
  s.modCore c (fun k => if (k.lanes.any (fun e => e.1 == lid)) then { k with lanes := k.lanes.set {} lid (f (k.lanes.get {} lid)) } else k)

/-- Counts the port cycles of an instruction at a pc (R273). -/
def countPort (s : State) (p : Nat) (w : Wave) (cycles : Nat) : State :=
  s.modLanes (coreOf p) w.lid (fun r =>
    match r.rangeOf w.pc with
    | none => r
    | some i =>
      if cycles = 1 then r.add i 0 32
      else (List.range cycles).foldl (fun r b => r.beat i w (min b 2)) r)

/-- Idle port cycles of a pipe, in the launch of the last wave that issued on it and at the pc that this issue left (R273, assumption
110). -/
def countPipe (s : State) (c pipe cycles : Nat) : State :=
  match (s.core c).last.get none pipe with
  | none => s
  | some (lid, pc) => s.modLanes c lid (fun r => match r.rangeOf pc with | some i => r.add i 3 (32 * cycles) | none => r)

/-- Counts idle port cycles of the pipes whose port had no instruction. -/
def countIdle (s : State) (busy : Option (Nat × Nat)) (cycles : Nat) : State :=
  s.cores.foldl (fun s c => c.2.last.foldl (fun s x => if busy = some (c.1, x.1) then s else s.countPipe c.1 x.1 cycles) s) s

/-- A wave has issued: it moved, or waits inside an instruction, or has ended. -/
def issued (s s' : State) (p : Nat) : Bool :=
  (s.wave p).pc != (s'.wave p).pc || (s.wave p).k != (s'.wave p).k || (s'.wave p).wait != .none || (s'.wave p).status != .running

/-- What an issue leaves in the scheduler (R271, R273, R290). A clause header takes no port cycle and is no issue of an instruction. -/
def afterIssue (s' s : State) (p cycles : Nat) : State :=
  let w := s.wave p
  if s.issued s' p then
    let s' := s'.modWave p (fun v => if v.status = .absent then v else { v with
      issues := s.clock :: (v.issues.filter (fun t => decide ((s.clock - t).toNat ≤ 64))),
      displaced := false, readySince := s.clock, stepReq := false })
    (s'.modCore (coreOf p) (fun c => { c with last := c.last.set none w.pipe (some (w.lid, (s'.wave p).pc)) })).countPort p w cycles
  else s'.countPipe (coreOf p) w.pipe (Config.delay (s.tick - 1))

/-! ### Samples (R272) -/

/-- Layout of the block at 0x1_2000 (assumption 20): the period, the sample buffer and its size. -/
def samplePeriod (s : State) : Nat := s.cw 0x12000 8
def sampleBase (s : State) : Nat := s.cw 0x12008 8
def sampleSize (s : State) : Nat := s.cw 0x12010 8

/-- The number of the reported reason: the highest bit, 15 for none. -/
def reported (r : BitVec 10) : Nat := if r = 0 then 15 else Nat.log2 r.toNat

/-- A sample as the number its 32 bytes hold. -/
def sampleOf (s : State) (p : Nat) : Nat :=
  let w := s.wave p
  (s.reasonsOf p).toNat + 2 ^ 48 * reported (s.reasonsOf p) + (if w.hnd then 2 ^ 52 else 0) + (if w.trb then 2 ^ 53 else 0) +
  2 ^ 64 * ((waveId p w + 2 ^ 24 * coreOf p) % 2 ^ 32) + 2 ^ 96 * (w.lid % 2 ^ 32) + 2 ^ 128 * w.pc.toNat + 2 ^ 192 * s.clock.toNat

/-- The next wave of a pipe in rotation. -/
def nextSample (s : State) (c pipe : Nat) : Option Nat :=
  let ps := (s.pipeWaves c pipe).map (·.1)
  (ps.find? (fun p => decide ((s.core c).sampled.get 0 pipe ≤ slotOf p))).or ps.head?

/-- One pipe's sample into the buffer. -/
def samplePipe (s : State) (c pipe : Nat) : State :=
  match s.nextSample c pipe with
  | none => s
  | some p =>
    let n := s.sampleSize / 32
    let s := s.modCore c (fun k => { k with sampled := k.sampled.set 0 pipe (slotOf p + 1) })
    if n = 0 then s
    else { s.store (s.sampleBase + 32 * (s.samplePos % n)) (leBytes 32 (s.sampleOf p)) with samplePos := s.samplePos + 1 }

end State

def execSamplePeriodExpiry (s : State) : Host.Outcome State Fault Refusal :=
  let s' := (List.range 48).foldl (fun s c => (List.range 4).foldl (fun s q => s.samplePipe c q) s) s
  when "SAMPLE_PERIOD_EXPIRY" (s.samplePeriod != 0 && decide (s.sampleDue.toNat ≤ s.clock.toNat))
    { s' with sampleDue := s.clock + BitVec.ofNat 64 s.samplePeriod }

end Sys2Proof.Machine
end

