-- ==== Sys2Proof/Machine/Launch.lean ====
section
/-! DEFINITION. Launch headers, acceptance, rectangles, the start of blocks and tasks (R16 to R22, R30, R41, R58, R188,
R189, R264 to R270, R274, R293). -/

namespace Sys2Proof.Machine

/-! ### The header (R265) -/

/-- Bits of a header that its map defines. -/
def headerBits : List (Nat × Nat) :=
  [(769, 0), (774, 770), (783, 776), (786, 784), (790, 788), (796, 792), (806, 800), (811, 808), (820, 816), (863, 832),
   (874, 864), (998, 896), (1215, 1024), (1256, 1216), (1268, 1264), (1320, 1280), (1332, 1328), (1384, 1344), (1396, 1392),
   (1423, 1408), (1445, 1440), (1451, 1448), (1505, 1472), (1535, 1520), (1569, 1536), (1599, 1584), (1633, 1600),
   (1663, 1648), (1697, 1664), (1727, 1712)]

/-- Bits of a binding descriptor that its map defines. -/
def bindBits : List (Nat × Nat) := [(197, 0), (201, 200), (211, 208)]

/-- Some bit outside a map is set. -/
def strayBits (n v : Nat) (defined : List (Nat × Nat)) : Bool :=
  (List.range n).any (fun i => bitOf v i && !defined.any (fun r => decide (r.2 ≤ i) && decide (i ≤ r.1)))

def roleWord (v i : Nat) : Role :=
  { entry := bitsOf v (1247 + 64 * i) (1216 + 64 * i), budget := bitsOf v (1256 + 64 * i) (1248 + 64 * i),
    waves := bitsOf v (1268 + 64 * i) (1264 + 64 * i) }

def depWord (v i : Nat) : Dep :=
  { base := bitsOf v (1487 + 64 * i) (1472 + 64 * i), count := bitsOf v (1503 + 64 * i) (1488 + 64 * i) + 1,
    map := bitsOf v (1505 + 64 * i) (1504 + 64 * i), k := bitsOf v (1535 + 64 * i) (1520 + 64 * i) }

def bindWord (v i : Nat) : BindDesc :=
  let d := bitsOf v (256 * i + 255) (256 * i)
  { org := bitsOf d 63 0, slide := bitsOf d 95 64, late := bitsOf d 127 96, idle := bitsOf d 159 128, sblk := bitsOf d 191 160,
    strm := bitsOf d 197 192, q := bitsOf d 201 200, qcap := bitsOf d 211 208 }

/-- The header that 256 bytes hold, and the extension's 128 bytes. -/
def headerOf (v x : Nat) : Header :=
  { args := (List.range 16).map (fun i => BitVec.ofNat 32 (bitsOf v (32 * i + 31) (32 * i))),
    img := bitsOf v 575 512, htbl := bitsOf v 639 576, halt := bitsOf v 703 640, strm := bitsOf v 767 704,
    cls := bitsOf v 769 768, std := bitOf v 770, errstop := bitOf v 771, note := bitOf v 772, dbg := bitOf v 773,
    noev := bitOf v 774, rw := bitsOf v 779 776, rh := bitsOf v 783 780, bays := bitsOf v 786 784, ceil := bitsOf v 790 788,
    nbind := bitsOf v 795 792, out := bitOf v 796, tags := bitsOf v 806 800, geo := bitsOf v 811 808, csl := bitsOf v 820 816,
    preb := bitsOf v 863 832, arate := bitsOf v 874 864, seed := BitVec.ofNat 64 (bitsOf v 959 896),
    widths := (List.range 6).map (fun i => bitsOf v (965 + 6 * i) (960 + 6 * i)), b := bitsOf v 998 996,
    ext := (List.range 6).map (fun i => bitsOf v (1055 + 32 * i) (1024 + 32 * i) + 1),
    roles := ((List.range 3).map (roleWord v)).takeWhile (fun r => r.waves != 0),
    evb := bitsOf v 1423 1408, ostr := bitsOf v 1445 1440, osrc := bitsOf v 1451 1448,
    deps := ((List.range 4).map (depWord v)).filter (fun d => d.map != 0),
    binds := if bitOf v 770 then (List.range (min 4 (bitsOf v 795 792))).map (bindWord x) else [] }

/-- The bays of a mask. -/
def baysOf (m : Nat) : List Nat := (List.range 3).filter (fun i => bitOf m i)

def Header.waves (h : Header) : Nat := (h.roles.map (·.waves)).sum

/-- Blocks of the launch (R20). -/
def Header.blocks (h : Header) : Nat := (h.ext.drop h.b).foldl (· * ·) 1

/-- Combinations of fields 1 to B − 1, and waves for each (R21). -/
def Header.combos (h : Header) : Nat := ((h.ext.take h.b).drop 1).foldl (· * ·) 1
def Header.strips (h : Header) : Nat := if h.widths.getD 0 0 ≤ 6 then 1 else (h.ext.getD 0 1 + 95) / 96

/-! ### Checks (R266) -/

/-- 0x0005: a reserved bit, of the extension's descriptors too, a range or an alignment. -/
def rangeBad (v x : Nat) (h : Header) : Bool :=
  strayBits 2048 v headerBits || (h.std && (List.range 4).any (fun i => strayBits 256 (bitsOf x (256 * i + 255) (256 * i)) bindBits)) || h.img % 256 != 0 || h.htbl % 65536 != 0 || h.halt % 64 != 0 || h.strm % 4096 != 0 ||
  (!h.std && h.strm != 0) || !(decide (1 ≤ h.rw) && decide (h.rw ≤ 8)) || !(decide (1 ≤ h.rh) && decide (h.rh ≤ 6)) ||
  decide (4 < h.nbind) || decide (64 < h.tags) || decide (8 < h.geo) || decide (16 < h.csl) ||
  !(decide (1 ≤ h.preb) && decide (h.preb ≤ 1000000)) || decide (1024 < h.arate) || h.roles.isEmpty ||
  h.roles.any (fun r => r.entry % 4 != 0 || r.budget == 0 || decide (256 < r.budget) || decide (16 < r.waves)) ||
  h.deps.any (fun d => d.map == 3 && d.k == 0)

/-- 0x0006: the work identifier (R20). -/
def widBad (h : Header) : Bool :=
  h.b == 0 || decide (6 < h.b) || h.widths.any (fun w => decide (32 < w)) || decide (64 < h.widths.sum) ||
  (h.ext.zip h.widths).any (fun x => decide (2 ^ x.2 < x.1))

/-- 0x0007: the role wave counts (R17, R21). -/
def wavesBad (h : Header) : Bool :=
  h.waves == 0 || decide (16 < h.waves) || (h.roles.map (·.waves)).head? != some (h.combos * h.strips)

/-- 0x0008: the image. -/
def imageBad (s : State) (h : Header) : Bool :=
  match s.imageAt? h.img with
  | none => true
  | some i => h.roles.any (fun r => !i.roles.any (fun x => x.entry == r.entry && x.budget == r.budget))

/-- Two ranges of events meet. -/
def eventsMeet (a n b m : Nat) : Bool := decide (a < b + m) && decide (b < a + n)

/-- 0x000A: the events and dependences. -/
def eventsBad (s : State) (h : Header) : Bool :=
  let n := h.blocks
  (!h.noev && (decide (65536 < h.evb + n) || s.launches.any (fun l =>
    l.prog != .ended && l.prog != .halted && l.replay.isNone && !l.hdr.noev && eventsMeet h.evb n l.hdr.evb l.total))) ||
  h.deps.any (fun d => decide (65535 < d.base + d.count - 1) || (d.map == 2 && decide (d.count < n)) ||
    (d.map == 3 && decide (d.count ≤ (n - 1) / d.k)))

/-- A binding breaks a limit of R233. Its stream's other bindings are those of launches that wait, are resident or saved: that a halting
or halted launch, held for debug too, does not count is the model's choice (assumption 109). -/
def bindBad (s : State) (h : Header) (x i : Nat) : Bool :=
  let d := bindWord x i
  let others := h.binds ++ (s.launches.filter (fun l => l.replay.isNone && (l.prog == .queued || l.prog == .resident || l.prog == .saved))).flatMap (fun l => l.hdr.binds)
  d.slide == 0 || decide (8 < d.qcap) || !(s.stream d.strm).opened ||
  decide (2 ^ 64 - 1 < d.org + 2 ^ 32 * d.slide + (d.q + 1) * d.slide) || others.any (fun o => o.strm == d.strm && o.idle != d.idle)

/-- 0x000B: the standing extension. -/
def standingBad (s : State) (h : Header) (x : Nat) : Bool :=
  if !h.std then h.nbind != 0 || h.out
  else (List.range h.binds.length).any (bindBad s h x) ||
    (h.out && decide (((s.stream h.ostr).srcs.get {} h.osrc).kind ≠ .device s.nextLid))

/-- The corner of the reserved area (R274, R323; assumption 20). -/
def State.reservedX (s : State) : Nat := s.cw 0x20000 1
def State.reservedY (s : State) : Nat := s.cw 0x20001 1

def State.inReserved (s : State) (c : Nat) : Bool :=
  decide (s.reservedX ≤ c % 8) && decide (c % 8 < s.reservedX + 4) && decide (s.reservedY ≤ c / 8) && decide (c / 8 < s.reservedY + 3)

/-- The corners of a rectangle, lowest y first, then lowest x. -/
def corners (rw rh : Nat) : List (Nat × Nat) := (List.range (7 - rh)).flatMap (fun y => (List.range (9 - rw)).map (fun x => (x, y)))

/-- Cores that a claim may use at all (R2, R268). -/
def State.usable (s : State) (c : Nat) : Bool := (s.core c).enabled && !(s.core c).quar

/-- 0x000D: no placement avoids the fused-off and quarantined cores. -/
def nowhere (s : State) (h : Header) : Bool :=
  !(corners h.rw h.rh).any (fun p => (State.rectCores p.1 p.2 h.rw h.rh).all s.usable)

/-- The status of a header, the lowest code that applies, 0 for acceptance (R266). -/
def headerStatus (s : State) (queue v x : Nat) : Nat :=
  let h := headerOf v x
  if rangeBad v x h then 5
  else if widBad h then 6
  else if wavesBad h then 7
  else if imageBad s h then 8
  else if 128 < h.waves + h.csl ∨ (baysOf h.bays).any (fun b => !bitOf h.ceil b) then 9
  else if eventsBad s h then 0xA
  else if standingBad s h x then 0xB
  else if queue / 4 = 0 ∧ (4 < h.rw ∨ 3 < h.rh) then 0xC
  else if nowhere s h then 0xD
  else if h.cls ≠ queue / 4 then 0xE
  else 0

/-- Launches accepted into a queue and not yet on a rectangle. -/
def State.queueOf (s : State) (q : Nat) : List Launch := s.launches.filter (fun l => l.queue == q && l.prog == .queued && l.replay.isNone)

/-- The status of a request (R125, R266, R322). The scheduler takes the bytes of a header as they stand, poison or not: the model's
choice (assumption 101). -/
def State.requestStatus (s : State) (r : LaunchReq) : Nat :=
  let host := match r.source with | .host _ => true | _ => false
  if 16 ≤ r.queue then 1
  else if 64 ≤ (s.queueOf r.queue).length then 2
  else match r.addr with
    | none => 3
    | some a =>
      if a % 256 ≠ 0 ∨ memTop < a + 256 then 3
      else if !host ∧ r.queue < 4 then 4
      else
        let v := s.load a 256
        headerStatus s r.queue v (if bitOf v 770 then s.load (bitsOf v 767 704) 128 else 0)

/-- A launch is accepted into its queue: its number, its copy of the header, its events Clear (R266, R269). -/
def State.acceptLaunch (s : State) (r : LaunchReq) : State :=
  let v := s.load (r.addr.getD 0) 256
  let h := headerOf v (if bitOf v 770 then s.load (bitsOf v 767 704) 128 else 0)
  let img := s.imageAt? h.img
  let l : Launch :=
    { lid := s.nextLid, hdr := h, queue := r.queue, ctx := r.ctx,
      native := match img with | some i => decide (i.stepping = 0xA1) && !i.interlocked | none => false,
      total := h.blocks, binds := h.binds.zipIdx.map (fun b => (b.2, { desc := b.1 })) }
  { s with nextLid := s.nextLid + 1, launches := s.launches ++ [l],
           events := if h.noev then s.events else s.events.clearRange h.evb h.blocks }

/-- The answer to a request reaches its sender. -/
def State.answerLaunch (s : State) (r : LaunchReq) (st : Nat) : State :=
  match r.source with
  | .wave p =>
    match (s.wave p).wait with
    | .launch id d =>
      if id = r.id ∧ (s.wave p).status = .running then
        let s := s.modWave p (fun w => { w with wait := .none, refused := false, readySince := s.clock })
        s.statusForm p [BitVec.ofNat 32 st] (fun s vs => (s.modWave p (fun w => (w.sput d (vs.getD 0 0)).advance 1)).endIfEmpty p)
      else s
    | _ => s
  | .host m => s.reply m st
  | .port _ => s

/-- The scheduler reads a header once the writes before it are performed, and accepts or rejects it (R125, R225). -/
def execLaunchAcceptance (req : Nat) (s : State) : Host.Outcome State Fault Refusal :=
  match s.launchReqs.find? (fun r => r.id == req) with
  | none => .refused (.notEnabled "LAUNCH_ACCEPTANCE")
  | some r =>
    let st := s.requestStatus r
    let s' : State := { s with launchReqs := s.launchReqs.filter (fun x => x.id != req) }
    when "LAUNCH_ACCEPTANCE" (r.ids.all (fun id => !s.outstanding id))
      ((if st = 0 then s'.acceptLaunch r else s').answerLaunch r st)

/-! ### Rectangles (R267, R268) -/

/-- The class that governs a launch: that of its queue; a replay is of class 3 (R266, R297). -/
def Launch.cls (l : Launch) : Nat := if l.replay.isSome then 3 else l.queue / 4

/-- A rectangle that a launch may claim (R268, R274). -/
def State.rectOk (s : State) (l : Launch) (x0 y0 : Nat) : Bool :=
  (State.rectCores x0 y0 l.hdr.rw l.hdr.rh).all (fun c =>
    s.usable c &&
    (baysOf l.hdr.ceil).all (fun b => (s.core c).grants.get none b == none || (s.core c).grants.get none b == some l.lid) &&
    (if l.cls = 0 then s.inReserved c else decide (l.hdr.preb ≤ 50) || !s.inReserved c))

/-- The rectangle a launch would claim. -/
def State.rectFor (s : State) (l : Launch) : Option (Nat × Nat) :=
  (corners l.hdr.rw l.hdr.rh).find? (fun p => s.rectOk l p.1 p.2)

/-- The queues in the order of service: classes in order, and within a class after the one served last (R267). -/
def State.serviceOrder (s : State) : List Nat :=
  (List.range 4).flatMap (fun c => (List.range 4).map (fun i => 4 * c + (s.served.get 0 c + i) % 4))

/-- The queue whose head claims next. -/
def State.nextQueue (s : State) : Option Nat :=
  s.serviceOrder.find? (fun q => match s.queueOf q with | l :: _ => (s.rectFor l).isSome | [] => false)

/-- Zeroes the elements of rows (R38); their metadata stays. -/
def State.zeroElems (s : State) (row n : Nat) : State :=
  { s with elems := s.elems.clearRange (row * 32) (n * 32), bad := s.bad.clearRange (row * 32) (n * 32) }

/-- A forced write is still to come to a ceiling row of a core: the ceiling is taken and zeroed after it (R38, R60). -/
def State.ceilForced (s : State) (c bays : Nat) : Bool := (s.core c).forced.any (fun f => (baysOf bays).any (fun b => f.row / 32768 == 3 + b))

/-- Takes the ceiling grants of a launch on a core (R38, R268). -/
def State.takeGrants (s : State) (lid c bays : Nat) : State :=
  (baysOf bays).foldl (fun s b =>
    (s.modCore c (fun k => { k with grants := k.grants.set none b (some lid) })).zeroElems (ceilRow c (32768 * b)) 32768) s

/-- The lane-cycle ranges of a core (R273, R323; assumption 20). -/
def State.rangesOf (s : State) (c : Nat) : SMap (DWord × DWord) :=
  (List.range 16).filterMap (fun i =>
    let lo := s.cw (0x13000 + 256 * c + 16 * i) 8
    let hi := s.cw (0x13000 + 256 * c + 16 * i + 8) 8
    if hi = 0 then none else some (i, (BitVec.ofNat 64 lo, BitVec.ofNat 64 hi)))

/-- Claims a rectangle: grants, routing tables, lane-cycle records. -/
def State.claim (s : State) (l : Launch) (x0 y0 : Nat) : State :=
  let s := (State.rectCores x0 y0 l.hdr.rw l.hdr.rh).foldl (fun s c =>
    (s.takeGrants l.lid c l.hdr.ceil).modCore c (fun k => { k with
      routes := k.routes ++ [l.lid], lanes := k.lanes.set {} l.lid { resident := true, ranges := s.rangesOf c } })) s
  s.modLaunch l.lid (fun l => { l with prog := .resident, x0 := x0, y0 := y0, resumed := s.clock, credit := 0 })

/-- A queue head claims its rectangle; a mismatch of the routing tables halts its context (R268). -/
def execRectangleClaim (q : Nat) (mismatch : Option Nat) (s : State) : Host.Outcome State Fault Refusal :=
  match s.queueOf q with
  | [] => .refused (.notEnabled "RECTANGLE_CLAIM")
  | l :: _ =>
    match s.rectFor l with
    | none => .refused (.notEnabled "RECTANGLE_CLAIM")
    | some (x0, y0) =>
      let s' : State := { s with served := s.served.set 0 (q / 4) (q % 4 + 1) }
      let s' := s'.claim l x0 y0
      when "RECTANGLE_CLAIM" (s.nextQueue == some q && !(State.rectCores x0 y0 l.hdr.rw l.hdr.rh).any (fun c => s.ceilForced c l.hdr.ceil))
        (match mismatch with
         | some i =>
           let c := (State.rectCores x0 y0 l.hdr.rw l.hdr.rh).getD (i % (l.hdr.rw * l.hdr.rh)) 0
           s'.raiseHalt l.lid c (128 * c) 0x22 c 0 0 0
         | none => s')

/-! ### The waves of a block (R18 to R22, R188) -/

/-- A wave as its block starts it. -/
structure Born where
  num : Nat
  role : Nat
  mask : LaneMask
  wid : Nat → DWord
  wf : Nat → Nat → Word
  entry : DWord
  args : List Word

/-- The value of field `i` in a number that counts fields `lo` upward. -/
def digit (h : Header) (lo n i : Nat) : Nat := n / ((h.ext.take i).drop lo).foldl (· * ·) 1 % h.ext.getD i 1

/-- The lowest bit of a field. -/
def fieldPos (h : Header) (i : Nat) : Nat := (h.widths.take i).sum

/-- Field `i` of lane `l` in strip `j` of combination `c` of block `index`. -/
def strandField (h : Header) (index c j : Nat) (l i : Nat) : Nat :=
  if h.b ≤ i then digit h h.b index i
  else if i = 0 then 96 * j + l
  else digit h 1 c i

/-- The identifier that fields make. -/
def widOf (h : Header) (f : Nat → Nat) : DWord := BitVec.ofNat 64 (((List.range 6).map (fun i => f i * 2 ^ fieldPos h i)).sum)

/-- The waves of a block in wave order. -/
def wavesFor (h : Header) (index : Nat) : List Born :=
  let entry : Nat → DWord := fun r => BitVec.ofNat 64 (h.img + (h.roles.getD r {}).entry)
  let first := (List.range h.combos).flatMap (fun c => (List.range h.strips).map (fun j =>
    let born : Born :=
      { num := 0, role := 0, mask := maskOf (fun l => decide (96 * j + l < h.ext.getD 0 1)), entry := entry 0, args := h.args,
        wid := fun l => widOf h (strandField h index c j l), wf := fun i l => BitVec.ofNat 32 (strandField h index c j l i) }
    born))
  let up : Nat → Nat := fun i => if h.b ≤ i then digit h h.b index i else 0
  let more := ((List.range (h.roles.length - 1)).map (· + 1)).flatMap (fun r =>
    (List.range (h.roles.getD r {}).waves).map (fun _ =>
      let born : Born :=
        { num := 0, role := r, mask := allLanes, entry := entry r, args := h.args, wid := fun _ => widOf h up,
          wf := fun i _ => BitVec.ofNat 32 (up i) }
      born))
  (first ++ more).zipIdx.map (fun x => { x.1 with num := x.2 })

/-- The wave's state at its start (R24, R188). -/
def Born.wave (b : Born) (lid blk pipe budget : Nat) (active : Bool) (clk : DWord) : Wave :=
  { status := .running, lid := lid, blk := blk, num := b.num, role := b.role, pipe := pipe, budget := budget,
    sregs := b.args.zipIdx.foldl (fun m x => m.set 0 x.2 x.1) [], present := b.mask, exist := b.mask, pc := b.entry,
    wid := (lanesOf b.mask).foldl (fun m l => m.set 0 l (b.wid l)) [],
    wf := (lanesOf b.mask).foldl (fun m l => (List.range 6).foldl (fun m i => m.set 0 (96 * i + l) (b.wf i l)) m) [],
    active := active, readySince := clk }

/-! ### Room on a core (R58, R270) -/

/-- The lowest run of `n` in a rising list of slots. -/
def runIn (free : List Nat) (n : Nat) : Option Nat := free.find? (fun a => (List.range n).all (fun i => free.contains (a + i)))

/-- What a block takes on a core: a slot and a pipe for each wave, the first common slot, tags, geode descriptors. -/
structure Room where
  slots : List (Nat × Nat)
  run : Nat := 0
  tags : List Nat
  geodes : List Nat
deriving DecidableEq, Repr

/-- A pipe for each of `n` waves: the one with fewest, the lower on a tie (R270). -/
def pipesFor : Nat → List Nat → List Nat
  | 0, _ => []
  | n + 1, counts =>
    let p := (List.range 4).foldl (fun b i => if counts.getD i 0 < counts.getD b 0 then i else b) 0
    p :: pipesFor n (counts.set p (counts.getD p 0 + 1))

namespace State

def freeSlots (s : State) (c : Nat) : List Nat := (List.range 128).filter (fun i => !s.slotUsed c i)
def freeTags (s : State) (c : Nat) : List Nat := (List.range 64).filter (fun t => !s.blocks.any (fun b => b.core == c && b.tags.contains t))
def freeGeodes (s : State) (c : Nat) : List Nat := (List.range 8).filter (fun g => !s.blocks.any (fun b => b.core == c && b.geodes.contains g))
/-- Waves that a pipe holds. -/
def pipeLoad (s : State) (c : Nat) : List Nat :=
  (List.range 4).map (fun q => (s.waves.filter (fun w => coreOf w.1 == c && w.2.pipe == q && (w.2.status == .running || w.2.status == .halted))).length)

/-- The common run for a block of `n` waves: the lowest beside the lowest `n` slots, else the lowest that leaves `n` slots (R58, R270,
assumption 47). -/
def runBeside (free : List Nat) (n csl : Nat) : Option Nat :=
  (runIn (free.drop n) csl).or (if free.length < n + csl then none else runIn free csl)

/-- Room for a block on a core: the waves take the lowest free slots beside the common run (R58, R270). `own` tells that a launch must
hold the bays' grants already. -/
def roomOn (s : State) (c lid n csl tags geo bays : Nat) (own : Bool) : Option Room :=
  let free := s.freeSlots c
  let pipes := pipesFor n (s.pipeLoad c)
  let run := if csl = 0 then none else runBeside free n csl
  let slots := match run with | some a => free.filter (fun i => decide (i < a) || decide (a + csl ≤ i)) | none => free
  let grant := fun b => let g := (s.core c).grants.get none b; if own then g == some lid else g == none
  if free.length < n ∨ (csl ≠ 0 ∧ run = none) ∨ (s.freeTags c).length < tags ∨ (s.freeGeodes c).length < geo ∨
     (List.range 4).any (fun q => decide (32 < ((s.pipeLoad c).getD q 0) + pipes.count q)) ∨
     (baysOf bays).any (fun b => (s.bay c b).holder.isSome || !grant b) then none
  else some { slots := (slots.take n).zip pipes, run := run.getD 0, tags := (s.freeTags c).take tags, geodes := (s.freeGeodes c).take geo }

/-! ### Starting a block (R18, R41, R189, R293) -/

/-- The audit hash of a block (R293). -/
def auditHash (h : Header) (lid : Nat) (blk : DWord) : DWord :=
  crcBytes 0 (leBytes 8 h.seed.toNat ++ leBytes 8 lid ++ leBytes 8 blk.toNat)

/-- Closed logs that wait for their resolution (R297). -/
def backlog (s : State) : Nat := (s.jobs.filter (fun j => !j.opened && !j.resolved && !j.capture)).length

/-- Selection of a starting block: its log opens, or its audit is abandoned at once (R293, R301). -/
def selectBlock (s : State) (blk : Nat) (born : List Born) : State :=
  let b := s.block blk
  let l := s.launch b.lid
  if l.hdr.arate ≤ (auditHash l.hdr b.lid (blkOf l.hdr b.task b.index)).toNat % 1024 then s
  else
    let id := s.nextId
    let j : Job :=
      { id := id, lid := b.lid, index := b.index, hdr := l.hdr, ctx := l.ctx, native := l.native, task := b.task,
        entry := (born.map (fun x => x.entry)).headD 0, present := (born.map (fun x => x.mask)).headD 0,
        wids := match born with | x :: _ => if b.task then (lanesOf x.mask).map x.wid else [] | [] => [],
        corg := b.core, kept := s.marked b.lid, parties := b.parties }
    let s : State := { s with nextId := id + 1, selected := s.selected + 1, jobs := s.jobs ++ [j] }
    let s := s.modBlock blk (fun b => { b with selected := true, logging := true, job := id })
    if s.backlogLimit ≤ s.backlog then s.abandon id 1 else s

/-- A bay as a claim leaves it (R189). -/
def claimBay (s : State) (c blk b : Nat) : State :=
  (s.zeroRows (bayRow c b 0) 256).modBay c b (fun _ => { holder := some blk })

/-- Starts the waves of a block in their room, all at once: the block's number and the state. -/
def startBlock (s : State) (lid : Nat) (run : Run) (task : Bool) (index : DWord) (c csl bays : Nat) (born : List Born) (room : Room) :
    Nat × State :=
  let l := s.launch lid
  let blk := s.nextId
  let claim := blk + 1
  let places := born.zip room.slots
  let b : Block :=
    { id := blk, lid := lid, index := index, core := c, run := run, task := task, n := born.length,
      parties := places.map (fun x => (x.1.num, 128 * c + x.2.1)),
      common := (List.range csl).map (fun i => (i, (room.run + i + 1, claim))),
      tags := room.tags, geodes := room.geodes, bays := baysOf bays }
  let s : State := { s with nextId := blk + 2, blocks := s.blocks ++ [b] }
  let s := places.foldl (fun s x =>
    let p := 128 * c + x.2.1
    let w := x.1.wave lid blk x.2.2 (l.hdr.roles.getD x.1.role {}).budget (decide (s.activeCount c x.2.2 < 8)) s.clock
    (s.zeroRows (slotRow p 0) 768).setWave p w) s
  let s := if csl = 0 then s else s.zeroRows (rowKey c (768 * room.run)) (768 * csl)
  (blk, (baysOf bays).foldl (fun s y => s.claimBay c blk y) s)

end State

/-! ### Placement (R269, R270) -/

/-- The events that the dependences of a block map to. -/
def mapped (h : Header) (b : Nat) : List Nat :=
  h.deps.flatMap (fun d => if d.map = 1 then (List.range d.count).map (d.base + ·) else if d.map = 2 then [d.base + b] else [d.base + b / d.k])

/-- Every event of a block's dependences is Done or Done-with-error. -/
def State.blockReady (s : State) (l : Launch) (b : Nat) : Bool := (mapped l.hdr b).all (fun e => s.events.get .clear e != .clear)

/-- The lowest ready block not yet taken in hand, among `n` from `b`. -/
def State.readyFrom (s : State) (l : Launch) : Nat → Nat → Option Nat
  | 0, _ => none
  | n + 1, b => if !l.started.get false b && s.blockReady l b then some b else s.readyFrom l n (b + 1)

/-- A block that must not run (R269). -/
def State.stopped (s : State) (l : Launch) (b : Nat) : Bool :=
  l.hdr.errstop && (mapped l.hdr b).any (fun e => s.events.get .clear e == .error)

def State.passOver (s : State) (l : Launch) (b : Nat) : State :=
  let s := s.modLaunch l.lid (fun l => { l with started := l.started.set false b true, skipped := l.skipped.set false b true,
                                                 finished := l.finished + 1 })
  let s : State := if l.hdr.noev then s else { s with events := s.events.set .clear (l.hdr.evb + b) .error }
  s.launchEnd l.lid

/-- The first core of the rectangle with room for a block, row-major. -/
def State.firstRoom (s : State) (l : Launch) : Option (Nat × Room) :=
  (State.coresOf l).findSome? (fun c =>
    (s.roomOn c l.lid l.hdr.waves l.hdr.csl l.hdr.tags l.hdr.geo l.hdr.bays true).map (fun r => (c, r)))

/-- The lowest ready block is placed whole and starts, or is passed over (R18, R269, R270). -/
def execBlockPlacement (lid : Nat) (s : State) : Host.Outcome State Fault Refusal :=
  let l := s.launch lid
  if l.prog ≠ .resident ∨ l.preempt.isSome ∨ l.replay.isSome then .refused (.notEnabled "BLOCK_PLACEMENT")
  else match s.readyFrom l l.total 0 with
    | none => .refused (.notEnabled "BLOCK_PLACEMENT")
    | some b =>
      if s.stopped l b then .next (s.passOver l b)
      else match s.firstRoom l with
        | none => .refused (.notEnabled "BLOCK_PLACEMENT")
        | some (c, room) =>
          let born := wavesFor l.hdr b
          let s := s.modLaunch lid (fun l => { l with started := l.started.set false b true })
          let r := s.startBlock lid .original false (BitVec.ofNat 64 b) c l.hdr.csl l.hdr.bays born room
          .next (r.2.selectBlock r.1 born)

/-! ### Tasks (R30) -/

/-- A task wave of the tasks in its lanes: argument records are put into v0 to v15 apart from this. -/
def taskBorn (l : Launch) (entry : DWord) (ids : List DWord) (mask : LaneMask) : Born :=
  let id : Nat → DWord := fun i => ids.getD ((lanesOf mask).idxOf i) 0
  { num := 0, role := (l.hdr.roles.findIdx? (fun r => entry == BitVec.ofNat 64 (l.hdr.img + r.entry))).getD 0, mask := mask, wid := id,
    wf := fun i n => if i = 0 then (id n).setWidth 32 else 0, entry := entry, args := [] }

/-- Puts the argument records into v0 to v15. -/
def State.putRecords (s : State) (p : Nat) (mask : LaneMask) (rec : Nat → Nat → Word) : State :=
  (List.range 16).foldl (fun s j => s.vput p j mask (fun l => rec l j)) s

/-- Room for a task wave of a launch that runs. -/
def State.taskRoom (s : State) (core lid : Nat) : Option Room :=
  let l := s.launch lid
  if l.prog = .resident ∧ l.preempt = none then s.roomOn core lid 1 0 l.hdr.tags l.hdr.geo 0 true else none

/-- The tasks that form the next wave of a core: 96 of one entry, or those of an entry whose oldest has timed out. -/
def State.taskGroup (s : State) (core : Nat) : List Task :=
  let ts := (s.core core).tasks
  let same : Task → Task → Bool := fun a b => a.lid == b.lid && a.entry == b.entry
  match ts.find? (fun t => (t.due || decide (96 ≤ (ts.filter (same t)).length)) && (s.taskRoom core t.lid).isSome) with
  | some t => (ts.filter (same t)).take 96
  | none => []

/-- The core forms a task wave, when a slot, tags and descriptors are free (R30). -/
def execTaskWaveFormation (core : Nat) (s : State) : Host.Outcome State Fault Refusal :=
  let g := s.taskGroup core
  match g with
  | [] => .refused (.notEnabled "TASK_WAVE_FORMATION")
  | t :: _ =>
    match s.taskRoom core t.lid with
    | none => .refused (.notEnabled "TASK_WAVE_FORMATION")
    | some room =>
      let mask := maskOf (fun i => decide (i < g.length))
      let born := taskBorn (s.launch t.lid) t.entry (g.map (·.number)) mask
      let p := 128 * core + (room.slots.map (·.1)).headD 0
      let args : Nat → Nat → Word := fun i j => (((g[i]?).map (fun x => x.args)).getD []).getD j 0
      let s := s.modCore core (fun c => { c with tasks := c.tasks.filter (fun x => !g.contains x) })
      let r := s.startBlock t.lid .original true ((1 <<< 63 : DWord) + t.number) core 0 0 [born] room
      let s := (r.2.putRecords p mask args).selectBlock r.1 [born]
      .next (s.logIn p 8 0 ((List.range 96).flatMap (fun i => (List.range 16).map (args i))))

/-- The oldest waiting task of an entry has waited 2,048 cycles. -/
def execTaskWaitTimeout (core : Nat) (s : State) : Host.Outcome State Fault Refusal :=
  let late : Task → Bool := fun t => decide (2048 ≤ (s.clock - t.since).toNat)
  when "TASK_WAIT_TIMEOUT" ((s.core core).tasks.any (fun t => !t.due && late t))
    (s.modCore core (fun c => { c with tasks := c.tasks.map (fun x => if late x then { x with due := true } else x) }))

end Sys2Proof.Machine
end

