-- ==== Sys2Proof/Machine/Audit.lean ====
section
/-! DEFINITION. Replays, third runs, verdicts, scruples, kept logs (R2, R131, R296 to R303). -/

namespace Sys2Proof.Machine

namespace State

/-! ### Where a run goes (R297, R299) -/

/-- Waves, common slots, bays of the block that a job replays. -/
def jobNeeds (j : Job) : Nat × Nat × Nat := if j.task then (1, 0, 0) else (j.hdr.waves, j.hdr.csl, j.hdr.bays)

/-- Room for a run of a job on a core that no context's grants and no forced write to a ceiling row exclude (R60); a run takes the
grants of its header on its own core. -/
def runRoom (s : State) (j : Job) (c : Nat) : Option Room :=
  let n := jobNeeds j
  if (baysOf j.hdr.ceil).any (fun b => (s.core c).grants.get none b != none) || s.ceilForced c j.hdr.ceil then none
  else s.roomOn c 0 n.1 n.2.1 j.hdr.tags j.hdr.geo n.2.2 false

/-- The core of a run: of another die than the original's if one is free, else of the same; never one of `barred`. -/
def runCore (s : State) (j : Job) (barred : List Nat) : Option Nat :=
  let free := (List.range 48).filter (fun c => !barred.contains c && s.usable c && (s.runRoom j c).isSome)
  (free.find? (fun c => dieOf c != dieOf j.corg)).or free.head?

/-! ### Starting a run (R297) -/

/-- The number of the context of a run, beyond every launch number. -/
def runLid (job kind : Nat) : Nat := 2 ^ 32 + 4 * job + kind

/-- The context of a run: class 3, a PREB of 50 µs, no events, no dependences, no grant beyond its own core. -/
def runLaunch (s : State) (j : Job) (lid c : Nat) : Launch :=
  { lid := lid,
    hdr := { j.hdr with preb := 50, rw := 1, rh := 1, arate := 0, noev := true, note := false, deps := [] },
    queue := 12, ctx := j.ctx, native := j.native, prog := .resident, x0 := c % 8, y0 := c / 8, resumed := s.clock,
    replay := some j.id, capture := j.capture }

/-- The argument record of a task's lane, from the entry of SEQ 0 (R294). -/
def loggedArg (j : Job) (l i : Nat) : Word := ((j.log.find? (fun e => e.seq == 0)).map (fun e => e.data.getD (16 * l + i) 0)).getD 0

/-- Starts a run of a job on a core with room; a context of its number is one of an earlier placement, which is over. -/
def startRun (s : State) (j : Job) (kind c : Nat) (run : Run) : State :=
  let lid := runLid j.id kind
  let l := s.runLaunch j lid c
  let n := jobNeeds j
  match s.runRoom j c with
  | none => s
  | some room =>
    let s : State := { s with launches := s.launches.filter (fun x => x.lid != lid) ++ [l] }
    let s := s.takeGrants lid c l.hdr.ceil
    let born := if j.task then [taskBorn l j.entry j.wids j.present] else wavesFor l.hdr j.index.toNat
    let s := (s.startBlock lid run j.task j.index c n.2.1 n.2.2 born room).2
    if j.task then
      let p := 128 * c + (room.slots.map (·.1)).headD 0
      (s.putRecords p j.present (loggedArg j)).modWave p (fun w => { w with seq := 1 })
    else s

/-- No block of a job is on a core or stored. -/
def runsOver (s : State) (id : Nat) (orig : Bool) : Bool :=
  let mine : Block → Bool := fun b => jobOf b.run == some id || (orig && b.run == .original && b.selected && b.job == id)
  !s.blocks.any mine && !s.saved.any (fun v => v.blocks.any mine)

/-- A replay has ended and its digest counts as another than the original's (R298, R299). -/
def differs (j : Job) : Bool := j.repDone && (j.repEarly || j.drep != j.dorig)

/-! ### Scruples (R302) -/

/-- Adds scruples to a core: the notice at 24, the quarantine at 48. -/
def scruple (s : State) (lid c n : Nat) : State :=
  let k := s.core c
  let x := min 65535 (k.score + n)
  let s := s.modCore c (fun k => { k with score := x, quar := k.quar || decide (48 ≤ x) })
  let s := if k.score < 24 ∧ 24 ≤ x then s.notify 3 (lid % 2 ^ 32 + 2 ^ 32 * c) else s
  if !k.quar && decide (48 ≤ x) then s.notify 4 (lid % 2 ^ 32 + 2 ^ 32 * c) else s

/-- A core counts a clean audit; every 65,536th lowers its score. -/
def cleanAudit (s : State) (c : Nat) : State :=
  s.modCore c (fun k => { k with clean := k.clean + 1, score := if (k.clean + 1) % 65536 = 0 then k.score - 1 else k.score })

/-! ### Verdicts (R299, R300, R303) -/

/-- The verdict of a job: none while a run it needs has not ended. -/
def verdict (j : Job) : Option Nat :=
  if !j.repDone then none
  else if !differs j then some 0
  else if j.capture then some 3
  else if !j.thrDone then none
  else if !j.thrEarly ∧ j.dthr = j.dorig then some 1
  else if !j.thrEarly ∧ !j.repEarly ∧ j.dthr = j.drep then some 2
  else some 3

/-- What a verdict does to the cores, the counters and the host. -/
def applyVerdict (s : State) (j : Job) (v : Nat) : State :=
  if j.capture then s
  else match v with
    | 0 => ({ s with matched := s.matched + 1 }.cleanAudit j.corg).cleanAudit j.crep
    | 1 => s.scruple j.lid j.crep 8
    | 2 =>
      let s : State := { s with outvoted := s.outvoted + 1 }
      (s.scruple j.lid j.corg 8).notify 2 (j.lid % 2 ^ 32 + 2 ^ 32 * (blkOf j.hdr j.task j.index).toNat)
    | _ => ((s.scruple j.lid j.corg 2).scruple j.lid j.crep 2).scruple j.lid j.cthr 2

/-- A job is resolved: its log goes unless it is kept. -/
def resolve (s : State) (id : Nat) : State :=
  s.modJob id (fun j => { j with resolved := true, opened := false, log := if j.kept then j.log else [] })

/-- A job waits for a core: its replay, or the third run that a difference asks for. -/
def waitsForCore (s : State) (j : Job) : Bool :=
  !j.opened && !j.resolved && !j.capture && s.runsOver j.id true &&
  (!j.repStarted || (differs j && !j.thrStarted))

end State

/-- A closed log's block runs again (R297). -/
def execAuditReplayStart (job : Nat) (s : State) : Host.Outcome State Fault Refusal :=
  match s.job? job with
  | none => .refused (.notEnabled "AUDIT_REPLAY_START")
  | some j =>
    match s.runCore j [j.corg] with
    | none => .refused (.notEnabled "AUDIT_REPLAY_START")
    | some c =>
      when "AUDIT_REPLAY_START" (s.waitsForCore j && !j.repStarted)
        ((s.modJob job (fun j => { j with repStarted := true, crep := c })).startRun j 0 c (.replay job))

/-- A third run decides between the original and a replay that differs (R299). -/
def execAuditThirdRunStart (job : Nat) (s : State) : Host.Outcome State Fault Refusal :=
  match s.job? job with
  | none => .refused (.notEnabled "AUDIT_THIRD_RUN_START")
  | some j =>
    match s.runCore j [j.corg, j.crep] with
    | none => .refused (.notEnabled "AUDIT_THIRD_RUN_START")
    | some c =>
      when "AUDIT_THIRD_RUN_START" (s.waitsForCore j && j.repStarted)
        ((s.modJob job (fun j => { j with thrStarted := true, cthr := c })).startRun j 1 c (.third job))

/-- The digests are compared, the record is written, the scores follow (R299, R300, R302). -/
def execAuditVerdict (job : Nat) (s : State) : Host.Outcome State Fault Refusal :=
  match s.job? job with
  | none => .refused (.notEnabled "AUDIT_VERDICT")
  | some j =>
    match State.verdict j with
    | none => .refused (.notEnabled "AUDIT_VERDICT")
    | some v =>
      when "AUDIT_VERDICT" (!j.resolved && !j.opened && s.runsOver job true)
        (((s.auditRecord j v 0).applyVerdict j v).resolve job)

/-- No core was free for a run within 1 s of the block's end (R301). -/
def execAuditPlacementTimeout (job : Nat) (s : State) : Host.Outcome State Fault Refusal :=
  match s.job? job with
  | none => .refused (.notEnabled "AUDIT_PLACEMENT_TIMEOUT")
  | some j =>
    when "AUDIT_PLACEMENT_TIMEOUT" (s.waitsForCore j && decide (1750000000 ≤ (s.clock - j.closedAt).toNat)) (s.abandon job 7)

/-- The host replays a kept log on a core that it names; its result changes no score (R303). -/
def execCaptureReplay (job core : Nat) (s : State) : Host.Outcome State Fault Refusal :=
  match s.job? job with
  | none => .refused (.notEnabled "CAPTURE_REPLAY")
  | some j =>
    let k : Job :=
      { j with id := s.nextId, capture := true, kept := false, resolved := false, opened := false, bytes := 0, crep := core, cthr := 0xFF,
               drep := 0, dthr := 0, repStarted := true, thrStarted := false, repDone := false, thrDone := false, repEarly := false,
               thrEarly := false, divRep := 0, divThr := 0, flgr := 0, bsatr := 0, bnanr := 0 }
    let s' : State := { s with nextId := s.nextId + 1, jobs := s.jobs ++ [k] }
    when "CAPTURE_REPLAY" (j.kept && j.resolved && decide (core < 48) && (s.core core).enabled && (s.imageAt? j.hdr.img).isSome &&
        (s.runRoom j core).isSome)
      (s'.startRun k 2 core (.capture k.id))

/-- The host frees the kept logs of a launch (R303). -/
def execKeptLogFree (lid : Nat) (s : State) : Host.Outcome State Fault Refusal :=
  .next { s with jobs := s.jobs.map (fun j =>
    if j.lid = lid ∧ j.kept then { j with kept := false, log := if j.resolved then [] else j.log } else j) }

end Sys2Proof.Machine
end

