-- ==== Sys2Proof/Machine/Barrier.lean ====
section
/-! DEFINITION. The completion of a barrier generation and the end of a phase scrub (R33, R57, R123, R214). -/

namespace Sys2Proof.Machine

namespace State

/-- The wave with a number in a block. -/
def member (s : State) (b : Block) (n : Nat) : Option Nat :=
  (b.parties.find? (fun e => e.1 == n && (s.wave e.2).blk == b.id && (s.wave e.2).status != .absent)).map (·.2)

/-- The last arrival has landed: every wave has arrived or has ended, and what an arriving wave had issued is
performed (R33, R214). -/
def arrivedAll (s : State) (b : Block) : Bool :=
  (List.range b.n).all (fun i =>
    match b.arrivals.get none i with
    | some a => a.ids.all (fun id => !s.outstanding id)
    | none => b.ends.get .live i != .live)

/-- The cycle in which the last arrival of a generation landed is noted, if it was the one before this (R33). -/
def land (s : State) (before : DWord) : State :=
  { s with blocks := s.blocks.map (fun b =>
      if b.landed.isNone && !b.ended && b.arrivals.any (fun x => x.2.isSome) && s.arrivedAll b then { b with landed := some before } else b) }

/-- The Live entries that their exporters named in this generation's arrivals: party and entry. -/
def namedEntries (s : State) (b : Block) : List (Nat × Nat) :=
  b.arrivals.flatMap (fun x =>
    match x.2, s.member b x.1 with
    | some a, some p => ((List.range 16).filter (fun e => a.mask.getLsbD e && ((s.wave p).adits.get {} e).state == .live)).map (fun e => (p, e))
    | _, _ => [])

/-- Advances an entry's phase; the scrub of its rows is to come (R57, R123). -/
def advancePhase (s : State) (p e : Nat) : State :=
  s.modWave p (fun w =>
    let a := w.adits.get {} e
    { w with adits := w.adits.set {} e { a with phase := a.phase + 1, scrub := true, gen := true } })

/-- An entry that the generation of a block advanced is being scrubbed (R275). -/
def scrubbing (s : State) (b : Block) : Bool :=
  b.parties.any (fun e => (s.wave e.2).blk == b.id && (s.wave e.2).adits.any (fun x => x.2.scrub && x.2.gen))

/-- The generation is over: its status is the one fixed when it completed, and the waiting waves become ready (R33, R123). -/
def openGeneration (s : State) (blk : Nat) : State :=
  let b := s.block blk
  let st := b.genStatus b.gen
  let s := s.modBlock blk (fun b => { b with gen := b.gen + 1, arrivals := [], landed := none, closing := false })
  b.parties.foldl (fun s e =>
    let w := s.wave e.2
    match w.wait with
    | .barrier d =>
      if w.blk = blk ∧ w.status = .running then
        (s.setWave e.2 { (w.sput d (BitVec.ofNat 32 st)).advance 1 with wait := .none, abn := st == 1, readySince := s.clock }).endIfEmpty e.2
      else s
    | _ => s) s

end State

/-- The generation completes, no earlier than the cycle after its last arrival has landed: the named phases advance, all in one step, and
without a scrub the waves become ready at once (R33, R123). -/
def execBarrierGenerationComplete (blk : Nat) (s : State) : Host.Outcome State Fault Refusal :=
  let b := s.block blk
  let named := s.namedEntries b
  let s' := named.foldl (fun s x => s.advancePhase x.1 x.2) s
  when "BARRIER_GENERATION_COMPLETE"
    ((s.block? blk).isSome && !b.ended && !b.closing && b.outcomeFixed s.clock && named.all (fun x => !((s.wave x.1).adits.get {} x.2).scrub))
    (if named.isEmpty then s'.openGeneration blk else s'.modBlock blk (fun b => { b with closing := true }))

/-- The scrub of an entry: the rows of a generation's advance are scrubbed here, entry after entry, those of one exporter in ascending
entry order (R275); with the last of them the generation makes its waves ready (R57, R123). -/
def execAditScrubEnd (p entry : Nat) (s : State) : Host.Outcome State Fault Refusal :=
  let e := (s.wave p).adits.get {} entry
  let s' := (if e.gen then s.scrubRows p entry else s).modWave p (fun w => { w with adits := w.adits.set {} entry { e with scrub := false, gen := false } })
  let earlier := e.gen && (s.wave p).adits.any (fun x => decide (x.1 < entry) && x.2.scrub && x.2.gen)
  let b := s'.block (s.wave p).blk
  when "ADIT_SCRUB_END" (e.scrub && !earlier) (if e.gen && b.closing && !s'.scrubbing b then s'.openGeneration b.id else s')

end Sys2Proof.Machine
end

