-- ==== Sys2Proof/Machine/Flags.lean ====
section
/-! DEFINITION. Number formats, exact values, rounding, and the conditions each result raises (R82 to R96, R332). -/

namespace Sys2Proof.Machine

/-- Conditions as bits of flg (R97). -/
def fSAT : BitVec 6 := 0x20
def fIV : BitVec 6 := 0x10
def fDZ : BitVec 6 := 0x08
def fOF : BitVec 6 := 0x04
def fUF : BitVec 6 := 0x02
def fNX : BitVec 6 := 0x01

/-- What md gives an arithmetic form (R86): RND, SAT, FTZ. -/
structure Mode where
  rnd : Nat := 0
  sat : Bool := false
  ftz : Bool := false
deriving DecidableEq, Repr

def modeOf (md : BitVec 16) : Mode :=
  { rnd := md.toNat / 16 % 4, sat := md.getLsbD 6, ftz := md.getLsbD 7 }

/-- A floating format of R82. `ieee` formats have infinities and NaN payloads; the others one NaN, the code of only the
top bit. -/
structure Fmt where
  width : Nat
  frac : Nat
  bias : Nat
  ieee : Bool
deriving DecidableEq, Repr

def f32 : Fmt := { width := 32, frac := 23, bias := 127, ieee := true }
def f16 : Fmt := { width := 16, frac := 10, bias := 15, ieee := true }
def b16 : Fmt := { width := 16, frac := 7, bias := 127, ieee := true }
def t8 : Fmt := { width := 8, frac := 3, bias := 7, ieee := false }
def w8 : Fmt := { width := 8, frac := 2, bias := 15, ieee := false }
def t4 : Fmt := { width := 4, frac := 1, bias := 1, ieee := false }

namespace Fmt

def top (f : Fmt) : Nat := 2 ^ (f.width - 1)
/-- The highest exponent field. -/
def eMax (f : Fmt) : Nat := 2 ^ (f.width - 1 - f.frac) - 1
/-- The canonical NaN (R91). -/
def nan (f : Fmt) : Nat := if f.ieee then f.eMax * 2 ^ f.frac + 2 ^ (f.frac - 1) else f.top
def signed (f : Fmt) (neg : Bool) (c : Nat) : Nat := if neg then f.top + c else c
def inf (f : Fmt) (neg : Bool) : Nat := f.signed neg (f.eMax * 2 ^ f.frac)
def largest (f : Fmt) (neg : Bool) : Nat :=
  f.signed neg (if f.ieee then f.eMax * 2 ^ f.frac - 1 else f.top - 1)
/-- A zero: the narrow formats have one zero only (R90). -/
def zero (f : Fmt) (neg : Bool) : Nat := if f.ieee then f.signed neg 0 else 0
/-- The exponent of the least normal. -/
def eMin (f : Fmt) : Int := 1 - (f.bias : Int)

end Fmt

/-- A value of a format: NaN (signalling or not), an infinity, or ± m · 2^e. -/
inductive FVal where
  | nan (sig : Bool)
  | inf (neg : Bool)
  | fin (neg : Bool) (m : Nat) (e : Int)
deriving DecidableEq, Repr, Inhabited

namespace FVal

def isNan : FVal → Bool
  | .nan _ => true
  | _ => false
def isSig : FVal → Bool
  | .nan g => g
  | _ => false
def isZero : FVal → Bool
  | .fin _ m _ => m == 0
  | _ => false
def neg : FVal → FVal
  | .nan g => .nan g
  | .inf n => .inf (!n)
  | .fin n m e => .fin (!n) m e
def isNeg : FVal → Bool
  | .nan _ => false
  | .inf n => n
  | .fin n _ _ => n
def abs : FVal → FVal
  | .nan g => .nan g
  | .inf _ => .inf false
  | .fin _ m e => .fin false m e
/-- Times a power of two. -/
def scale (k : Int) : FVal → FVal
  | .fin n m e => .fin n m (e + k)
  | v => v

/-- Exact order of two values that are no NaN: less, equal, greater; -0 equals +0. -/
def cmp (a b : FVal) : Ordering :=
  let num : FVal → Int := fun v =>
    match v with
    | .nan _ => 0
    | .inf n => if n then -2 else 2
    | .fin n m _ => if m = 0 then 0 else if n then -1 else 1
  match a, b with
  | .fin na ma ea, .fin nb mb eb =>
    let e := min ea eb
    let x : Int := (if na then -1 else 1) * (ma * 2 ^ (ea - e).toNat : Nat)
    let y : Int := (if nb then -1 else 1) * (mb * 2 ^ (eb - e).toNat : Nat)
    compare x y
  | a, b => compare (num a) (num b)

end FVal

namespace Fmt

/-- The value of a code (R82). -/
def decode (f : Fmt) (c : Nat) : FVal :=
  let neg := bitOf c (f.width - 1)
  let m := c % 2 ^ f.frac
  let e := c / 2 ^ f.frac % 2 ^ (f.width - 1 - f.frac)
  if f.ieee ∧ e = f.eMax then (if m = 0 then .inf neg else .nan (!(bitOf m (f.frac - 1))))
  else if !f.ieee ∧ c % 2 ^ f.width = f.top then .nan false
  else if e = 0 then .fin neg m (f.eMin - f.frac)
  else .fin neg (2 ^ f.frac + m) ((e : Int) - f.bias - f.frac)

/-- The value of an operand: under FTZ a subnormal of f32, f16 or b16 reads as zero of its sign (R92). -/
def operand (f : Fmt) (md : Mode) (c : Nat) : FVal :=
  match f.decode c with
  | .fin n m e => if md.ftz ∧ f.ieee ∧ m < 2 ^ f.frac then .fin n 0 e else .fin n m e
  | v => v

/-- The code of ± n · 2^q, where n has at most frac + 1 bits and q keeps the spacing of the format. -/
def encode (f : Fmt) (neg : Bool) (n : Nat) (q : Int) : Nat :=
  if n = 0 then f.zero neg
  else if n < 2 ^ f.frac then f.signed neg n
  else f.signed neg ((q + f.frac + f.bias).toNat * 2 ^ f.frac + (n - 2 ^ f.frac))

end Fmt

/-- Whether a magnitude with remainder is taken one step up (R88): `half` compares the discarded part with one half. -/
def roundUp (rnd : Nat) (neg odd inexact : Bool) (half : Ordering) : Bool :=
  match rnd with
  | 0 => half == .gt || (half == .eq && odd)
  | 1 => false
  | 2 => neg && inexact
  | _ => !neg && inexact

/-- ± m · 2^e, with a sticky excess below one unit of m, to a multiple of 2^q: the multiple and whether it is inexact. -/
def quantize (rnd : Nat) (neg : Bool) (m : Nat) (e q : Int) (sticky : Bool) : Nat × Bool :=
  if q ≤ e then
    let n := m * 2 ^ (e - q).toNat
    (if roundUp rnd neg (n % 2 == 1) sticky .lt then n + 1 else n, sticky)
  else
    let d := 2 ^ (q - e).toNat
    let n := m / d
    let r := m % d
    let half : Ordering := if 2 * r < d then .lt else if 2 * r > d then .gt else if sticky then .gt else .eq
    (if roundUp rnd neg (n % 2 == 1) (r != 0 || sticky) half then n + 1 else n, r != 0 || sticky)

namespace Fmt

/-- A rounded result with its conditions: overflow, underflow, inexact, saturation (R88, R89, R92). -/
def round (f : Fmt) (md : Mode) (neg : Bool) (m : Nat) (e : Int) (sticky : Bool) : Nat × BitVec 6 :=
  if m = 0 ∧ !sticky then (f.zero neg, 0)
  else
    let q : Int := max ((Nat.log2 m : Int) + e - f.frac) (f.eMin - f.frac)
    let r := quantize md.rnd neg m e q sticky
    let carry := r.1 = 2 ^ (f.frac + 1)
    let n := if carry then 2 ^ f.frac else r.1
    let q := if carry then q + 1 else q
    let field := q + f.frac + f.bias
    let ovf := decide (2 ^ f.frac ≤ n) &&
      (if f.ieee then decide ((f.eMax : Int) ≤ field)
       else decide ((f.eMax : Int) < field))
    if ovf then
      if f.ieee then
        let toInf := md.rnd == 0 || (md.rnd == 2 && neg) || (md.rnd == 3 && !neg)
        (if toInf then f.inf neg else f.largest neg, fOF ||| fNX)
      else if md.sat then (f.largest neg, fOF ||| fNX ||| fSAT)
      else (f.nan, fOF ||| fNX)
    else if n = 0 then (f.zero neg, fNX)
    else if n < 2 ^ f.frac then
      if md.ftz ∧ f.ieee then (f.zero neg, fUF ||| fNX)
      else (f.encode neg n q, if r.2 then fUF ||| fNX else 0)
    else (f.encode neg n q, if r.2 then fNX else 0)

/-- Invalid: the canonical NaN (R91). -/
def invalid (f : Fmt) : Nat × BitVec 6 := (f.nan, fIV)

/-- A value to a format: NaN is canonical, an infinity goes to a narrow format as R89 says. `sig` raises invalid. -/
def ofVal (f : Fmt) (md : Mode) (v : FVal) : Nat × BitVec 6 :=
  match v with
  | .nan g => (f.nan, if g then fIV else 0)
  | .inf n =>
    if f.ieee then (f.inf n, 0)
    else if md.sat then (f.largest n, fSAT) else (f.nan, fIV)
  | .fin n m e => f.round md n m e false

end Fmt

/-! ### Sums and products (R91, R94, R95, R332) -/

/-- The exact product, and whether it is invalid (0 × ∞). -/
def mulVal (a b : FVal) : FVal × Bool :=
  match a, b with
  | .nan _, _ => (.nan false, false)
  | _, .nan _ => (.nan false, false)
  | .inf n, y => if y.isZero then (.nan false, true) else (.inf (n != y.isNeg), false)
  | x, .inf n => if x.isZero then (.nan false, true) else (.inf (n != x.isNeg), false)
  | .fin na ma ea, .fin nb mb eb => (.fin (na != nb) (ma * mb) (ea + eb), false)

/-- An exact sum of finite terms: m · 2^e with m an integer. -/
def sumFin : List FVal → Int × Int
  | [] => (0, 0)
  | v :: t =>
    let s := sumFin t
    match v with
    | .fin n m e =>
      if m = 0 then s
      else if s.1 = 0 then ((if n then -1 else 1) * (m : Int), e)
      else
        let q := min e s.2
        ((if n then -1 else 1) * (m * 2 ^ (e - q).toNat : Nat) + s.1 * (2 ^ (s.2 - q).toNat : Nat), q)
    | _ => s

/-- The sign of an exact zero sum (R332). -/
def zeroSign (rnd : Nat) (ts : List FVal) : Bool :=
  if ts.all FVal.isZero then
    (if ts.all (fun t => t.isNeg) then true else if ts.all (fun t => !t.isNeg) then false else rnd == 2)
  else rnd == 2

/-- The rounded sum of terms (R88, R91, R332); `bad` tells that a product was invalid. -/
def Fmt.sum (f : Fmt) (md : Mode) (ts : List FVal) (bad : Bool) : Nat × BitVec 6 :=
  if bad then f.invalid
  else if ts.any FVal.isNan then (f.nan, 0)
  else if ts.any (fun t => t == .inf false) && ts.any (fun t => t == .inf true) then f.invalid
  else if ts.any (fun t => t == .inf false) then f.ofVal md (.inf false)
  else if ts.any (fun t => t == .inf true) then f.ofVal md (.inf true)
  else
    let s := sumFin ts
    if s.1 = 0 then (f.zero (zeroSign md.rnd ts), 0)
    else f.round md (decide (s.1 < 0)) s.1.natAbs s.2 false

/-- A signalling NaN among operands raises invalid (R91). -/
def sigFlag (vs : List FVal) : BitVec 6 := if vs.any FVal.isSig then fIV else 0

/-- The rounded sum of products and single terms. -/
def Fmt.dot (f : Fmt) (md : Mode) (prods : List (FVal × FVal)) (adds : List FVal) : Nat × BitVec 6 :=
  let ps := prods.map (fun x => mulVal x.1 x.2)
  let r := f.sum md (ps.map (·.1) ++ adds) (ps.any (·.2))
  (r.1, r.2 ||| sigFlag (prods.map (·.1) ++ prods.map (·.2) ++ adds))

/-! ### Division and square root, exactly rounded -/

/-- a / b (R91): NaN, 0/0 and ∞/∞ cases, the divide flag, else the quotient with 40 bits and more and a sticky rest. -/
def Fmt.div (f : Fmt) (md : Mode) (a b : FVal) : Nat × BitVec 6 :=
  let sg := sigFlag [a, b]
  match a, b with
  | .nan _, _ => (f.nan, sg)
  | _, .nan _ => (f.nan, sg)
  | .inf n, .inf _ => let _ := n; f.invalid
  | .inf n, .fin k _ _ => (f.inf (n != k), 0)
  | .fin n _ _, .inf k => (f.zero (n != k), 0)
  | .fin n m e, .fin k m' e' =>
    if m' = 0 then (if m = 0 then f.invalid else (f.inf (n != k), fDZ))
    else if m = 0 then (f.zero (n != k), 0)
    else
      let sh := Nat.log2 m' + 40
      let q := m * 2 ^ sh / m'
      f.round md (n != k) q (e - e' - sh) (m * 2 ^ sh % m' != 0)

/-- The integer square root, bit by bit. -/
def isqrtGo (n : Nat) : Nat → Nat → Nat
  | 0, r => r
  | b + 1, r => let t := r + 2 ^ b; isqrtGo n b (if t * t ≤ n then t else r)
def isqrt (n : Nat) : Nat := isqrtGo n (Nat.log2 n / 2 + 1) 0

/-- The square root (R91): invalid below -0. -/
def Fmt.sqrt (f : Fmt) (md : Mode) (a : FVal) : Nat × BitVec 6 :=
  match a with
  | .nan g => (f.nan, if g then fIV else 0)
  | .inf n => if n then f.invalid else (f.inf false, 0)
  | .fin n m e =>
    if m = 0 then (f.zero n, 0)
    else if n then f.invalid
    else
      let sh : Nat := 80 + (if (e - 80) % 2 = 0 then 0 else 1)
      let x := m * 2 ^ sh
      let r := isqrt x
      f.round md false r ((e - sh) / 2) (r * r != x)

/-! ### Integers (R84, R89, R93) -/

/-- An integer to `w` bits: wraps, or clamps with the saturation flag (R89). -/
def fitInt (md : Mode) (w : Nat) (signed : Bool) (x : Int) : Nat × BitVec 6 :=
  let lo : Int := if signed then -(2 ^ (w - 1) : Nat) else 0
  let hi : Int := if signed then (2 ^ (w - 1) : Nat) - 1 else (2 ^ w : Nat) - 1
  if lo ≤ x ∧ x ≤ hi then ((x % (2 ^ w : Nat)).toNat, 0)
  else if md.sat then (((if x < lo then lo else hi) % (2 ^ w : Nat)).toNat, fSAT)
  else ((x % (2 ^ w : Nat)).toNat, 0)

/-- A float value to an integer of `w` bits (R93). One that is clamped raises invalid only (assumption 89). -/
def floatToInt (md : Mode) (w : Nat) (signed : Bool) (v : FVal) : Nat × BitVec 6 :=
  let lo : Int := if signed then -(2 ^ (w - 1) : Nat) else 0
  let hi : Int := if signed then (2 ^ (w - 1) : Nat) - 1 else (2 ^ w : Nat) - 1
  let out : Int → Nat × BitVec 6 := fun c =>
    (if md.sat then (c % (2 ^ w : Nat)).toNat else 2 ^ (w - 1), fIV)
  match v with
  | .nan _ => out 0
  | .inf n => out (if n then lo else hi)
  | .fin n m e =>
    let r := quantize md.rnd n m e 0 false
    let x : Int := if n then -(r.1 : Int) else r.1
    if lo ≤ x ∧ x ≤ hi then ((x % (2 ^ w : Nat)).toNat, if r.2 then fNX else 0)
    else out (if x < lo then lo else hi)

/-- An integer as an exact value. -/
def ofInt (x : Int) : FVal := .fin (decide (x < 0)) x.natAbs 0

/-! ### Element types (R85, R87) -/

/-- Kinds of element: float with its format, or integer with its signedness. -/
inductive Kind where
  | flt (f : Fmt)
  | int (signed : Bool)
deriving DecidableEq, Repr

def kindOf : EType → Kind
  | .i32 => .int true
  | .n32 => .int false
  | .f32 => .flt f32
  | .f16x2 => .flt f16
  | .b16x2 => .flt b16
  | .i16x2 => .int true
  | .i8x4 => .int true
  | .n8x4 => .int false
  | .t8x4 => .flt t8
  | .w8x4 => .flt w8
  | .i4x8 => .int true
  | .t4x8 => .flt t4

/-- Element `j` of a packed word (R85). -/
def part (t : EType) (x : Word) (j : Nat) : Nat := x.toNat / 2 ^ (t.width * j) % 2 ^ t.width

def signedOf (t : EType) : Bool :=
  match kindOf t with
  | .int sg => sg
  | .flt _ => false

/-- An integer element as a number. -/
def toInt (t : EType) (c : Nat) : Int := if signedOf t then sext t.width c else (c : Int)

/-- The parts put together, element 0 least significant. -/
def pack (t : EType) : Nat → List Nat → Nat
  | _, [] => 0
  | j, c :: cs => c % 2 ^ t.width * 2 ^ (t.width * j) + pack t (j + 1) cs

/-- A form element by element: results packed, conditions joined. -/
def mapParts (t : EType) (f : Nat → Nat × BitVec 6) : Word × BitVec 6 :=
  let rs := (List.range t.count).map f
  (BitVec.ofNat 32 (pack t 0 (rs.map (·.1))), rs.foldl (fun a r => a ||| r.2) 0)

/-! ### Drain (R96) and the bay's sums (R94) -/

/-- One drained element: accumulator `a`, an i32 value or a float, scale codes, output format (R89, R93, R96), and whether BSAT
counts it (R98; an infinity that becomes NaN without saturation is not counted, assumption 89). -/
def drainElem (md : Mode) (out : EType) (i32acc : Bool) (a : FVal) (r c : Nat) : Nat × Bool :=
  match kindOf out with
  | .flt f =>
    if r = 255 ∨ c = 255 ∨ a.isNan then (f.nan, false)
    else
      let x := f.ofVal md (a.scale ((r + c : Nat) - 254))
      (x.1, x.2 &&& (fOF ||| fSAT) != 0)
  | .int sg =>
    if r = 255 ∨ c = 255 ∨ a.isNan then (2 ^ (out.width - 1), false)
    else
      match i32acc, a.scale ((r + c : Nat) - 254) with
      | true, .fin n m e =>
        let q := quantize md.rnd n m e 0 false
        let x : Int := if n then -(q.1 : Int) else q.1
        let y := fitInt md out.width sg x
        (y.1, (if sg then sext out.width y.1 else (y.1 : Int)) != x)
      | _, v =>
        let y := floatToInt md out.width sg v
        (y.1, y.2 &&& fIV != 0)

/-- One step of a chain for a float element: every group of 16 summed and rounded, then added (R94). -/
def chainFloat (groups : List (List (FVal × FVal))) (acc : Nat) : Nat :=
  groups.foldl (fun acc g =>
    let r := (f32.dot {} g []).1
    (f32.sum {} [f32.decode acc, f32.decode r] false).1) acc

/-- One step of a chain for an INT8 element: exact, wrapping; how many of its additions wrapped (R94). -/
def chainInt (groups : List (List (Int × Int))) (acc : Int) : Int × Nat :=
  groups.foldl (fun a g =>
    let x := a.1 + (g.map (fun y => y.1 * y.2)).sum
    let y := sext 32 (x % (2 ^ 32 : Nat)).toNat
    (y, a.2 + if x = y then 0 else 1)) (acc, 0)


/-! ### Element operations (R139 to R144) -/

/-- The rounded float results of a type, or the exact integer fitted to it. -/
def addElem (md : Mode) (t : EType) (x y : Nat) : Nat × BitVec 6 :=
  match kindOf t with
  | .flt f => f.dot md [] [f.operand md x, f.operand md y]
  | .int sg => fitInt md t.width sg (toInt t x + toInt t y)

def subElem (md : Mode) (t : EType) (x y : Nat) : Nat × BitVec 6 :=
  match kindOf t with
  | .flt f => f.dot md [] [f.operand md x, (f.operand md y).neg]
  | .int sg => fitInt md t.width sg (toInt t x - toInt t y)

def mulElem (md : Mode) (t : EType) (x y : Nat) : Nat × BitVec 6 :=
  match kindOf t with
  | .flt f => f.dot md [(f.operand md x, f.operand md y)] []
  | .int sg => fitInt md t.width sg (toInt t x * toInt t y)

def fmaElem (md : Mode) (t : EType) (x y z : Nat) : Nat × BitVec 6 :=
  match kindOf t with
  | .flt f => f.dot md [(f.operand md x, f.operand md y)] [f.operand md z]
  | .int sg => fitInt md t.width sg (toInt t x * toInt t y + toInt t z)

/-- The high half of the exact product (R139). -/
def mulhElem (t : EType) (x y : Nat) : Nat × BitVec 6 :=
  (((toInt t x * toInt t y) / (2 ^ t.width : Nat) % (2 ^ t.width : Nat)).toNat, 0)

/-- An operand's code as a min or max returns it: under FTZ a subnormal is a zero (R92, R140). -/
def flushed (f : Fmt) (md : Mode) (x : Nat) : Nat :=
  match f.operand md x with
  | .fin n 0 _ => if f.ieee then f.zero n else x
  | _ => x

/-- x is chosen by a minimum before y: -0 lies below +0 (R140). -/
def below (a b : FVal) : Bool :=
  match a.cmp b with
  | .lt => true
  | .gt => false
  | .eq => a.isNeg && !b.isNeg || a.isNeg == b.isNeg

def minmaxElem (isMax : Bool) (md : Mode) (t : EType) (x y : Nat) : Nat × BitVec 6 :=
  match kindOf t with
  | .int _ => (if (toInt t x ≤ toInt t y) != isMax then x else y, 0)
  | .flt f =>
    let a := f.operand md x
    let b := f.operand md y
    let r := if a.isNan && b.isNan then f.nan
             else if a.isNan then flushed f md y
             else if b.isNan then flushed f md x
             else if below a b != isMax then flushed f md x else flushed f md y
    (r, sigFlag [a, b])

/-- VABS and VNEG (R90, R141). -/
def absElem (md : Mode) (t : EType) (x : Nat) : Nat × BitVec 6 :=
  match kindOf t with
  | .flt f => (if f.ieee then x % f.top else if x = f.nan then x else x % f.top, 0)
  | .int sg => fitInt md t.width sg (toInt t x).natAbs

def negElem (md : Mode) (t : EType) (x : Nat) : Nat × BitVec 6 :=
  match kindOf t with
  | .flt f => (if f.ieee then (if x < f.top then x + f.top else x - f.top)
               else if x = f.nan ∨ x = 0 then x else if x < f.top then x + f.top else x - f.top, 0)
  | .int sg => fitInt md t.width sg (-(toInt t x))

/-- The conditions of VCMP (R144). -/
def condHolds (c : Cond) (o : Ordering) : Bool :=
  match c with
  | .eq => o == .eq
  | .ne => o != .eq
  | .lt => o == .lt
  | .le => o != .gt
  | .gt => o == .gt
  | .ge => o != .lt
  | .ord => true
  | .uno => false

def cmpElem (c : Cond) (md : Mode) (t : EType) (x y : Nat) : Nat × BitVec 6 :=
  let ones := 2 ^ t.width - 1
  match kindOf t with
  | .int _ => (if condHolds c (compare (toInt t x) (toInt t y)) then ones else 0, 0)
  | .flt f =>
    let a := f.operand md x
    let b := f.operand md y
    if a.isNan || b.isNan then (if c == .ne || c == .uno then ones else 0, sigFlag [a, b])
    else (if condHolds c (a.cmp b) then ones else 0, 0)

/-- Shifts on bit patterns of width w (R143). -/
def shlElem (w x n : Nat) : Nat := if w ≤ n then 0 else x * 2 ^ n % 2 ^ w
def shrElem (w x n : Nat) : Nat := if w ≤ n then 0 else x / 2 ^ n
def sraElem (w x n : Nat) : Nat := (sext w x / (2 ^ min n w : Nat) % (2 ^ w : Nat)).toNat

/-- Conversion of one element (R93, R147): T8, W8 and T4 go to an integer as the wider floats do, and integers of one width as a
narrowing does (assumption 89). -/
def cvtElem (md : Mode) (tgt src : EType) (x : Nat) : Nat × BitVec 6 :=
  if tgt = src then (x, 0)
  else match kindOf src, kindOf tgt with
  | .flt f, .flt g => g.ofVal md (f.operand md x)
  | .flt f, .int sg => floatToInt md tgt.width sg (f.operand md x)
  | .int _, .flt g => if toInt src x = 0 then (0, 0) else g.ofVal md (ofInt (toInt src x))
  | .int _, .int sg =>
    if src.width < tgt.width then ((toInt src x % (2 ^ tgt.width : Nat)).toNat, 0) else fitInt md tgt.width sg (toInt src x)

/-- VSCL of one element by a code (R148). -/
def sclElem (md : Mode) (f : Fmt) (c x : Nat) : Nat × BitVec 6 :=
  if c = 255 then f.invalid else f.ofVal md ((f.operand md x).scale ((c : Int) - 127))

/-- VDOT and VDOTA of one lane (R95, R149). -/
def dotLane (md : Mode) (t : EType) (x y : Word) (acc : Option Word) : Word × BitVec 6 :=
  let js := List.range t.count
  match kindOf t with
  | .flt f =>
    let r := f32.dot md (js.map (fun j => (f.decode (part t x j), f.decode (part t y j))))
      (match acc with | some a => [f32.operand md a.toNat] | none => [])
    (BitVec.ofNat 32 r.1, r.2)
  | .int _ =>
    let base : Int := match acc with | some a => sext 32 a.toNat | none => 0
    let r := fitInt md 32 true (base + (js.map (fun j => toInt t (part t x j) * toInt t (part t y j))).sum)
    (BitVec.ofNat 32 r.1, r.2)

/-- Counts of bits (R146). -/
def popCount (x : Word) : Nat := (List.range 32).countP (fun i => x.getLsbD i)
def clz (x : Word) : Nat := if x = 0 then 32 else 31 - Nat.log2 x.toNat

/-- The type md names; it never holds a reserved code (R87). -/
def typeOf (md : BitVec 16) : EType := (EType.ofCode (md.toNat % 16)).getD .f32

/-- The type a scalar form computes in (R134). -/
def scalarType (md : BitVec 16) : EType :=
  match typeOf md with
  | .n32 => .n32
  | .f32 => .f32
  | _ => .i32

end Sys2Proof.Machine
end

