-- ==== Sys2Proof/Machine/Geode.lean ====
section
/-! DEFINITION. Geodes: descriptors, the geode unit's queue and commands (R250 to R263, R333). -/

namespace Sys2Proof.Machine

/-! ### Polynomial arithmetic (R255 to R259): coefficients are f32 codes, rounding to nearest even, no FTZ -/

/-- A value whose magnitude is at least 2^k. -/
def atLeast (k : Int) : FVal → Bool
  | .fin _ m e => m != 0 && decide (k ≤ (Nat.log2 m : Int) + e)
  | .inf _ => true
  | .nan _ => false

/-- An exponent in the i32 range, and whether it saturated (R256). -/
def satExp (e : Int) : Word × Bool :=
  if e < -(2 ^ 31 : Nat) then (BitVec.ofInt 32 (-(2 ^ 31 : Nat)), true)
  else if (2 ^ 31 : Nat) - 1 < e then (BitVec.ofInt 32 ((2 ^ 31 : Nat) - 1), true)
  else (BitVec.ofInt 32 e, false)

/-- What a command works on: the descriptor and c_0 to c_D. -/
structure Poly where
  g : Geode
  cs : List Nat

/-- Every coefficient times 2^k, rounded; the exponent moves by -k (R256, R258). -/
def Poly.shift (q : Poly) (k : Int) : Poly :=
  let e := satExp (q.g.exp.toInt - k)
  { g := { q.g with exp := e.1, eov := q.g.eov || e.2 }, cs := q.cs.map (fun c => (f32.ofVal {} ((f32.decode c).scale k)).1) }

/-- rescale() of R256. -/
def Poly.rescale (q : Poly) : Poly :=
  let vs := q.cs.map f32.decode
  if vs.any (fun v => v.isNan || v == .inf false || v == .inf true) then { q with g := { q.g with nf := true } }
  else if vs.any (atLeast 64) then q.shift (-64)
  else if vs.any (fun v => !v.isZero) && !vs.any (atLeast (-64)) then q.shift 64
  else q

/-- One factor (a + b x) multiplied in (R256). -/
def Poly.times (q : Poly) (a b : Word) : Poly :=
  let av := f32.decode a.toNat
  let bv := f32.decode b.toNat
  let cs := q.cs.zipIdx.map (fun x =>
    if x.2 = 0 then (f32.dot {} [(av, f32.decode x.1)] []).1
    else (f32.dot {} [(av, f32.decode x.1), (bv, f32.decode (q.cs.getD (x.2 - 1) 0))] []).1)
  let full := q.g.n == BitVec.allOnes 32
  Poly.rescale { g := { q.g with n := if full then q.g.n else q.g.n + 1, eov := q.g.eov || full }, cs := cs }

/-- The quotients from the low end (R257). -/
def quotients (av bv : FVal) : Option Nat → List Nat → List Nat
  | _, [] => []
  | prev, c :: t =>
    let x := match prev with
      | none => c
      | some p => (f32.dot {} [(bv.neg, f32.decode p)] [f32.decode c]).1
    let q := (f32.div {} (f32.decode x) av).1
    q :: quotients av bv (some q) t

/-- One factor divided out (R257). -/
def Poly.over (q : Poly) (a b : Word) : Poly :=
  let av := f32.decode a.toNat
  let bv := f32.decode b.toNat
  if q.g.n = 0 then { q with g := { q.g with emp := true } }
  else
    let ill := !av.isNan && !bv.isNan && (bv.abs.cmp av.abs == .gt)
    let n := q.g.n - 1
    let cs := if av.isZero then q.cs.map (fun _ => f32.nan) else quotients av bv none q.cs
    let cs := cs.zipIdx.map (fun x => if n.toNat < x.2 then 0 else x.1)
    Poly.rescale { g := { q.g with n := n, ill := q.g.ill || ill, dz := q.g.dz || av.isZero, nf := q.g.nf || av.isZero }, cs := cs }

/-- The largest ⌊log2⌋ of the finite coefficients, none where all are zero. A NaN or an infinity, which a coefficient may be without NF
where the bound register has been written directly, has no part in it: the model's choice (assumption 107). -/
def topExp : List FVal → Option Int
  | [] => none
  | .fin _ m e :: t =>
    if m = 0 then topExp t
    else match topExp t with
      | none => some ((Nat.log2 m : Int) + e)
      | some k => some (max k ((Nat.log2 m : Int) + e))
  | _ :: t => topExp t

/-- PRSC (R258). -/
def Poly.normalise (q : Poly) : Poly :=
  if q.g.nf then q
  else match topExp (q.cs.map f32.decode) with
    | none => q
    | some k => q.shift (-k)

/-- POUT's element (R259): beyond ±2000 a power of two rounds as it does there. -/
def outElem (md : BitVec 16) (c : Nat) (e : Int) : Nat :=
  match f32.decode c with
  | .nan _ => f32.nan
  | v => (f32.ofVal { (modeOf md) with ftz := false } (v.scale (max (-2000) (min 2000 e)))).1

/-! ### The forms (R252 to R261) -/

namespace State

/-- The core's descriptor that a block geode names. -/
def geodeOf (s : State) (p g : Nat) : Nat := (s.block (s.wave p).blk).geodes.getD g 8

/-- A form on a bound geode of the wave, else the geode fault (R261). -/
def onGeode (s : State) (p g : Nat) (go : State → Nat → Geode → State) : State :=
  let b := s.block (s.wave p).blk
  let n := s.geodeOf p g
  let x := s.geode (coreOf p) n
  if b.geodes.length ≤ g ∨ !x.bnd ∨ x.party ≠ p then s.halt p 0x20 g else go s n x

/-- Queues a command (R46, R252): operand rows free, target rows free, room in the queue of 16, no race. An earlier write through a handle
may still be under way to an operand row (R218, AW → ER). That a pending operand row holds the wave at issue, as pending row, is the
model's choice (assumption 122). A race leaves the rows accessed before it as they then stand (R333). -/
def queueGeode (s : State) (p n : Nat) (srcs : Regs) (target : Nat) (work : State → GeodeWork) : State :=
  let rows := (List.range 3).map (fun b => vrow p target b)
  let acc := accesses p srcs []
  s.unlessHeld p (reason 1 (s.fenced p (work s).classes || decide (16 ≤ (s.core (coreOf p)).geodeQ.length)) |||
      reason 3 (acc.any (fun r => s.rowHeld r.1) || rows.any (fun r => s.rowHeld r || s.readTouch p r))) fun s =>
    match s.racing p acc with
    | r :: _ => (s.markRows p (acc.takeWhile (fun a => a.1 != r))).halt p 0x27 2 0 (BitVec.ofNat 64 (r % rowsPerCore))
    | [] =>
      let w := s.wave p
      let s := s.markRows p acc
      let cmd : GeodeCmd := { id := s.nextId, party := p, lid := w.lid, pc := w.pc, k := w.k, g := n, work := work s, rows := rows }
      let s := { s with nextId := s.nextId + 1 }.pend cmd.id rows
      (s.modCore (coreOf p) (fun c => { c with geodeQ := c.geodeQ ++ [cmd] })).modWave p (·.advance 1)

/-- Commands of a geode that have not completed. -/
def geodeBusy (s : State) (c n : Nat) : Bool := (s.core c).geodeQ.any (fun q => q.g == n)

/-- The factors of the active lanes, with their poison (R256, R257). -/
def factors (s : State) (p a b : Nat) : List (Word × Word × Bool) :=
  (lanesOf (s.wave p).activeMask).map (fun l =>
    (s.vget p a l, s.vget p b l, s.poisoned (velem p a l) || s.poisoned (velem p b l)))

end State

def execPbind (g r a : Nat) (s : State) : Host.Outcome State Fault Refusal := onWave s fun p =>
  s.opened p [] [a] fun s =>
    let w := s.wave p
    let b := s.block w.blk
    let n := s.geodeOf p g
    let d := bitsOf (w.sget a).toNat 6 0
    if b.geodes.length ≤ g ∨ (s.geode (coreOf p) n).bnd ∨ 95 < d then s.halt p 0x20 g
    else (s.modGeode (coreOf p) n (fun _ => { wave := w.num, vreg := r, bnd := true, dcap := d, party := p })).modWave p (·.advance 1)

def execPinit (g : Nat) (s : State) : Host.Outcome State Fault Refusal := onWave s fun p =>
  s.onGeode p g fun s n x => s.queueGeode p n [] x.vreg (fun _ => .init)

/-- PMUL: its operands are engine reads, which hold while their rows are pending (R47, R49, R77). -/
def execPmul (g a b : Nat) (s : State) : Host.Outcome State Fault Refusal := onWave s fun p =>
  s.onGeode p g fun s n x =>
    let m := (s.wave p).activeMask
    s.queueGeode p n [(a, m), (b, m)] x.vreg (fun s => .mul (s.factors p a b))

def execPdiv (g a b : Nat) (s : State) : Host.Outcome State Fault Refusal := onWave s fun p =>
  s.onGeode p g fun s n x =>
    let m := (s.wave p).activeMask
    s.queueGeode p n [(a, m), (b, m)] x.vreg (fun s => .div (s.factors p a b))

def execPrsc (g : Nat) (s : State) : Host.Outcome State Fault Refusal := onWave s fun p =>
  s.onGeode p g fun s n x => s.queueGeode p n [] x.vreg (fun _ => .rsc)

def execPout (d g a : Nat) (s : State) : Host.Outcome State Fault Refusal := onWave s fun p =>
  s.opened p [] [a] fun s => s.onGeode p g fun s n _ =>
    let w := s.wave p
    if typeOf w.md ≠ .f32 then s.halt p 0x13 (typeOf w.md).code
    else s.queueGeode p n [] d (fun _ => .out d (w.sget a) w.md w.activeMask)

/-- The words of a descriptor (R251). -/
def Geode.words (x : Geode) : Word × Word × Word :=
  let bit : Bool → Nat → Nat := fun b i => if b then 2 ^ i else 0
  (BitVec.ofNat 32 (x.dcap + bit x.bnd 7 + bit x.ill 8 + bit x.dz 9 + bit x.nf 10 + bit x.eov 11 + bit x.emp 12 +
    65536 * x.vreg + 16777216 * x.wave), x.n, x.exp)

def execPdesc (d g : Nat) (s : State) : Host.Outcome State Fault Refusal := onWave s fun p =>
  s.opened p [] [d, d + 1, d + 2, d + 3] fun s => s.onGeode p g fun s n x =>
    if s.geodeBusy (coreOf p) n then s.stall p 1
    else
      let v := x.words
      (s.modWave p (fun w => ((((w.sput d v.1).sput (d + 1) v.2.1).sput (d + 2) v.2.2).sput (d + 3) 0).advance 1)).endIfEmpty p

def execPunb (g : Nat) (s : State) : Host.Outcome State Fault Refusal := onWave s fun p =>
  s.onGeode p g fun s n _ =>
    if s.geodeBusy (coreOf p) n then s.stall p 1
    else (s.modGeode (coreOf p) n (fun _ => {})).modWave p (·.advance 1)

/-! ### The unit (R252) -/

namespace State

/-- c_0 to c_D and their poison. -/
def coeffs (s : State) (x : Geode) : List Nat × Bool :=
  let ls := List.range (x.dcap + 1)
  (ls.map (fun l => (s.vget x.party x.vreg l).toNat), ls.any (fun l => s.poisoned (velem x.party x.vreg l)))

/-- Writes c_0 to c_D. -/
def putCoeffs (s : State) (x : Geode) (cs : List Nat) (bad : Bool) : State :=
  cs.zipIdx.foldl (fun s c => s.putElem (velem x.party x.vreg c.2) (BitVec.ofNat 32 c.1) bad) s

/-- A command that changes the polynomial: poison that it uses goes into every lane that it writes. -/
def reworked (s : State) (c n : Nat) (x : Geode) (used : Bool) (write : Bool) (f : Poly → Poly) : State :=
  let q := f { g := x, cs := (s.coeffs x).1 }
  let s := if write then s.putCoeffs x q.cs (used || (s.coeffs x).2) else s
  s.modGeode c n (fun _ => q.g)

/-- A command writes its polynomial: one without factors, a PDIV of the empty product and a PRSC with NF set or all coefficients zero
change nothing (R256 to R258). -/
def reworks (s : State) (cmd : GeodeCmd) (x : Geode) : Bool :=
  match cmd.work with
  | .mul fs => !fs.isEmpty
  | .div fs => !fs.isEmpty && x.n != 0
  | .rsc => !x.nf && (topExp ((s.coeffs x).1.map f32.decode)).isSome
  | _ => true

/-- The rows of the bound register that a command reads. -/
def geodeReads (cmd : GeodeCmd) (x : Geode) : List Nat :=
  match cmd.work with
  | .init => []
  | .mul fs => if fs.isEmpty then [] else boundRows x
  | .div fs => if fs.isEmpty then [] else boundRows x
  | .rsc => boundRows x
  | .out _ _ _ m => if m = 0 then [] else boundRows x

/-- The rows that a command writes. -/
def geodeWrites (s : State) (cmd : GeodeCmd) (x : Geode) : List Nat :=
  match cmd.work with
  | .init => (List.range 3).map (fun b => vrow x.party x.vreg b)
  | .out d _ _ m => (beatsOf m).map (vrow x.party d)
  | _ => if s.reworks cmd x then boundRows x else []

/-- The accesses of a command: its reads, then its writes (R55). -/
def geodeRows (s : State) (cmd : GeodeCmd) (x : Geode) : List (Nat × Bool) :=
  (geodeReads cmd x).map (fun r => (r, false)) ++ (s.geodeWrites cmd x).map (fun r => (r, true))

/-- Performs a command (R255 to R259). The poison of a PDIV's factors that meet n = 0 is not used: the model's choice (assumption 108). -/
def performGeode (s : State) (c : Nat) (cmd : GeodeCmd) (x : Geode) : State :=
  match cmd.work with
  | .init =>
    (s.vput x.party x.vreg allLanes (fun l => if l = 0 then 0x3F800000 else 0)).modGeode c cmd.g (fun g =>
      { g with n := 0, exp := 0, emp := false, eov := false, nf := false, dz := false, ill := false })
  | .mul fs => s.reworked c cmd.g x (fs.any (·.2.2)) (s.reworks cmd x) (fun q => fs.foldl (fun q f => q.times f.1 f.2.1) q)
  | .div fs => s.reworked c cmd.g x ((fs.take x.n.toNat).any (·.2.2)) (s.reworks cmd x) (fun q => fs.foldl (fun q f => q.over f.1 f.2.1) q)
  | .rsc => s.reworked c cmd.g x false (s.reworks cmd x) Poly.normalise
  | .out d k md m =>
    let cs := s.coeffs x
    (lanesOf m).foldl (fun s l =>
      s.putElem (velem x.party d l)
        (if l ≤ x.dcap then BitVec.ofNat 32 (outElem md (cs.1.getD l 0) (x.exp.toInt + k.toInt)) else 0) cs.2) s

/-- A row that the unit must wait for: pending for a command of another engine, or with a forced write to come (R47, R60). A row that
a command of the queue will write is its own. -/
def geodeWaits (s : State) (core row : Nat) : Bool :=
  if (s.info row).pnd then !(s.core core).geodeQ.any (fun q => q.id == (s.info row).owner) else s.rowHeld row

/-- Takes rows as they stand in another state. -/
def takeRows (s t : State) (rows : List Nat) : State := rows.foldl (fun s r => s.putRow r 0 (t.rowWords r) (t.rowPoison r)) s

/-- A race of the command at the head of the queue: the accesses before it have been made, and the unit makes no further one (R333);
the descriptor stays as it was (log 95). -/
def geodeRace (s : State) (core : Nat) (cmd : GeodeCmd) (x : Geode) (detail row : Nat) (before : List (Nat × Bool)) : State :=
  let t := s.performGeode core cmd x
  let s := (s.markRows cmd.party before).takeRows t ((before.filter (·.2)).map (·.1))
  let s := s.modCore core (fun c => { c with geodeQ := { cmd with raced := true } :: c.geodeQ.tail })
  s.engineHalt cmd.lid core cmd.party detail row (resumeWord cmd.pc cmd.k)

end State

/-- The unit performs the command at the head of its queue; the rows it writes clear (R252, R333). -/
def execGeodeCommandComplete (core : Nat) (s : State) : Host.Outcome State Fault Refusal :=
  match (s.core core).geodeQ with
  | [] => .refused (.notEnabled "GEODE_COMMAND_COMPLETE")
  | cmd :: t =>
    let x := s.geode core cmd.g
    let reads := (State.geodeReads cmd x).map (fun r => (r, false))
    let writes := (s.geodeWrites cmd x).map (fun r => (r, true))
    if cmd.raced || s.lineAt cmd.lid core || (reads ++ writes).any (fun r => s.geodeWaits core r.1) then
      .refused (.notEnabled "GEODE_COMMAND_COMPLETE")
    else match s.racing cmd.party reads, s.racing cmd.party writes with
      | r :: _, _ => .next (s.geodeRace core cmd x 2 r (reads.takeWhile (fun a => a.1 != r)))
      | [], r :: _ => .next (s.geodeRace core cmd x 3 r (reads ++ writes.takeWhile (fun a => a.1 != r)))
      | [], [] =>
        let s := (s.markRows cmd.party (reads ++ writes)).performGeode core cmd x
        let s := (s.modCore core (fun c => { c with geodeQ := t })).unpend cmd.id cmd.rows
        .next (if (s.wave cmd.party).status = .running then s else s.unbindIdle cmd.party)

end Sys2Proof.Machine
end

