-- ==== Sys2Proof/Machine/Matrix.lean ====
section
/-! DEFINITION. Matrix bays: gangs, latches, chains, drains, ramps and their steps (R34, R94, R96, R98, R189 to R207, R333). -/

namespace Sys2Proof.Machine

/-! ### Formats (R191, R193) -/

/-- The element type that a latch format packs. -/
def fmtElements : WFmt → EType
  | .t8 => .t8x4
  | .w8 => .w8x4
  | .i8 => .i8x4
  | .t4 => .t4x8
  | .b16 => .b16x2

/-- Register rows per A-row, and tile rows per column. -/
def fmtRows : WFmt → Nat
  | .b16 => 2
  | _ => 1

/-- The activation types a format accepts (R193). -/
def fmtAccepts (f : WFmt) (t : EType) : Bool :=
  match f, t with
  | .t8, .t8x4 => true
  | .t8, .w8x4 => true
  | .w8, .t8x4 => true
  | .w8, .w8x4 => true
  | .i8, .i8x4 => true
  | .i8, .n8x4 => true
  | .t4, .t4x8 => true
  | .b16, .b16x2 => true
  | _, _ => false

/-- The elements of packed words, element 0 first (R85, R191). -/
def elementsOf (t : EType) (ws : List Word) : List Nat := ws.flatMap (fun x => (List.range t.count).map (part t x))

def isNanCode (t : EType) (c : Nat) : Bool :=
  match kindOf t with
  | .flt f => (f.decode c).isNan
  | .int _ => false

/-- The NaN elements of packed words. -/
def nanCount (t : EType) (ws : List Word) : Nat := (elementsOf t ws).countP (isNanCode t)

/-- Groups of 16, in ascending k. -/
def groupsOf {α : Type} (l : List α) : List (List α) := (List.range (l.length / 16)).map (fun j => (l.drop (16 * j)).take 16)

/-- One chain step of an accumulator element from an A-row and a column, and how often it wrapped (R94). -/
def chainStep (ta tw : EType) (a w : List Word) (acc : Word) : Word × Nat :=
  let xs := elementsOf ta a
  let ys := elementsOf tw w
  match kindOf ta, kindOf tw with
  | .flt fa, .flt fw => (BitVec.ofNat 32 (chainFloat (groupsOf ((xs.map fa.decode).zip (ys.map fw.decode))) acc.toNat), 0)
  | _, _ =>
    let r := chainInt (groupsOf ((xs.map (toInt ta)).zip (ys.map (toInt tw)))) acc.toInt
    (BitVec.ofInt 32 r.1, r.2)

namespace State

def holdsBay (s : State) (p b : Nat) : Bool := (s.block (s.wave p).blk).bays.contains b

/-- Adds to the counters of a bay and of the run of the block that holds it (R98, R300). -/
def countBay (s : State) (c b sat nan : Nat) : State :=
  let top : Nat := 0xFFFFFFFF
  let s := s.modBay c b (fun y => { y with
    bsat := BitVec.ofNat 32 (min top (y.bsat.toNat + sat)), bnan := BitVec.ofNat 32 (min top (y.bnan.toNat + nan)) })
  match (s.bay c b).holder with
  | none => s
  | some blk =>
    let s := s.modBlock blk (fun k => { k with rsat := min top (k.rsat + sat), rnan := min top (k.rnan + nan) })
    let k := s.block blk
    if k.ended then s.lateCounts k (fun j => { j with bsatr := k.rsat, bnanr := k.rnan }) else s

/-! ### Ramps (R203) -/

/-- An MMA or MHINT is queued: a cold bay, or one that ramps down, ramps up. -/
def rampUp (s : State) (c b : Nat) : State :=
  s.modBay c b (fun y =>
    match y.ramp with
    | .cold => { y with ramp := .up, rampEnd := s.clock + 32 }
    | .down => { y with ramp := .up, rampEnd := s.clock + (s.clock - y.rampStart) }
    | _ => y)

end State

def BayWork.isMma : BayWork → Bool
  | .mma .. => true
  | _ => false

/-- Every register row of an MMA, or every accumulator row of an MDRN, has been read. -/
def BayCmd.allRead (c : BayCmd) : Bool :=
  match c.work with
  | .mma ms .. => ms.all (fun m => m.read == 3 * m.count)
  | .mdrn _ n .. => decide (n ≤ c.accRead)
  | _ => true

/-- A stream runs in the bay. -/
def Bay.streams (y : Bay) : Bool := y.queue.any (fun c => c.work.isMma && c.started && !c.allRead)
/-- An MMA is queued that has not started. -/
def Bay.mmaWaits (y : Bay) : Bool := y.queue.any (fun c => c.work.isMma && !c.started)

def State.rampDown (s : State) (c b : Nat) : State :=
  s.modBay c b (fun y => { y with ramp := .down, rampStart := s.clock, rampEnd := s.clock + 32 })

/-- The bay is Warm. Its 64 cycles without a stream count from here at the earliest: the model's choice (R203, assumption 139). -/
def execRampUpEnd (core bay : Nat) (s : State) : Host.Outcome State Fault Refusal :=
  let y := s.bay core bay
  when "RAMP_UP_END" (y.ramp == .up && decide (y.rampEnd.toNat ≤ s.clock.toNat))
    (s.modBay core bay (fun y => { y with ramp := .warm, lastStream := s.clock }))

def execRampDownStart (core bay : Nat) (s : State) : Host.Outcome State Fault Refusal :=
  let y := s.bay core bay
  when "RAMP_DOWN_START" (y.ramp == .warm && decide (y.lastStream.toNat + 64 ≤ s.clock.toNat) &&
      decide (y.hintEnd.toNat ≤ s.clock.toNat) && !y.streams && !y.mmaWaits)
    (s.rampDown core bay)

def execRampDownEnd (core bay : Nat) (s : State) : Host.Outcome State Fault Refusal :=
  let y := s.bay core bay
  when "RAMP_DOWN_END" (y.ramp == .down && decide (y.rampEnd.toNat ≤ s.clock.toNat))
    (s.modBay core bay (fun y => { y with ramp := .cold }))

/-! ### The forms (R195 to R204) -/

/-- The members that a gang value lists. -/
def gangMembers (g : Word) : List Nat := (List.range 16).filter (fun i => g.getLsbD i)

/-- The status of GANG (R196). -/
def State.gangStatus (s : State) (p : Nat) (v : Word) : Nat :=
  let w := s.wave p
  let ms := gangMembers v
  if ms.length < 2 ∨ 6 < ms.length ∨ ms.any (fun i => decide ((s.block w.blk).n ≤ i)) ∨ !ms.contains w.num then 1
  else if bitsOf v.toNat 17 16 = 3 ∨ !s.holdsBay p (bitsOf v.toNat 17 16) ∨ bitsOf v.toNat 31 24 ≠ 0 then 2
  else 0

def execGang (d a : Nat) (s : State) : Host.Outcome State Fault Refusal := onWave s fun p =>
  s.opened p [] [d, a] fun s =>
    let v := (s.wave p).sget a
    let st := s.gangStatus p v
    (s.modWave p (fun w => { (w.sput d (BitVec.ofNat 32 st)).advance 1 with gng := if st = 0 then v else 0 })).endIfEmpty p

/-- A command goes into a bay's queue of 8, or stalls (R194). -/
def State.queueBay (s : State) (p b : Nat) (work : BayWork) (go : State → Nat → State) : State :=
  if 8 ≤ (s.bay (coreOf p) b).queue.length then s.stall p 1
  else
    let w := s.wave p
    let id := s.nextId
    let s : State := { s with nextId := id + 1 }
    go (s.modBay (coreOf p) b (fun y => { y with queue := y.queue ++ [{ id := id, party := p, pc := w.pc, k := w.k, work := work }] })) id

/-- A bay instruction names a bay that its block holds (R189). -/
def State.onBay (s : State) (p b : Nat) (cls : BitVec 8) (go : State → State) : State :=
  if !s.holdsBay p b then s.halt p 0x14 0
  else if s.fenced p cls then s.stall p 1 else go s

/-- The rows that a replay's MWL latches: the logged ones, or those of the entry that the log refers to (R206). -/
def State.servedTile (s : State) (p n : Nat) : Option (List Word) :=
  match s.served? p 6 0 (fun d => d.length == n) with
  | some d => some d
  | none =>
    match s.served? p 7 0 (fun d => d.length == 2), (jobOf (s.runOf p)).bind s.job? with
    | some d, some j =>
      (j.log.find? (fun e => e.kind == 6 && e.seq == (d.getD 0 0).toNat && e.wave == (d.getD 1 0).toNat)).map (fun e => e.data)
    | _, _ => none

def execMwl (bay lat a : Nat) (fmt : WFmt) (s : State) : Host.Outcome State Fault Refusal := onWave s fun p =>
  s.opened p [] [a] fun s => s.onBay p bay 0x40 fun s =>
    let t := ((s.wave p).sget a).toNat
    if 256 ≤ t ∨ (fmt = .b16 ∧ 254 < t) then s.halt p 0x1E 0
    else s.queueBay p bay (.mwl lat t fmt 0) fun s id =>
      let mark : State → Option Nat → List Word → State := fun s q ws =>
        (s.modBay (coreOf p) bay (fun y =>
          { y with queue := y.queue.map (fun c => if c.id = id then { c with seq := q, served := ws } else c) })).modWave p (·.advance 1)
      if s.runOf p ≠ .original then
        match s.servedTile p (4096 * (fmtRows fmt)) with
        | none => s.endEarly p
        | some ws => mark (s.modWave p (fun w => { w with seq := w.seq + 1 })) none ws
      else
        let r := s.reserveSeq p
        mark r.2 r.1 []

/-- Some wave that a gang value lists has ended or been killed (R34). -/
def gangBroken (b : Block) (g : Word) : Bool := (gangMembers g).any (fun i => b.ends.get .live i != .live)

/-- The rendezvous that an MMA joins: one of its own gang, else one that lists the wave, else a new one. -/
def State.join (s : State) (blk : Nat) (num : Nat) (m : Member) : State :=
  let rends := (s.block blk).rends
  let gangOf : Rendezvous → Word := fun r => ((r.members.head?).map (fun x => x.2.gng)).getD 0
  let hit := (rends.find? (fun r => gangOf r == m.gng)).or (rends.find? (fun r => (gangOf r).getLsbD num))
  match hit with
  | some r => s.modBlock blk (fun b => { b with rends := b.rends.map (fun x =>
      if x.n = r.n then { x with members := x.members ++ [(num, m)] } else x) })
  | none =>
    let s' : State := { s with nextId := s.nextId + 1 }
    s'.modBlock blk (fun b => { b with
      rends := b.rends ++ [{ n := s.nextId, members := [(num, m)], since := s.clock }] })

/-- MMA arrives at its rendezvous (R34, R198, R292). -/
def execMma (f count lat : Nat) (s : State) : Host.Outcome State Fault Refusal := onWave s fun p =>
  let w := s.wave p
  if gangMembers w.gng = [] then s.halt p 0x1C 0
  else if s.fenced p 0x40 then s.stall p 1
  else if gangBroken (s.block w.blk) w.gng then s.setWave p { w.advance 1 with abn := true }
  else
    (s.join w.blk w.num { party := p, pc := w.pc, k := w.k, vf := f, count := count, lat := lat, typ := typeOf w.md, gng := w.gng }).modWave p
      (fun w => { w with wait := .rendezvous, reasons := 0x80, active := false })

/-- Rows of an MDRN's destination: z · c / 8, rounded up (R200). -/
def drainRows (out : EType) (c : Nat) : Nat := (out.width * c + 7) / 8

/-- MDRN: its scale register is an engine read, held at a pending row in both modes (R47, R49, R77). That a race there is the wave's own
trap, cause 8 with detail 0xFF, is the model's choice (R56, R200, assumption 121). -/
def execMdrn (sb bay : Nat) (out : EType) (i32acc clr common : Bool) (s : State) : Host.Outcome State Fault Refusal := onWave s fun p =>
  s.opened p [] [sb, sb + 1, sb + 2, sb + 3] fun s => s.onBay p bay 0x80 fun s =>
    let w := s.wave p
    let i0 := (w.sget sb).toNat
    let c := (w.sget (sb + 1)).toNat
    let first := (w.sget (sb + 2)).toNat
    let vs := (w.sget (sb + 3)).toNat
    let sp := if common then CpSpace.common else CpSpace.slot
    let n := drainRows out c
    if c = 0 ∨ 64 < i0 + c ∨ 255 < vs ∨ s.rowCode p sp first n ≠ 0 then s.halt p 0x1E 0
    else
      let src : Regs := [(vs, maskOf (fun l => decide (l < 48)))]
      let dst := s.firstRow p sp first n
      let rows := (List.range n).map (dst + ·)
      s.unlessHeld p (s.rowReasons p src [] ||| reason 3 (rows.any (fun r => s.markHeld p r || s.boundTouch p r))) fun s =>
      if (s.racing p (accesses p src [])).length ≠ 0 then s.trapHere p 0x0008 0x00FF (lanesIn p src (s.racing p (accesses p src [])))
      else
        let scales := (List.range 48).map (fun l => s.vget p vs l)
        let bad := (List.range 48).map (fun l => s.poisoned (velem p vs l))
        s.queueBay p bay (.mdrn i0 c out i32acc clr w.md scales bad dst n) fun s id =>
          ((s.markRows p (accesses p src [])).pend id rows).modWave p (·.advance 1)

def execMzer (bay row count : Nat) (s : State) : Host.Outcome State Fault Refusal := onWave s fun p =>
  s.onBay p bay 0 fun s => s.queueBay p bay (.mzer row count) fun s _ => s.modWave p (·.advance 1)

def execMhint (bay cycles : Nat) (s : State) : Host.Outcome State Fault Refusal := onWave s fun p =>
  s.onBay p bay 0 fun s =>
    let c := coreOf p
    let y := s.bay c bay
    let s := (s.rampUp c bay).modBay c bay (fun y => { y with hintEnd := s.clock + BitVec.ofNat 64 cycles })
    let s := if cycles = 0 ∧ y.ramp = .warm ∧ !y.streams ∧ !y.mmaWaits then s.rampDown c bay else s
    s.modWave p (·.advance 1)

def latchCode : LatchState → Nat
  | .empty => 0
  | .loading => 1
  | .ready => 2

def fmtCode : WFmt → Nat
  | .t8 => 0
  | .w8 => 1
  | .i8 => 2
  | .t4 => 3
  | .b16 => 4

def rampCode : Ramp → Nat
  | .cold => 0
  | .up => 1
  | .warm => 2
  | .down => 3

/-- The two values of MSTAT (R204). -/
def Bay.stat (y : Bay) (sel : Bool) : Word × Word :=
  if sel then
    let l0 := y.latches.get {} 0
    let l1 := y.latches.get {} 1
    (BitVec.ofNat 32 (latchCode l0.state + 4 * latchCode l1.state + 16 * fmtCode l0.fmt + 256 * fmtCode l1.fmt + 4096 * rampCode y.ramp),
     BitVec.ofNat 32 (l0.tile + 256 * l1.tile))
  else (y.bsat, y.bnan)

/-- MSTAT waits for the commands that stood in the queue when it began (R204). -/
def execMstat (d bay : Nat) (sel clr : Bool) (s : State) : Host.Outcome State Fault Refusal := onWave s fun p =>
  s.opened p [] [d, d + 1] fun s => s.onBay p bay 0 fun s =>
    let y := s.bay (coreOf p) bay
    let ids := (s.wave p).awaits.getD (y.queue.map (·.id))
    if ids.any s.outstanding then (s.stall p 1).modWave p (fun w => { w with awaits := some ids })
    else
      let v := y.stat sel
      s.statusForm p [v.1, v.2] fun s vs =>
        let s := if clr then s.modBay (coreOf p) bay (fun y => { y with bsat := 0, bnan := 0 }) else s
        (s.modWave p (fun w => ((w.sput d (vs.getD 0 0)).sput (d + 1) (vs.getD 1 0)).advance 1)).endIfEmpty p

/-! ### The rendezvous (R34, R198) -/

/-- A latch counts as not Empty from the cycle in which an MWL that names it is queued (R197). -/
def Bay.latchEmpty (y : Bay) (lat : Nat) : Bool :=
  decide ((y.latches.get {} lat).state = .empty) && !y.queue.any (fun c => match c.work with | .mwl l .. => l == lat | _ => false)

/-- The format that a latch will hold when the commands queued so far have run. -/
def Bay.fmtFor (y : Bay) (lat : Nat) : WFmt :=
  ((y.queue.filterMap (fun c => match c.work with | .mwl l _ f _ => if l = lat then some f else none | _ => none)).getLast?).getD
    (y.latches.get {} lat).fmt

/-- The checks of R198 over the members in gang order: cause, detail and the party that halts. Check 5 is over the whole gang; that its
first member halts is the model's choice (assumption 104). -/
def gangCheck (y : Bay) (first : Member) (ms : List Member) : Option (Nat × Nat × Nat) :=
  let fmt := y.fmtFor first.lat
  let total := (ms.map (fun m => 3 * m.count)).sum / (fmtRows fmt)
  match ms.find? (fun m => m.gng != first.gng) with
  | some m => some (0x1C, 0, m.party)
  | none =>
  match ms.find? (fun m => m.lat != first.lat) with
  | some m => some (0x1E, 0, m.party)
  | none =>
  if y.latchEmpty first.lat then (ms.head?).map (fun m => (0x1E, 0, m.party))
  else match ms.find? (fun m => !fmtAccepts fmt m.typ) with
  | some m => some (0x1F, m.typ.code, m.party)
  | none =>
  match ms.find? (fun m => (fmtRows fmt) == 2 && m.count % 2 != 0) with
  | some m => some (0x1E, 0, m.party)
  | none => if 64 < bitsOf first.gng.toNat 23 18 + total then (ms.head?).map (fun m => (0x1E, 0, m.party)) else none

/-- The last listed wave has arrived: the checks run and the MMA is queued, or a member halts (R198). An MMA beyond the eighth
command stands behind the queue: its members wait as pipe busy and it starts no earlier than it has a place (R194). -/
def execGangRendezvousComplete (blk n : Nat) (s : State) : Host.Outcome State Fault Refusal :=
  let b := s.block blk
  match b.rends.find? (fun r => r.n == n) with
  | none => .refused (.notEnabled "GANG_RENDEZVOUS_COMPLETE")
  | some r =>
    match r.members with
    | [] => .refused (.notEnabled "GANG_RENDEZVOUS_COMPLETE")
    | (_, first) :: _ =>
      let listed := gangMembers first.gng
      let ms := listed.filterMap (fun i => (r.members.find? (fun x => x.1 == i)).map (·.2))
      let bay := bitsOf first.gng.toNat 17 16
      let y := s.bay b.core bay
      if ms.length ≠ listed.length ∨ (s.launch b.lid).prog ≠ .resident then .refused (.notEnabled "GANG_RENDEZVOUS_COMPLETE")
      else
        let s := s.modBlock blk (fun b => { b with rends := b.rends.filter (fun x => x.n != n) })
        match gangCheck y first ms with
        | some (cause, detail, party) => .next (s.halt party cause detail)
        | none =>
          let row0 := bitsOf first.gng.toNat 23 18
          let cmd : BayCmd :=
            { id := s.nextId, party := first.party, pc := first.pc, k := first.k,
              work := .mma ms first.lat row0 ((ms.map (fun m => 3 * m.count)).sum / fmtRows (y.fmtFor first.lat)) }
          let s : State := { s with nextId := s.nextId + 1 }
          let s := (s.modBay b.core bay (fun y => { y with queue := y.queue ++ [cmd] })).rampUp b.core bay
          .next (ms.foldl (fun s m => s.modWave m.party (fun w => { w with wait := .stream, reasons := 0x02 })) s)

/-- 2^20 resident cycles without completion (R34). -/
def execGangTimeout (blk n : Nat) (s : State) : Host.Outcome State Fault Refusal :=
  match (s.block blk).rends.find? (fun r => r.n == n) with
  | none => .refused (.notEnabled "GANG_TIMEOUT")
  | some r =>
    match r.members with
    | [] => .refused (.notEnabled "GANG_TIMEOUT")
    | (_, m) :: _ =>
      when "GANG_TIMEOUT" ((s.launch (s.block blk).lid).prog == .resident && decide (2 ^ 20 ≤ r.spent + (s.clock - r.since).toNat))
        ((s.modBlock blk (fun b => { b with rends := b.rends.filter (fun x => x.n != n) })).halt m.party 0x1D 0)

/-! ### The bay's queue (R194) -/

/-- The accumulator rows of a command, first and count. -/
def BayWork.accRows : BayWork → Nat × Nat
  | .mwl .. => (0, 0)
  | .mma _ _ r n => (r, n)
  | .mdrn i c .. => (i, c)
  | .mzer r n => (r, n)

/-- An earlier command holds a resource that a later one needs (R194). -/
def holds (e c : BayCmd) : Bool :=
  let rows := meets e.work.accRows.1 e.work.accRows.2 c.work.accRows.1 c.work.accRows.2
  match e.work, c.work with
  | .mwl .., .mwl .. => true
  | .mwl l .., .mma _ l' .. => l == l'
  | .mwl .., _ => false
  | .mma _ l .., .mwl l' .. => !e.allRead && l == l'
  | .mma .., .mma .. => !e.allRead
  | .mma .., _ => rows
  | .mdrn .., .mwl .. => false
  | .mdrn .., _ => !e.allRead && rows
  | .mzer .., .mwl .. => false
  | .mzer .., _ => rows

namespace State

def setCmd (s : State) (c b : Nat) (cmd : BayCmd) : State :=
  s.modBay c b (fun y => { y with queue := y.queue.map (fun x => if x.id = cmd.id then cmd else x) })

def dropCmd (s : State) (c b id : Nat) : State :=
  s.modBay c b (fun y => { y with queue := y.queue.filter (fun x => x.id != id) })

/-- A race of a bay access halts the context at the command that made it (R333). -/
def bayRace (s : State) (c b : Nat) (cmd : BayCmd) (party : Nat) (pc : DWord) (k detail row : Nat) : State :=
  (s.setCmd c b { cmd with raced := true }).engineHalt (s.wave party).lid c party detail row (resumeWord pc k)

/-! ### MDRN (R96, R201) -/

/-- The scale code of a column or a row, with its poison. -/
def scaleCode (scales : List Word) (bad : List Bool) (first n : Nat) : Nat × Bool :=
  (bitsOf (scales.getD (first + n / 4) 0).toNat (8 * (n % 4) + 7) (8 * (n % 4)), bad.getD (first + n / 4) false)

/-- One drained element: code, counted in BSAT, poison. -/
def drained (s : State) (c b i n : Nat) (out : EType) (i32acc : Bool) (md : BitVec 16) (scales : List Word) (bad : List Bool) :
    Nat × Bool × Bool :=
  let key := elemKey (bayRow c b (4 * i + n / 32)) (n % 32)
  let a : FVal := if i32acc then .fin (decide ((s.elem key).toInt < 0)) (s.elem key).toInt.natAbs 0 else f32.decode (s.elem key).toNat
  let col := scaleCode scales bad 0 n
  let row := scaleCode scales bad 32 i
  let r := drainElem (modeOf md) out i32acc a row.1 col.1
  (r.1, r.2, s.poisoned key || col.2 || row.2)

/-- Elements packed into words of a type, with the poison of each word. -/
def packWords (t : EType) : Nat → List (Nat × Bool × Bool) → List (Word × Bool)
  | 0, _ => []
  | n + 1, es =>
    let now := es.take t.count
    (BitVec.ofNat 32 (pack t 0 (now.map (·.1))), now.any (fun x => x.2.2)) :: packWords t n (es.drop t.count)

/-- Zeroes accumulator rows (R201, R202). -/
def zeroAcc (s : State) (c b i n : Nat) : State :=
  (List.range (128 * n)).foldl (fun s j => s.putElem (elemKey (bayRow c b (4 * i)) 0 + j) 0 false) s

/-- MDRN starts: the 0xFF codes among its column scales are counted (R98, assumption 28). -/
def startDrain (s : State) (c b : Nat) (cmd : BayCmd) (scales : List Word) (bad : List Bool) : State :=
  (s.countBay c b 0 ((List.range 128).countP (fun j => (scaleCode scales bad 0 j).1 == 255))).setCmd c b { cmd with started := true }

/-- MDRN reads its next accumulator row: its elements are drained, those that saturate and a 0xFF row scale are counted, and with CLR the
row is cleared. A row that is written six cycles after the last row that feeds it lets the bay read six rows ahead (R96, R98, R201). -/
def readAcc (s : State) (c b : Nat) (cmd : BayCmd) : Option State :=
  match cmd.work with
  | .mdrn i0 _ out i32acc clr md scales bad .. =>
    if !cmd.started || cmd.raced || cmd.allRead || s.lineAt (s.wave cmd.party).lid c ||
        decide (cmd.written < (cmd.accRead - 6) * out.width / 8) then none
    else
      let i := i0 + cmd.accRead
      let es := (List.range 128).map (fun j => s.drained c b i j out i32acc md scales bad)
      let s := s.countBay c b (es.countP (fun e => e.2.1)) (if (scaleCode scales bad 32 i).1 = 255 then 1 else 0)
      let s := if clr then s.zeroAcc c b i 1 else s
      some (s.setCmd c b { cmd with accRead := cmd.accRead + 1, output := cmd.output ++ packWords out (4 * out.width) es })
  | _ => none

/-- The MDRN whose rows are written next. -/
def drainingCmd (s : State) (c b : Nat) : Option BayCmd :=
  (s.bay c b).queue.find? (fun x => x.started && !x.raced && (match x.work with | .mdrn .. => true | _ => false))

/-- Reads up to `n` accumulator rows. -/
def readAccs (s : State) (c b : Nat) : Nat → Option State
  | 0 => some s
  | n + 1 => match (s.drainingCmd c b).bind (s.readAcc c b) with
    | none => none
    | some s => s.readAccs c b n

end State

/-- A queued command starts once no earlier one holds a resource that it needs (R194). -/
def execBayCommandStart (core bay cmd : Nat) (s : State) : Host.Outcome State Fault Refusal :=
  let q := (s.bay core bay).queue
  match q.find? (fun c => c.id == cmd) with
  | none => .refused (.notEnabled "BAY_COMMAND_START")
  | some c =>
    if c.started || decide (8 ≤ (q.takeWhile (fun e => e.id != cmd)).length) || (q.takeWhile (fun e => e.id != cmd)).any (fun e => holds e c) || s.lineAt (s.wave c.party).lid core then
      .refused (.notEnabled "BAY_COMMAND_START")
    else match c.work with
      | .mwl lat tile fmt _ =>
        .next ((s.setCmd core bay { c with started := true }).modBay core bay (fun y =>
          { y with latches := y.latches.set {} lat { state := .loading, tile := tile, fmt := fmt } }))
      | .mma _ lat .. => .next (s.setCmd core bay { c with started := true, weights := (s.bay core bay).latches.get {} lat })
      | .mdrn _ _ _ _ _ _ scales bad .. => .next (s.startDrain core bay c scales bad)
      | .mzer row count => .next ((s.zeroAcc core bay row count).dropCmd core bay cmd)

/-! ### MWL (R197) -/

namespace State

/-- The ceiling rows of a column of a tile (R191). -/
def tileRows (c b tile col : Nat) (fmt : WFmt) : List Nat :=
  (List.range (fmtRows fmt)).map (fun u => ceilRow c (32768 * b + 256 * col + tile + u))

/-- Reads the next column of a started MWL, if its rows are free. -/
def readColumn (s : State) (c b : Nat) (cmd : BayCmd) : Option State :=
  match cmd.work with
  | .mwl lat tile fmt col =>
    let rows := tileRows c b tile col fmt
    let served := !cmd.served.isEmpty
    if 128 ≤ col ∨ !cmd.started ∨ (!served && rows.any s.rowHeld) ∨ s.lineAt (s.wave cmd.party).lid c then none
    else
      let n := 32 * (fmtRows fmt)
      let ws := if served then (cmd.served.drop (n * col)).take n else rows.flatMap s.rowWords
      let bad := if served then [] else rows.flatMap s.rowPoison
      let s := s.countBay c b 0 (nanCount (fmtElements fmt) ws)
      some ((s.setCmd c b { cmd with work := .mwl lat tile fmt (col + 1), reads := cmd.reads ++ [s.tick] }).modBay c b (fun y =>
        let l : Latch := y.latches.get {} lat
        { y with latches := y.latches.set {} lat { l with
            cols := l.cols.set [] col ws, poison := l.poison.set [] col (if bad.any id then bad else []) } }))
  | _ => none

/-- The MWL in progress. -/
def loadingCmd (s : State) (c b : Nat) : Option BayCmd :=
  (s.bay c b).queue.find? (fun x => x.started && (match x.work with | .mwl .. => true | _ => false))

/-- Reads up to `n` columns. -/
def readColumns (s : State) (c b : Nat) : Nat → Option State
  | 0 => some s
  | n + 1 =>
    match s.loadingCmd c b with
    | none => none
    | some cmd => match s.readColumn c b cmd with
      | none => none
      | some s => s.readColumns c b n

/-- The log entry of an MWL: the rows, or a reference to the entry that holds them (R206). -/
def logTile (s : State) (c b : Nat) (cmd : BayCmd) (q tile : Nat) (fmt : WFmt) (l : Latch) : State :=
  let blk := s.block (s.wave cmd.party).blk
  let key := tile + (if fmt = .b16 then 256 else 0)
  let clean : TileLog → Bool := fun t => (List.range 128).all (fun col =>
    (tileRows c b tile col fmt).all (fun r => decide (s.ceilWrites.get 0 r ≤ t.reads.getD col 0 + 1)))
  let old := ((s.job? blk.job).bind (fun j => j.tiles.find? (fun t => t.bay == b && t.tile == key))).filter clean
  match old with
  | some t => s.logReserved cmd.party q 7 0 [BitVec.ofNat 32 t.seq, BitVec.ofNat 32 t.wave]
  | none =>
    let s := s.logReserved cmd.party q 6 0 ((List.range 128).flatMap (fun col => l.cols.get [] col))
    if blk.logging then
      s.modJob blk.job (fun j => { j with tiles := (j.tiles.filter (fun t => !(t.bay == b && t.tile == key))) ++
        [{ bay := b, tile := key, seq := q, wave := (s.wave cmd.party).num, reads := cmd.reads }] })
    else s

end State

/-- MWL finishes reading its tile: the latch is Ready and the command leaves the queue (R197). -/
def execLatchReady (core bay lat : Nat) (s : State) : Host.Outcome State Fault Refusal :=
  match s.loadingCmd core bay with
  | none => .refused (.notEnabled "LATCH_READY")
  | some c =>
    match c.work with
    | .mwl l tile fmt col =>
      if l ≠ lat then .refused (.notEnabled "LATCH_READY")
      else match s.readColumns core bay (128 - col) with
        | none => .refused (.notEnabled "LATCH_READY")
        | some s =>
          let s := s.modBay core bay (fun y => { y with latches := y.latches.set {} lat { y.latches.get {} lat with state := .ready } })
          let s := match c.seq with | some q => s.logTile core bay c q tile fmt ((s.bay core bay).latches.get {} lat) | none => s
          .next (s.dropCmd core bay c.id)
    | _ => .refused (.notEnabled "LATCH_READY")

/-! ### The stream (R198, R199) -/

/-- The member whose row is read next. -/
def nextMember (ms : List Member) : Option (Nat × Member) :=
  (ms.zipIdx.find? (fun x => x.1.read != 3 * x.1.count)).map (fun x => (x.2, x.1))

namespace State

/-- The MMA whose rows are being read. -/
def streaming (s : State) (c b : Nat) : Option BayCmd :=
  (s.bay c b).queue.find? (fun x => x.work.isMma && x.started && !x.allRead && !x.raced)

/-- A member's MMA retires: its last register row has been read. -/
def retireMember (s : State) (m : Member) : State :=
  let w := s.wave m.party
  if w.status = .running ∧ w.wait = .stream then s.setWave m.party { w.advance 1 with wait := .none, readySince := s.clock } else s

/-- Reads the next A-row of the stream: the state, and whether the member retires or a read raced; of an A-row of two register rows the
one read before the race keeps its mark (R199, R333). -/
def streamRow (s : State) (c b : Nat) : Option (State × Bool) :=
  match s.streaming c b with
  | none => none
  | some cmd =>
    match cmd.work with
    | .mma ms lat row0 total =>
      match nextMember ms with
      | none => none
      | some (i, m) =>
        let fmt := cmd.weights.fmt
        let rows := (List.range (fmtRows fmt)).map (fun u => slotRow m.party (3 * m.vf + m.read + u))
        if (s.bay c b).ramp ≠ .warm ∨ rows.any (s.rowBlocked m.party) ∨ s.lineAt (s.wave cmd.party).lid c then none
        else
          let acc := rows.map (fun r => (r, false))
          match s.racing m.party acc with
          | r :: _ => some ((s.markRows m.party (acc.takeWhile (fun a => a.1 != r))).bayRace c b cmd m.party m.pc m.k 0 r, true)
          | [] =>
            let s := s.markRows m.party acc
            let ws := rows.flatMap s.rowWords
            let done := (ms.take i).map (fun x => x.read) |>.sum
            let a : ARow := { row := row0 + (done + m.read) / (fmtRows fmt), words := ws, poison := rows.flatMap s.rowPoison, typ := m.typ }
            let m' := { m with read := m.read + (fmtRows fmt), retired := m.read + (fmtRows fmt) == 3 * m.count }
            let s := s.countBay c b 0 (nanCount m.typ ws)
            let s := s.setCmd c b { cmd with work := .mma (ms.set i m') lat row0 total, accs := cmd.accs ++ [a] }
            let s := s.modBay c b (fun y => { y with lastStream := s.clock })
            some (if m'.retired then s.retireMember m else s, m'.retired)
    | _ => none

/-- Reads rows until a member retires. -/
def streamMember (s : State) (c b : Nat) : Nat → Option State
  | 0 => none
  | n + 1 =>
    match s.streamRow c b with
    | none => none
    | some (s, true) => some s
    | some (s, false) => s.streamMember c b n

/-- One column or A-row read by a bay, where one can be. -/
def bayRead (s : State) (c b : Nat) : State :=
  match s.streamRow c b with
  | some r => r.1
  | none => match (s.loadingCmd c b).bind (s.readColumn c b) with
    | some s => s
    | none => s

/-- Applies an A-row to its accumulator row (R94, R199). -/
def accumulate (s : State) (c b : Nat) (w : Latch) (a : ARow) : State :=
  let step : State → Nat → State := fun s n =>
    let key := elemKey (bayRow c b (4 * a.row + n / 32)) (n % 32)
    let r := chainStep a.typ (fmtElements w.fmt) a.words (w.cols.get [] n) (s.elem key)
    let s := if r.2 = 0 then s else s.countBay c b r.2 0
    s.putElem key r.1 (s.poisoned key || a.poison.any id || (w.poison.get [] n).any id)
  (List.range 128).foldl step s

end State

/-- The bay reads a member's last register row and that member's MMA retires (R198). -/
def execMmaRetire (core bay : Nat) (s : State) : Host.Outcome State Fault Refusal :=
  match s.streamMember core bay 256 with
  | some s => .next s
  | none => .refused (.notEnabled "MMA_RETIRE")

/-- An accumulator row is written; with the last one the MMA leaves the queue (R194, R199). -/
def execAccumulationWrite (core bay : Nat) (s : State) : Host.Outcome State Fault Refusal :=
  match (s.bay core bay).queue.find? (fun c => !c.accs.isEmpty && !c.raced) with
  | none => .refused (.notEnabled "ACCUMULATION_WRITE")
  | some c =>
    match c.accs with
    | [] => .refused (.notEnabled "ACCUMULATION_WRITE")
    | a :: t =>
      let s := s.accumulate core bay c.weights a
      .next (if t.isEmpty && c.allRead then s.dropCmd core bay c.id else s.setCmd core bay { c with accs := t })

/-- Accumulator rows that an MDRN has read once the last one that feeds its next destination row is read. -/
def feeders (n written : Nat) (out : EType) : Nat := min n ((8 * (written + 1) + out.width - 1) / out.width)

/-- A drained row is written, once every accumulator row that feeds it has been read, and its pending mark clears; bits of the last row
beyond the output are zeros (R201). -/
def execDrainRowWrite (core bay : Nat) (s : State) : Host.Outcome State Fault Refusal :=
  match s.drainingCmd core bay with
  | none => .refused (.notEnabled "DRAIN_ROW_WRITE")
  | some c =>
    match c.work with
    | .mdrn _ n out _ _ _ _ _ dst rows =>
      match s.readAccs core bay (feeders n c.written out - c.accRead) with
      | none => .refused (.notEnabled "DRAIN_ROW_WRITE")
      | some s =>
        let c := (s.drainingCmd core bay).getD c
        let key := dst + c.written
        match s.racing c.party [(key, true)] with
        | x :: _ => .next (s.bayRace core bay c c.party c.pc c.k 1 x)
        | [] =>
          let words := (c.output.take 32).map (·.1)
          let s := ((s.markRows c.party [(key, true)]).putRow key 0 (words ++ List.replicate (32 - words.length) 0)
            ((c.output.take 32).map (·.2))).unpend c.id [key]
          .next (if c.written + 1 = rows then s.dropCmd core bay c.id
            else s.setCmd core bay { c with written := c.written + 1, output := c.output.drop 32 })
    | _ => .refused (.notEnabled "DRAIN_ROW_WRITE")

end Sys2Proof.Machine
end

