-- ==== Sys2Proof/Machine/Faults.lean ====
section
/-! DEFINITION. Core stalls and the halt line (R228, R263, R277, R278, R281 to R284, R320, R321). -/

namespace Sys2Proof.Machine

/-! ### Arrival of a host message (R320, R321, R326) -/

/-- What is true of every host message: lost without power or on a module that is down, turned away before firmware
answers, malformed with a reserved bit, a foreign type or subtype, or a length beyond the subtype's limit. -/
def State.receive (s : State) (m : HostMsg) (typ sub limit : Nat) (argMask : DWord) (go : State → State) : State :=
  if s.boot = .removed ∨ 4 ≤ m.module ∨ !(s.modules.get {} m.module).up then s
  else if s.boot ≠ .answering then s.reply m 0xFFFE
  else if m.rsv ∨ m.typ.toNat ≠ typ ∨ m.sub.toNat ≠ sub ∨ limit < m.len ∨ m.arg &&& ~~~argMask ≠ 0 ∨ (m.stat ≠ 0 ∧ typ ≠ 3) then
    s.reply m 0xFFFF
  else go s

/-! ### Core stalls (R228, R277) -/

def AccKind.code : AccKind → Nat
  | .read => 0
  | .write => 1
  | .fetch => 2

/-- A context is resident on a core. -/
def residentOn (l : Launch) (c : Nat) : Bool :=
  (l.prog == .resident || l.prog == .halting) && (State.coresOf l).contains c

namespace State

/-- Up to when the end of a stall counts its time for a context: to the start of the oldest stall of its cores that goes on, which counts
the rest when it ends, so that time in which several of its cores stall is counted once. -/
def countedTo (s : State) (l : Launch) : DWord :=
  (coresOf l).foldl (fun m c => match (s.core c).stall with | some t => if t.since.toNat < m.toNat then t.since else m | none => m) s.clock

/-- The start of PREB after a stall that began at `since` and is counted up to `m`: a request that came during the stall takes effect at its
end, an earlier one waits for the counted time longer (R277). -/
def preemptAfter (a since m : DWord) : DWord :=
  if since.toNat < a.toNat then (if a.toNat < m.toNat then m else a) else if since.toNat < m.toNat then a + (m - since) else a

/-- A stall ends: its time is charged to the context that missed, and does not count toward PREB (R277). -/
def endStall (s : State) (c : Nat) : State :=
  match (s.core c).stall with
  | none => s
  | some t =>
    let d := s.clock - t.since
    let s := s.modCore c (fun k => { k with stall := none })
    { s with launches := s.launches.map (fun l =>
        if residentOn l c then
          { l with credit := if l.lid = t.miss.lid then l.credit else l.credit + d,
                   preempt := l.preempt.map (fun a => preemptAfter a t.since (s.countedTo l)) }
        else l) }

/-- The context of a miss halts at the word that missed, also where poison has killed the wave meanwhile (R173, R277, R284). -/
def missHalt (s : State) (m : Miss) (cause : Nat) : State :=
  let addr : DWord := if m.kind = .fetch then 0 else BitVec.ofNat 64 m.va
  if (s.wave m.party).lid = m.lid ∧ (s.wave m.party).status = .running then
    ((s.modWave m.party (fun w => { w with pc := m.pc, k := m.k })).halt m.party cause 0 m.lanes addr).modWave m.party
      (fun w => if w.status = .halted then { w with reasons := 0x200 } else w)
  else if (s.launch m.lid).prog = .resident ∧ (s.launch m.lid).replay = none then
    s.raiseHalt m.lid (coreOf m.party) m.party cause 0 (resumeWord m.pc m.k) addr m.lanes
  else s

/-- Service that cannot map the page: a halt, or for the header of a LAUNCH a status (R125, R277). -/
def refusePage (s : State) (m : Miss) : State :=
  if m.soft then s.modWave m.party (fun w => if w.lid = m.lid ∧ w.status = .running then { w with refused := true } else w)
  else s.missHalt m 0x18

/-- The core that waits for the reply with a tag. -/
def stalledWith (s : State) (tag : BitVec 16) : Option (Nat × Stall) :=
  s.cores.findSome? (fun c => match c.2.stall with | some t => if t.tag = tag then some (c.1, t) else none | none => none)

end State

/-- A miss that waits stalls its core, which sends one fault message with the 57-bit address (R277, R322). -/
def execTranslationMiss (core : Nat) (s : State) : Host.Outcome State Fault Refusal :=
  let k := s.core core
  match k.stall, k.misses with
  | none, m :: t =>
    let s' := s.setCore core { k with stall := some { miss := m, tag := s.nextTag, since := s.clock }, misses := t }
    let s' : State := { s' with nextTag := s.nextTag + 1 }
    .next (s'.report
      { typ := 2, sub := 0, tag := s.nextTag, addr := BitVec.ofNat 64 (m.va % 2 ^ 57),
        arg := BitVec.ofNat 64 (m.lid % 2 ^ 32 + 2 ^ 32 * core + 2 ^ 40 * m.kind.code) })
  | _, _ => .refused (.notEnabled "TRANSLATION_MISS")

/-- The reply ends the stall: mapped, the instructions that missed walk again; refused, the context halts. A reply to no
stall, or to a withdrawn report, is discarded (R277, R278). -/
def execFaultReply (m : HostMsg) (s : State) : Host.Outcome State Fault Refusal :=
  .next (s.receive m 3 0 0 0 fun s =>
    match s.stalledWith m.tag with
    | none => { s with withdrawn := s.withdrawn.filter (· != m.tag) }
    | some (c, t) =>
      if m.stat = 0 then s.endStall c
      else if m.stat = 1 then (s.endStall c).refusePage t.miss
      else s)

/-- No reply within 3,500,000 cycles (R277). -/
def execStallEscalation (core : Nat) (s : State) : Host.Outcome State Fault Refusal :=
  match (s.core core).stall with
  | none => .refused (.notEnabled "STALL_ESCALATION")
  | some t =>
    let s' : State := { s with withdrawn := s.withdrawn ++ [t.tag] }
    when "STALL_ESCALATION" (decide (3500000 ≤ (s.clock - t.since).toNat)) ((s'.endStall core).missHalt t.miss 0x19)

/-! ### The halt line (R281, R282) -/

/-- A page on which a wave missed still waits for its service (R277). -/
def State.awaitsPage (s : State) (p : Nat) : Bool :=
  let c := s.core (coreOf p)
  ((c.stall.map (·.miss)).toList ++ c.misses).any (fun m => m.lid == (s.wave p).lid && (s.wave p).missed.contains (m.va / 65536))

/-- A wave of a context whose pages have been mapped completes the form that missed before a halt line or a save takes it (R228). -/
def State.completing (s : State) (p : Nat) : Bool := (s.wave p).unfinished && (s.wave p).mayIssue && !s.awaitsPage p

/-- The line reaches a core: no wave of the context issues there, and its entries that the unit has not taken are dropped (R281,
assumption 99). -/
def State.lineReaches (s : State) (lid core : Nat) (h : Halt) : State :=
  let s := s.modLaunch lid (fun l => { l with halt := some { h with
    reached := h.reached ++ [core], first := if h.reached = [] then s.clock else h.first } })
  let s : State := { s with
    waves := s.waves.mapVal {} (fun p w =>
      if w.lid = lid ∧ coreOf p = core ∧ w.status = .running then
        { w with status := .halted, active := false, wait := .none, trap := none, reasons := s.reasonsOf p, stopClk := s.clock }
      else w),
    unitQ := s.unitQ.filter (fun u => match u.source with | .wave p => !((s.wave p).lid == lid && coreOf p == core) | _ => true),
    remotes := s.remotes.filter (fun r => !(r.op.lid == lid && coreOf r.op.party == core)) }
  s.modCore core (fun k => { k with misses := k.misses.filter (fun m => m.lid != lid) })

/-- The line arrives, after a stall of the core has ended and the forms that missed have completed (R228, R277, R281). -/
def execHaltLineArrival (lid core : Nat) (s : State) : Host.Outcome State Fault Refusal :=
  let l := s.launch lid
  match l.halt with
  | none => .refused (.notEnabled "HALT_LINE_ARRIVAL")
  | some h =>
    when "HALT_LINE_ARRIVAL" (l.prog == .halting && (State.coresOf l).contains core && !h.reached.contains core && (s.core core).stall.isNone &&
        (s.wavesOf lid).all (fun w => coreOf w.1 != core || !s.completing w.1))
      (s.lineReaches lid core h)

/-! ### Stop records (R283, R284) -/

/-- WHO of a wave's record. -/
def whoOf (p : Nat) (w : Wave) : Nat := waveId p w + 2 ^ 24 * coreOf p

/-- A KIND 1 record. -/
def waveRecord (p : Nat) (w : Wave) : Nat :=
  let t := w.stop.getD (0, 0, 0, 0)
  State.stopRecord w.stopClk (w.stopPc.getD (resumeWord w.pc w.k)) t.2.2.1 w.lid (whoOf p w) t.1 t.2.1 1 t.2.2.2 w.md.toNat w.flg.toNat
    (w.reasons.toNat + 1024 * w.stat)

/-- The next memory address of a copy or gather command, 0 where it is a row. -/
def nextAddress (cs : List CopyCmd) : Nat :=
  match (cs.flatMap (·.items)).find? (fun i => !i.done) with
  | some i => (match i.src, i.dst with | some (.mem a), _ => a | _, .mem a => a | _, _ => 0)
  | none => 0

/-- The record of an engine: the offset from the core's first record, the kind, the address, AUX. -/
def engineRecords (s : State) (lid core : Nat) : List (Nat × Nat × Nat × Nat) :=
  let copy : Engine → Nat → List (Nat × Nat × Nat × Nat) := fun e n =>
    let cs := s.copies.filter (fun c => c.core == core && c.lid == lid && c.engine == e && c.kind != .intake)
    if cs.isEmpty then [] else [(128 + n, 2 + n, nextAddress cs, ((cs.map (·.tag)).dedup.map (2 ^ ·)).sum)]
  let bays := (List.range 3).filter (fun b => s.blocks.any (fun k => k.lid == lid && k.core == core && k.bays.contains b))
  let gs := (s.core core).geodeQ.filter (fun g => g.lid == lid)
  copy .copy0 0 ++ copy .copy1 1 ++ copy .gather 2 ++
  bays.map (fun b => (131 + b, 5 + b, 0, (s.bay core b).queue.length)) ++ (if gs.isEmpty then [] else [(134, 8, 0, gs.length)])

namespace State

/-- Writes the records of a core and counts them. -/
def writeRecords (s : State) (l : Launch) (core : Nat) : State :=
  let ws := (s.wavesOf l.lid).filter (fun w => coreOf w.1 == core && w.2.status == .halted)
  let es := engineRecords s l.lid core
  let base := 1 + 135 * posIn l core
  let s := ws.foldl (fun s w => s.writeStop l (base + slotOf w.1) (waveRecord w.1 w.2)) s
  let s := es.foldl (fun s e => s.writeStop l (base + e.1)
    (stopRecord s.clock 0 (BitVec.ofNat 64 e.2.2.1) l.lid (2 ^ 24 * core) 0 0 e.2.1 0 0 0 e.2.2.2)) s
  s.modLaunch l.lid (fun l => { l with halt := l.halt.map (fun h => { h with records := h.records + ws.length + es.length }) })

/-- The rows that a bay command holds pending. -/
def cmdRows (c : BayCmd) : List Nat :=
  match c.work with
  | .mdrn _ _ _ _ _ _ _ _ dst rows => (List.range rows).map (dst + ·)
  | _ => []

/-- The engines of a context on a core drop their work; the rows they had not written lose PND (R281). -/
def dropWork (s : State) (lid core : Nat) : State :=
  let cs := s.copies.filter (fun c => c.core == core && c.lid == lid)
  let s := cs.foldl (fun s c => s.unpend c.id c.rows) s
  let s : State := { s with copies := s.copies.filter (fun c => !(c.core == core && c.lid == lid)) }
  let bays := (List.range 3).filter (fun b => s.blocks.any (fun k => k.lid == lid && k.core == core && k.bays.contains b))
  let s := bays.foldl (fun s b =>
    let s := (s.bay core b).queue.foldl (fun s c => s.unpend c.id (cmdRows c)) s
    s.modBay core b (fun y => { y with queue := [] })) s
  let s := ((s.core core).geodeQ.filter (fun g => g.lid == lid)).foldl (fun s g => s.unpend g.id g.rows) s
  s.modCore core (fun k => { k with geodeQ := k.geodeQ.filter (fun g => g.lid != lid) })

/-- The event entries of a launch that are still Clear become Done-with-error (R281). -/
def failEvents (s : State) (l : Launch) : State :=
  if l.hdr.noev then s
  else { s with events := (List.range l.total).foldl (fun m b =>
    if m.get .clear (l.hdr.evb + b) = .clear then m.set .clear (l.hdr.evb + b) .error else m) s.events }

/-- Every core has stopped: the summary, the sources, the events, the notice, the release (R281, R283). -/
def finishHalt (s : State) (lid : Nat) : State :=
  let l := s.launch lid
  match l.halt with
  | none => s
  | some h =>
    let w := s.wave h.party
    let s := s.writeStop l 0 (stopRecord s.clock h.pc h.addr lid (if w.lid = lid then whoOf h.party w else 2 ^ 24 * h.core) h.cause h.detail
      0 0 0 0 (h.records % 65536 + 65536 * ((s.clock - h.first).toNat % 65536)))
    let s := (s.idleSources lid).failEvents l
    let s := if l.hdr.note then s.notify 1 (lid + 2 ^ 32 * h.core) else s
    let s := s.modLaunch lid (fun l => { l with prog := .halted })
    if l.hdr.dbg then s else s.releaseContext lid

/-- A halt of a launch that is on no core: accepted and waiting, or saved. -/
def haltAway (s : State) (lid cause : Nat) : State :=
  let s := s.raiseHalt lid 0 0 cause 0 0 0 0
  let s := (s.saved.filter (fun x => x.lid == lid)).foldl (fun s x => x.blocks.foldl (fun s b =>
    if b.logging ∧ b.run = .original ∧ !b.ended then s.abandon b.job 4 else s) s) s
  let s : State := { s with saved := s.saved.filter (fun x => x.lid != lid) }
  s.finishHalt lid

end State

/-- The engines of a context on a core have stopped and its records are written; with the last core the resources go
(R281, R283). -/
def execHaltEnginesStopped (lid core : Nat) (s : State) : Host.Outcome State Fault Refusal :=
  let l := s.launch lid
  match l.halt with
  | none => .refused (.notEnabled "HALT_ENGINES_STOPPED")
  | some h =>
    let s' := ((s.writeRecords l core).dropWork lid core).modLaunch lid (fun l => { l with halt := l.halt.map (fun h =>
      { h with stopped := h.stopped ++ [core], last := s.clock }) })
    let all := (State.coresOf l).all (fun c => c == core || h.stopped.contains c)
    when "HALT_ENGINES_STOPPED" (l.prog == .halting && h.reached.contains core && !h.stopped.contains core &&
        s.ops.all (fun o => !(o.lid == lid && coreOf o.party == core)))
      (if all then s'.finishHalt lid else s')

end Sys2Proof.Machine
end

