-- ==== Sys2Proof/Machine/Crypto.lean ====
section
/-! DEFINITION. The digest and the signature that the firmware checks and the attestation report use (R326, R327):
SHA-512 (FIPS 180-4) and pure Ed25519 (RFC 8032), which the spec names and does not restate (PRESUMED, log 15). A
digest, a key and a signature are numbers whose little-endian bytes are the byte strings of those standards. -/

namespace Sys2Proof.Machine

/-! ### SHA-512 -/

/-- The largest `r` below `2 ^ n` with `r ^ k` at most `v`, bit by bit from the top. -/
def Sha512.root (k v : Nat) : Nat → Nat → Nat
  | 0, r => r
  | n + 1, r => Sha512.root k v n (if (r + 2 ^ n) ^ k ≤ v then r + 2 ^ n else r)

def Sha512.primes : List Nat :=
  (List.range 410).filter (fun n => decide (2 ≤ n) && (List.range n).all (fun d => decide (d < 2) || n % d != 0))

/-- The first 64 bits of the fractional part of the `k`-th root of `p`. -/
def Sha512.fraction (k p : Nat) : DWord := BitVec.ofNat 64 (Sha512.root k (p * 2 ^ (64 * k)) 69 0)

/-- The round constants: the cube roots of the first eighty primes. -/
def Sha512.rounds : List DWord := Sha512.primes.map (Sha512.fraction 3)

/-- The first chaining value: the square roots of the first eight primes. -/
def Sha512.start : List DWord := (Sha512.primes.take 8).map (Sha512.fraction 2)

def beNat (l : List Byte) : Nat := leNat l.reverse

def beBytes (n v : Nat) : List Byte := (leBytes n v).reverse

/-- One round: the chaining words `a` to `h`, the round constant and the schedule word. -/
def Sha512.round (h : List DWord) (k w : DWord) : List DWord :=
  match h with
  | [a, b, c, d, e, f, g, h] =>
      let t := h + (e.rotateRight 14 ^^^ e.rotateRight 18 ^^^ e.rotateRight 41) + ((e &&& f) ^^^ (~~~e &&& g)) + k + w
      [t + (a.rotateRight 28 ^^^ a.rotateRight 34 ^^^ a.rotateRight 39) + ((a &&& b) ^^^ (a &&& c) ^^^ (b &&& c)),
        a, b, c, d + t, e, f, g]
  | _ => h

/-- The rounds over one block; `w` holds the next 16 words of the schedule. -/
def Sha512.block : List DWord → List DWord → List DWord → List DWord
  | [], _, h => h
  | k :: ks, w, h =>
      let a := w.getD 1 0
      let b := w.getD 14 0
      let next := (b.rotateRight 19 ^^^ b.rotateRight 61 ^^^ (b >>> 6)) + w.getD 9 0 +
        (a.rotateRight 1 ^^^ a.rotateRight 8 ^^^ (a >>> 7)) + w.getD 0 0
      Sha512.block ks (w.drop 1 ++ [next]) (Sha512.round h k (w.getD 0 0))

/-- The message followed by 0x80, zeros and its length in bits, to a multiple of 128 bytes. -/
def Sha512.padded (m : List Byte) : List Byte :=
  m ++ [0x80] ++ List.replicate ((239 - m.length % 128) % 128) 0 ++ beBytes 16 (8 * m.length)

def Sha512.blocks (m : List Byte) : Nat → List DWord → List DWord
  | 0, h => h
  | n + 1, h =>
      let w := (List.range 16).map (fun i => BitVec.ofNat 64 (beNat ((m.drop (8 * i)).take 8)))
      Sha512.blocks (m.drop 128) n (List.zipWith (· + ·) h (Sha512.block Sha512.rounds w h))

/-- The SHA-512 digest of a byte string. -/
def Sha512.hash (m : List Byte) : BitVec 512 :=
  let p := Sha512.padded m
  BitVec.ofNat 512 (leNat ((Sha512.blocks p (p.length / 128) Sha512.start).flatMap (fun w => beBytes 8 w.toNat)))

/-! ### Ed25519 -/

/-- The prime of the field. -/
def Ed25519.p : Nat := 2 ^ 255 - 19

/-- The order of the base point. -/
def Ed25519.order : Nat := 2 ^ 252 + 27742317777372353535851937790883648493

/-- `b ^ e` modulo the prime, over the low `n` bits of `e`. -/
def Ed25519.pow (b e : Nat) : Nat → Nat
  | 0 => 1
  | n + 1 =>
      let r := Ed25519.pow (b * b % Ed25519.p) (e / 2) n
      if e % 2 = 1 then b * r % Ed25519.p else r

def Ed25519.inverse (x : Nat) : Nat := Ed25519.pow x (Ed25519.p - 2) 255

/-- The curve constant, -121665 / 121666. -/
def Ed25519.d : Nat := (Ed25519.p - 121665) * Ed25519.inverse 121666 % Ed25519.p

/-- A point in extended homogeneous coordinates. -/
structure EdPoint where
  x : Nat
  y : Nat
  z : Nat
  t : Nat
  deriving DecidableEq, Repr

def EdPoint.zero : EdPoint := { x := 0, y := 1, z := 1, t := 0 }

def EdPoint.affine (x y : Nat) : EdPoint := { x := x, y := y, z := 1, t := x * y % Ed25519.p }

def EdPoint.add (a b : EdPoint) : EdPoint :=
  let q := Ed25519.p
  let m := (a.y + q - a.x) * (b.y + q - b.x) % q
  let n := (a.y + a.x) * (b.y + b.x) % q
  let c := 2 * a.t * b.t * Ed25519.d % q
  let k := 2 * a.z * b.z % q
  { x := (n + q - m) * (k + q - c) % q, y := (k + c) * (n + m) % q, z := (k + q - c) * (k + c) % q,
    t := (n + q - m) * (n + m) % q }

/-- The point added to itself as often as the low `n` bits of `k` say. -/
def EdPoint.times (a : EdPoint) (k : Nat) : Nat → EdPoint
  | 0 => EdPoint.zero
  | n + 1 =>
      let r := (a.add a).times (k / 2) n
      if k % 2 = 1 then a.add r else r

def EdPoint.same (a b : EdPoint) : Bool :=
  a.x * b.z % Ed25519.p == b.x * a.z % Ed25519.p && a.y * b.z % Ed25519.p == b.y * a.z % Ed25519.p

/-- The number whose 32 bytes stand for a point: y, with the lowest bit of x above it. -/
def EdPoint.encoded (a : EdPoint) : Nat :=
  let i := Ed25519.inverse a.z
  a.y * i % Ed25519.p + 2 ^ 255 * (a.x * i % Ed25519.p % 2)

/-- The point that 32 bytes stand for; none where they stand for none. -/
def EdPoint.decoded (v : Nat) : Option EdPoint :=
  let q := Ed25519.p
  let y := v % 2 ^ 255
  let u := (y * y + q - 1) % q * Ed25519.inverse (Ed25519.d * y * y + 1) % q
  let r := Ed25519.pow u ((q + 3) / 8) 255
  let x := if r * r % q = u then r else r * Ed25519.pow 2 ((q - 1) / 4) 255 % q
  if q ≤ y ∨ x * x % q ≠ u ∨ (x = 0 ∧ v / 2 ^ 255 % 2 = 1) then none
  else some (EdPoint.affine (if x % 2 = v / 2 ^ 255 % 2 then x else q - x) y)

/-- The base point. -/
def EdPoint.base : EdPoint :=
  EdPoint.affine 15112221349535400772501151409588531511454012693041857206046113283949847762202
    46316835694926478169428394003475163141307993866256225615783033603165251855960

/-- The secret scalar and the nonce seed of a private key. -/
def Ed25519.secret (seed : BitVec 256) : Nat × List Byte :=
  let h := (Sha512.hash (leBytes 32 seed.toNat)).toNat
  (h % 2 ^ 254 / 8 * 8 + 2 ^ 254, leBytes 32 (h / 2 ^ 256))

def Ed25519.publicKey (seed : BitVec 256) : BitVec 256 :=
  BitVec.ofNat 256 (EdPoint.base.times (Ed25519.secret seed).1 256).encoded

def Ed25519.sign (seed : BitVec 256) (m : List Byte) : BitVec 512 :=
  let (a, n) := Ed25519.secret seed
  let r := (Sha512.hash (n ++ m)).toNat % Ed25519.order
  let rb := (EdPoint.base.times r 256).encoded
  let k := (Sha512.hash (leBytes 32 rb ++ leBytes 32 (Ed25519.publicKey seed).toNat ++ m)).toNat
  BitVec.ofNat 512 (rb + 2 ^ 256 * ((r + k * a) % Ed25519.order))

/-- The group equation of a signature `g` of `m` under the public key `key`. -/
def Ed25519.verify (key : BitVec 256) (m : List Byte) (g : BitVec 512) : Bool :=
  let s := g.toNat / 2 ^ 256
  let k := (Sha512.hash (leBytes 32 g.toNat ++ leBytes 32 key.toNat ++ m)).toNat
  match EdPoint.decoded key.toNat, EdPoint.decoded (g.toNat % 2 ^ 256) with
  | some a, some r =>
      decide (s < Ed25519.order) &&
        (EdPoint.base.times (8 * s) 256).same ((r.add (a.times (k % Ed25519.order) 256)).times 8 4)
  | _, _ => false

end Sys2Proof.Machine
end

