-- ==== Sys2Proof/Machine/Links.lean ====
section
/-! DEFINITION. Modules, ports, boot, islands, throttling, copy traffic from other packages, uncorrectable errors, forced
writes (R12, R50, R60, R302, R320, R324 to R326, R328, R329). -/

namespace Sys2Proof.Machine

namespace State

/-! ### Boot (R326) -/

/-- A firmware image that the boot ROM accepts: its signature verifies, and its version is not below the fused counter. -/
def accepts (f : Firmware) : Bool :=
  decide (Config.fusedVersion ≤ f.svn) && Ed25519.verify Config.rolsepraKey (leBytes 64 (Sha512.hash f.bytes).toNat) f.sig

/-- What outlasts the loss of power: the flash, the fused cores, the scores and the quarantines (R302); all else is as at reset,
device memory and registers zero, the islands of fused-off cores held off (R12). -/
def afresh (s : State) (b : Boot) : State :=
  { turn := s.turn, tick := s.tick, nextId := s.nextId, clock := s.clock, boot := b, primary := s.primary, backup := s.backup,
    config := s.config, islands := ((List.range 48).filter (fun c => !(s.core c).enabled)).map (fun c => (c, .off)), sent := s.sent, inputs := s.inputs, nextTag := s.nextTag,
    cores := s.cores.mapVal {} (fun _ c =>
      { enabled := c.enabled, score := c.score, clean := c.clean, quar := c.quar }) }

/-- Boot from an accepted image: memory and registers zero, then the configuration block applied, then messages answered. -/
def bootFrom (s : State) (f : Firmware) : State := { s.afresh .answering with running := f, applied := s.config }

end State

/-- An image as the flash holds it: the one that the host has written by now, else the one that it held (R327, assumption 112). -/
def State.flashImage (s : State) (backup : Bool) : Firmware :=
  match Config.flashed s.tick backup with
  | some f => { bytes := f.1, svn := f.2.1, sig := f.2.2 }
  | none => if backup then s.backup else s.primary

/-- Power-good, the package's reset, from which CLOCK counts (R121), also of a package that runs: the primary image, else the backup,
else the controller waits for an image. An image written to flash takes effect here (R327). -/
def execPowerGood (s : State) : Host.Outcome State Fault Refusal :=
  let z : State := { s with clock := 0, primary := s.flashImage false, backup := s.flashImage true }
  .next (if State.accepts z.primary then z.bootFrom z.primary
    else if State.accepts z.backup then z.bootFrom z.backup
    else z.afresh .waiting)

/-! ### Modules and ports (R320, R325) -/

/-- The module that carries an arrival. -/
def moduleOf : Instr → Option Nat
  | .faultReply m | .launchMessage m | .streamRecordsMessage m | .streamAdvanceMessage m | .streamIdleMessage m | .debugStop m
  | .debugRelease m | .debugStep m | .debugReadState m | .debugWriteState m | .hostStop m | .directMemoryRead m
  | .directMemoryWrite m | .controlWindowRead m | .controlWindowWrite m | .streamTableWrite m | .tlbInvalidation m
  | .quarantineClear m | .attestation m => some m.module
  | _ => none

/-- A module goes down, and the messages in flight on it are lost. -/
def execUcieModuleDown (n : Nat) (s : State) : Host.Outcome State Fault Refusal :=
  .next { s with modules := s.modules.set {} n { s.modules.get {} n with up := false },
                 inputs := s.inputs.filter (fun i => moduleOf i != some n) }

/-- A module loses lanes beyond repair and runs on 32. -/
def execUcieLaneTrainDown (n : Nat) (s : State) : Host.Outcome State Fault Refusal :=
  .next { s with modules := s.modules.set {} n { s.modules.get {} n with lanes := 32 } }

/-- A port reports link down. -/
def execPortLinkDown (n : Nat) (s : State) : Host.Outcome State Fault Refusal :=
  .next { s with ports := s.ports.set {} n { up := false } }

/-- Copy traffic of another package: a write is performed at system scope; a read changes nothing here. Code pages and
addresses outside device memory are not written (R64, R324). -/
def execScaleOutCopyTraffic (port : Nat) (write : Bool) (pa : Nat) (data : List Byte) (s : State) : Host.Outcome State Fault Refusal :=
  .next (if write ∧ (s.ports.get {} port).up ∧ pa + data.length ≤ memTop ∧ !s.codeLocked pa data.length then s.store pa data else s)

/-! ### Islands and temperature (R12, R328, R329) -/

/-- A context is resident on a core: launches and runs that hold it, and halted contexts that are held for debug and keep their
routes and grants (R281). -/
def State.occupied (s : State) (c : Nat) : Bool :=
  s.launches.any (fun l => residentOn l c) || s.blocks.any (fun b => b.core == c) || !(s.core c).routes.isEmpty

/-- A request for an island holds: 0 to 47 are the cores, 48 to 51 the fabrics and 52 to 55 the PHY pairs of the dies. That of a
fused-off core stays off. A launch may claim a core whose island is Idle or Off, and an island may enter Run while a context is
resident on it: the model's choice (assumption 100). -/
def State.islandOk (s : State) (n : Nat) (st : Island) : Bool :=
  decide (n < 56) && (decide (48 ≤ n) || (s.core n).enabled || st == .off) &&
  (st == .run || if n < 48 then !s.occupied n
                 else (List.range 48).all (fun c => dieOf c != (n - 48) % 4 || s.islands.get .run c != .run))

def execIslandStateChange (island : Nat) (st : Island) (s : State) : Host.Outcome State Fault Refusal :=
  when "ISLAND_STATE_CHANGE" (s.islandOk island st) { s with islands := s.islands.set .run island st }

/-- A throttle skips cycles of a die (R329). -/
def execThermalThrottleStart (die : Nat) (s : State) : Host.Outcome State Fault Refusal :=
  .next { s with throttled := s.throttled.set false die true }

def execThermalThrottleEnd (die : Nat) (s : State) : Host.Outcome State Fault Refusal :=
  .next { s with throttled := s.throttled.set false die false }

/-- Package power is removed, without stop records; the host sees every module down, and what was in flight on them is lost (R320). -/
def execThermalShutdown (s : State) : Host.Outcome State Fault Refusal :=
  .next { s.afresh .removed with modules := (List.range 4).map (fun n => (n, { up := false })),
                                 inputs := s.inputs.filter (fun i => (moduleOf i).isNone) }

/-! ### Errors and forced writes (R50, R60) -/

def execUncorrectableError (site : ErrorSite) (s : State) : Host.Outcome State Fault Refusal :=
  .next (match site with
    | .unit pa => { s with badMem := s.badMem.set false (pa / 8) true }
    | .element c r e => { s with bad := s.bad.set false (elemKey (rowKey c r) e) true })

/-- A debugger write of masked elements: no party access (R60). -/
def State.writeMasked (s : State) (row : Nat) (mask : BitVec 32) (words : List Word) : State :=
  ((List.range 32).filter (fun e => mask.getLsbD e)).foldl (fun s e => s.putElem (elemKey row e) (words.getD e 0) false) s

/-- The forced writes of a row that is not pending come before any other access to it, in the order of their acceptance (R60). -/
def State.applyDue (s : State) (row : Nat) : State :=
  let c := row / rowsPerCore
  let mine : Forced → Bool := fun f => f.row == row % rowsPerCore
  if (s.info row).pnd then s
  else
    let fs := (s.core c).forced.filter mine
    fs.foldl (fun s f => s.writeMasked row f.mask f.words) (s.modCore c (fun k => { k with forced := k.forced.filter (fun f => !mine f) }))

/-- The first forced write of a core whose row is no longer pending is applied (R60). -/
def execForcedWriteApply (core : Nat) (s : State) : Host.Outcome State Fault Refusal :=
  match (s.core core).forced.findIdx? (fun f => !(s.info (rowKey core f.row)).pnd) with
  | none => .refused (.notEnabled "FORCED_WRITE_APPLY")
  | some i =>
    match (s.core core).forced[i]? with
    | none => .refused (.notEnabled "FORCED_WRITE_APPLY")
    | some f => .next ((s.modCore core (fun k => { k with forced := k.forced.eraseIdx i })).writeMasked (rowKey core f.row) f.mask f.words)

end Sys2Proof.Machine
end

