-- ==== Sys2Proof/Machine/HostMsg.lean ====
section
/-! DEFINITION. What a host message does: launches, stream entries, debug, host stop, direct memory, the control window,
attestation (R47, R60, R87, R118, R207, R225, R229, R264, R276, R279, R281, R290, R302, R303, R320 to R323, R327). Layouts
that the spec does not give are those of assumptions 20 and 44. -/

namespace Sys2Proof.Machine

/-- The LEN payload bytes of a message; what the message does not bring is the zero of its last flit (R321). -/
def HostMsg.data (m : HostMsg) : List Byte := (List.range m.len).map (fun i => m.payload.getD i 0)

/-! ### Launches and stream entries (R322) -/

/-- A launch message waits for the scheduler, which answers it (R266). -/
def execLaunchMessage (m : HostMsg) (s : State) : Host.Outcome State Fault Refusal :=
  .next (s.receive m 1 0 0 0x7F0F fun s =>
    { s with nextId := s.nextId + 1, launchReqs := s.launchReqs ++
        [{ id := s.nextId, addr := some m.addr.toNat, queue := bitsOf m.arg.toNat 3 0, ctx := bitsOf m.arg.toNat 14 8, source := .host m, ids := [] }] })

/-- An entry for a host source of the module that carries the message; the unit takes it and answers (R231, R322). -/
def State.hostEntry (s : State) (m : HostMsg) (sub limit : Nat) (ok : Bool) (work : Nat → Nat → UWork) : State :=
  s.receive m 4 sub limit 0x3F3F fun s =>
    let st := ctlStream m.arg.toNat
    let src := ctlSource m.arg.toNat
    if !ok then s.reply m 0xFFFF
    else if ((s.stream st).srcs.get {} src).kind ≠ .host m.module then s.reply m 0xFFFD
    else { s with nextId := s.nextId + 1, unitQ := s.unitQ ++ [{ id := s.nextId, work := work st src, source := .host m, ctl := m.arg.toNat }] }

/-- The records of a payload. -/
def payloadRecords (bs : List Byte) : List (List Word) :=
  (List.range (bs.length / 64)).map (fun i => wordsOf ((bs.drop (64 * i)).take 64))

def execStreamRecordsMessage (m : HostMsg) (s : State) : Host.Outcome State Fault Refusal :=
  .next (s.hostEntry m 8 4096 (m.len % 64 == 0 && decide (64 ≤ m.len)) (fun st src => .records st src (payloadRecords (HostMsg.data m)) 0))

def execStreamAdvanceMessage (m : HostMsg) (s : State) : Host.Outcome State Fault Refusal :=
  .next (s.hostEntry m 9 0 true (fun st src => .advance st src m.addr))

def execStreamIdleMessage (m : HostMsg) (s : State) : Host.Outcome State Fault Refusal :=
  .next (s.hostEntry m 10 0 true (fun st src => .idle st src))

/-! ### Debug (R47, R60, R87, R118, R207, R290, R322) -/

/-- What a debug message names: the launch, the core, the party, the whole context. -/
structure DebugArg where
  lid : Nat
  core : Nat
  party : Nat
  whole : Bool

def debugArg (m : HostMsg) : DebugArg :=
  let a := m.arg.toNat
  { lid := bitsOf a 31 0, core := bitsOf a 39 32, party := 128 * bitsOf a 39 32 + bitsOf a 47 40 % 128, whole := bitOf a 48 }

namespace State

/-- A debug message: the launch must have debug enabled (status 1), and what it names must exist (status 2). -/
def debugMsg (s : State) (m : HostMsg) (sub limit : Nat) (found : State → DebugArg → Bool) (go : State → DebugArg → State) : State :=
  s.receive m 5 sub limit 0x1FFFFFFFFFFFF fun s =>
    let a := debugArg m
    match s.launch? a.lid with
    | none => s.reply m 2
    | some l =>
      if l.prog = .ended then s.reply m 2
      else if !l.hdr.dbg then s.reply m 1
      else if !found s a then s.reply m 2
      else go s a

/-- The wave that a debug message names, in some of the given states. -/
def debugWave (s : State) (a : DebugArg) (sts : List WaveStatus) : Bool :=
  let w := s.wave a.party
  w.lid == a.lid && sts.contains w.status && decide (a.core < 48)

/-- Changes the waves that a debug message names: one, or all that run or are stored. -/
def onDebugWaves (s : State) (a : DebugArg) (f : Wave → Wave) : State :=
  if a.whole then
    { s with waves := s.waves.mapVal {} (fun _ w => if w.lid = a.lid ∧ w.status = .running then f w else w),
             saved := s.saved.map (fun v => if v.lid = a.lid then { v with waves := v.waves.map (fun x => (x.1, f x.2)) } else v) }
  else s.modWave a.party f

end State

/-- Stops one wave, or the whole context, at its next clause boundary (R290). -/
def execDebugStop (m : HostMsg) (s : State) : Host.Outcome State Fault Refusal :=
  .next (s.debugMsg m 0 0 (fun s a => a.whole || s.debugWave a [.running]) fun s a =>
    (s.onDebugWaves a (fun w => if w.debug then w else { w with stopReq := true })).reply m 0)

/-- Releases stopped waves (R118); the release of a whole context that has halted gives up what it holds (R281). -/
def execDebugRelease (m : HostMsg) (s : State) : Host.Outcome State Fault Refusal :=
  .next (s.debugMsg m 1 0 (fun s a => a.whole || s.debugWave a [.running]) fun s a =>
    if a.whole ∧ (s.launch a.lid).prog = .halted then (s.releaseContext a.lid).reply m 0
    else (s.onDebugWaves a (fun w => if w.debug || w.stopReq then
        { w with debug := false, stopReq := false, stepReq := false, reasons := 0, readySince := s.clock } else w)).reply m 0)

/-- Lets one instruction of one stopped wave issue (R290). -/
def execDebugStep (m : HostMsg) (s : State) : Host.Outcome State Fault Refusal :=
  .next (s.debugMsg m 2 0 (fun s a => !a.whole && s.debugWave a [.running] && (s.wave a.party).debug) fun s a =>
    (s.modWave a.party (fun w => { w with stepReq := true })).reply m 0)

/-- A row of a core as a debug message names it, or none, as for a reserved one. A row of a fused-off core is read and written as any other: the model's
choice (assumption 120). -/
def debugRow (m : HostMsg) (a : DebugArg) : Option Nat :=
  let r := bitsOf m.addr.toNat 31 0
  if bitOf m.addr.toNat 32 ∨ 48 ≤ a.core ∨ rowsPerCore ≤ r then none else some (rowKey a.core r)

namespace State

/-- A bay row that a queued or running command holds (R207); an MDRN holds its accumulator rows until it has read them (R194). -/
def bayHeld (s : State) (row : Nat) : Bool :=
  let r := row % rowsPerCore
  decide (196608 ≤ r) && (s.bay (row / rowsPerCore) ((r - 196608) / 256)).queue.any (fun c =>
    !(c.allRead && match c.work with | .mdrn .. => true | _ => false) && decide (4 * c.work.accRows.1 ≤ (r - 196608) % 256) && decide ((r - 196608) % 256 < 4 * (c.work.accRows.1 + c.work.accRows.2)))

/-- The metadata word of a row (R44); OWN is a view of the owning operation (assumption 12). -/
def metaWord (s : State) (row : Nat) : Nat :=
  let i := s.info row
  (if i.pnd then 2 ^ 31 + 2 ^ 24 * (Config.ownNumber i.owner).toNat else 0) + (if i.exp then 2 ^ 23 else 0) + (if i.pw then 2 ^ 22 else 0) +
  (if i.fr then 2 ^ 21 else 0) + 2 ^ 17 * i.stp.toNat + 16 * i.pty.toNat

/-- A stopped wave's state in words: s0 to s59, presence, md and flg, lc, gng, STAT, body index, pc, existence, nesting. -/
def waveWords (s : State) (p : Nat) : List Word :=
  let w := s.wave p
  (List.range 63).map w.sget ++ [w.md.setWidth 32 ||| (w.flg.setWidth 32 <<< 16)] ++ (List.range 3).map (fun k => w.lc.get 0 k) ++
  [w.gng, BitVec.ofNat 32 w.stat, BitVec.ofNat 32 w.k, w.pc.setWidth 32, (w.pc >>> 32).setWidth 32] ++
  (List.range 3).map (fun j => (w.exist >>> (32 * j)).setWidth 32) ++
  (List.range 24).map (fun i => BitVec.ofNat 32 (leNat ((List.range 4).map (fun j => (w.nesting (4 * i + j)).setWidth 8))))

/-- Writes a stopped wave's state: registers, presence within existence, md, flg, lc, gng, nesting; another pc is a clause's. -/
def putWaveWords (s : State) (p : Nat) (ws : List Word) : State :=
  let word : Nat → Word := fun i => ws.getD i 0
  s.modWave p (fun w =>
    let w := (List.range 63).foldl (fun w r => w.sput r (word r)) w
    let nest : Nat → BitVec 8 := fun l => (word (75 + l / 4) >>> (8 * (l % 4))).setWidth 8
    let w := { w with
      md := (word 63).setWidth 16, flg := ((word 63) >>> 16).setWidth 6,
      lc := (List.range 3).foldl (fun m k => m.set 0 k (word (64 + k))) w.lc, gng := word 67,
      cnt := (List.range 96).foldl (fun m l => m.set 0 l ((nest l).setWidth 6)) w.cnt, cont := maskOf (fun l => (nest l).getLsbD 6) }
    let a : DWord := word 71 ++ word 70
    if a = w.pc then w else w.jump a)

end State

/-- A stopped wave: a debug halt, or a context that has halted and is held. -/
def State.stopped? (s : State) (a : DebugArg) : Bool :=
  (s.debugWave a [.running] && (s.wave a.party).debug) || s.debugWave a [.halted]

/-- What a read or write of the debugger names: a stopped wave, or a row of a core, a reserved one too. -/
def State.debugFinds (s : State) (m : HostMsg) (a : DebugArg) : Bool :=
  !a.whole && (if bitOf m.addr.toNat 32 then s.stopped? a else decide (a.core < 48))

/-- A halt that the host brings about, from core `c`; a context that is on no core halts at once. -/
def State.hostHalt (s : State) (l : Launch) (c cause : Nat) : State :=
  match l.prog with
  | .resident => s.raiseHalt l.lid c (128 * c) cause 0 0 0 0
  | .queued => s.haltAway l.lid cause
  | .saved => s.haltAway l.lid cause
  | _ => s

/-- The debugger's access to a reserved row is an access fault (R37). That it halts the context that the message names, and that the
message is answered with status 2, are the model's choice (assumption 136). -/
def State.debugFault (s : State) (m : HostMsg) (a : DebugArg) : State := (s.hostHalt (s.launch a.lid) a.core 0x14).reply m 2

/-- Reads a row with its metadata, once its due forced writes are applied, or the state of a stopped wave (R47, R60, R207). -/
def execDebugReadState (m : HostMsg) (s : State) : Host.Outcome State Fault Refusal :=
  .next (s.debugMsg m 3 0 (fun s a => s.debugFinds m a) fun s a =>
    match debugRow m a with
    | some row =>
      let s := s.applyDue row
      s.reply m (if (s.info row).pnd || s.bayHeld row then Config.pendingStatus.toNat else 0)
        ((s.rowWords row).flatMap (fun w => leBytes 4 w.toNat) ++ leBytes 4 (s.metaWord row))
    | none =>
      if bitOf m.addr.toNat 32 then s.reply m 0 ((s.waveWords a.party).flatMap (fun w => leBytes 4 w.toNat))
      else s.debugFault m a)

/-- A debugger write of a row: BUSY against a pending row unless forced, BUSY when the queue is full or a bay holds it. A forced write
that is queued is answered 0 as it is accepted, before it is applied (assumption 91); one that is due is applied before this write. -/
def State.debugRowWrite (s : State) (m : HostMsg) (row : Nat) : State :=
  let s := s.applyDue row
  let c := row / rowsPerCore
  let mask := BitVec.ofNat 32 (leNat ((HostMsg.data m).take 4))
  let ws := wordsOf ((HostMsg.data m).drop 4)
  if m.len ≠ 132 then s.reply m 0xFFFF
  else if s.bayHeld row then s.reply m Config.busyStatus.toNat
  else if (s.info row).pnd then
    (if bitOf m.addr.toNat 33 ∧ (s.core c).forced.length < 8 then
      (s.modCore c (fun k => { k with forced := k.forced ++ [{ row := row % rowsPerCore, mask := mask, words := ws }] })).reply m 0
     else s.reply m Config.busyStatus.toNat)
  else (s.writeMasked row mask ws).reply m 0

/-- A debugger write of a wave's state: BADMODE for a reserved md (R87). -/
def State.debugWaveWrite (s : State) (m : HostMsg) (p : Nat) : State :=
  let ws := wordsOf (HostMsg.data m)
  if m.len ≠ 396 then s.reply m 0xFFFF
  else if !mdLegal ((ws.getD 63 0).setWidth 16) then s.reply m Config.badModeStatus.toNat
  else ((s.putWaveWords p ws).endIfEmpty p).reply m 0

/-- The controller takes an image in parts: each goes to the offset ADDR; an empty one asks for its verification (R326). -/
def State.takeFirmware (s : State) (m : HostMsg) : State :=
  if m.len ≠ 0 then
    ({ s with staged := s.staged.take m.addr.toNat ++ HostMsg.data m } : State).reply m 0
  else
    let f : Firmware := { sig := BitVec.ofNat 512 (leNat (s.staged.take 64)), svn := leNat ((s.staged.drop 64).take 8), bytes := s.staged.drop 72 }
    if State.accepts f then (s.bootFrom f).reply m 0 else ({ s with staged := [] } : State).reply m 0xFFFE

/-- A well-formed message of debug subtype 4 (R321, R322). -/
def imagePart (m : HostMsg) : Bool := m.typ == 5 && m.sub == 4 && !m.rsv && decide (m.len ≤ 4096) && m.stat == 0 && decide (m.module < 4)

/-- Writes masked elements of a row or a stopped wave's state; before firmware runs, hands over an image (R326). -/
def execDebugWriteState (m : HostMsg) (s : State) : Host.Outcome State Fault Refusal :=
  if s.boot = .waiting ∧ (s.modules.get {} m.module).up ∧ imagePart m then .next (s.takeFirmware m)
  else .next (s.debugMsg m 4 4096 (fun s a => s.debugFinds m a) fun s a =>
    match debugRow m a with
    | some row => s.debugRowWrite m row
    | none =>
      if bitOf m.addr.toNat 32 then s.debugWaveWrite m a.party
      else if m.len ≠ 132 then s.reply m 0xFFFF
      else s.debugFault m a)

/-- A host stop halts a launch with cause 0x0025 (R276, R322). -/
def execHostStop (m : HostMsg) (s : State) : Host.Outcome State Fault Refusal :=
  .next (s.receive m 5 5 0 0xFFFFFFFF fun s =>
    let lid := m.arg.toNat
    match s.launch? lid with
    | none => s.reply m 2
    | some l =>
      if l.prog = .halted ∨ l.prog = .ended then s.reply m 2
      else (s.hostHalt l ((State.coresOf l).headD 0) 0x25).reply m 0)

/-! ### Direct memory (R224, R225, R322) -/

/-- The status of a direct access to memory. -/
def directStatus (s : State) (a n : Nat) (write : Bool) : Nat :=
  if a % 8 ≠ 0 ∨ n % 8 ≠ 0 then 3
  else if memTop < a + n then 1
  else if write && s.codeLocked a n then 2
  else 0

def execDirectMemoryRead (m : HostMsg) (s : State) : Host.Outcome State Fault Refusal :=
  .next (s.receive m 6 0 4096 0 fun s =>
    let st := directStatus s m.addr.toNat m.len false
    s.reply m st (if st = 0 then s.bytes m.addr.toNat m.len else []))

def execDirectMemoryWrite (m : HostMsg) (s : State) : Host.Outcome State Fault Refusal :=
  .next (s.receive m 6 1 4096 0 fun s =>
    let st := directStatus s m.addr.toNat m.len true
    (if st = 0 then s.store m.addr.toNat (HostMsg.data m) else s).reply m st)

/-! ### The control window (R323) -/

/-- The blocks of the window: base, size of a block, how many. -/
def windowBlocks : List (Nat × Nat × Nat) :=
  [(0, 256, 64), (0x10000, 16, 128), (0x11000, 16, 1), (0x12000, 64, 1), (0x13000, 256, 48), (0x20000, 64, 1), (0x21000, 64, 1),
   (0x22000, 64, 1), (0x23000, 32, 64), (0x24000, 64, 1)]

/-- The block that holds an offset: its region's base, its number in the region, its first offset, its size. -/
def windowBlock? (a : Nat) : Option (Nat × Nat × Nat × Nat) :=
  (windowBlocks.find? (fun b => decide (b.1 ≤ a) && decide (a < b.1 + b.2.1 * b.2.2))).map
    (fun b => (b.1, (a - b.1) / b.2.1, b.1 + (a - b.1) / b.2.1 * b.2.1, b.2.1))

/-- Bytes `lo` up to `hi` of a block as a number. -/
def fieldAt (bs : List Byte) (lo n : Nat) : Nat := leNat ((bs.drop lo).take n)

/-- The kind of a source in a stream table block. -/
def sourceKindOf (bs : List Byte) (i : Nat) : Option SourceKind :=
  let k := fieldAt bs (8 * i) 1
  let f := fieldAt bs (8 * i + 4) 4
  if fieldAt bs (8 * i + 1) 3 ≠ 0 then none
  else match k with
    | 0 => if f = 0 then some .none else none
    | 1 => if f < 4 then some (.host f) else none
    | 2 => if f < 16 then some (.port f) else none
    | 3 => some (.device f)
    | _ => none

/-- The fields of a block are in their ranges (R323). -/
def windowOk (region : Nat) (bs : List Byte) : Bool :=
  let f := fieldAt bs
  let area : Nat → Nat → Bool := fun base size => decide (f base 8 + f size 8 ≤ memTop)
  if region = 0 then (List.range 16).all (fun i => (sourceKindOf bs i).isSome) && f 132 124 == 0
  else if region = 0x10000 then f 0 8 % 4096 == 0 && decide (f 0 8 < memTop) && f 8 8 == 0
  else if region = 0x11000 then decide (f 0 4 < 128) && (f 4 4 == 16 || f 4 4 == 21 || f 4 4 == 30) && decide (f 8 8 < 2 ^ 57)
  else if region = 0x12000 then area 8 16 && f 24 40 == 0
  else if region = 0x13000 then (List.range 16).all (fun i => decide (f (16 * i) 8 ≤ f (16 * i + 8) 8))
  else if region = 0x20000 then
    (f 0 1 == 0 || f 0 1 == 4) && (f 1 1 == 0 || f 1 1 == 3) && f 2 14 == 0 && f 32 32 == 0 &&
    (List.range 4).all (fun c => let x := f (16 + 4 * c) 4; x == 0 || (decide (100 ≤ x) && decide (x ≤ 100000)))
  else if region = 0x21000 then area 0 8 && area 16 24 && f 56 8 == 0
  else if region = 0x22000 then decide (f 0 8 < 2 ^ 48) && f 8 56 == 0
  else if region = 0x23000 then bitsOf (f 0 8) 63 29 == 0 && f 16 16 == 0
  else decide (f 0 4 ≤ 1600) && f 4 60 == 0

namespace State

/-- Opens a stream: every source at 0 and not idle, W at 0 (R229, R232). That a write to the entry of a stream that is already open opens it
anew, and that one without a source closes it, is the model's choice (assumption 137). -/
def openStream (s : State) (n : Nat) (bs : List Byte) : State :=
  let kinds := (List.range 16).map (fun i => (i, (sourceKindOf bs i).getD .none))
  let srcs : SMap Source := kinds.foldl (fun (m : SMap Source) x => if x.2 = .none then m else m.set {} x.1 { kind := x.2, last := s.clock }) []
  s.modStream n (fun _ => { opened := !srcs.isEmpty, srcs := srcs, timeout := fieldAt bs 128 4 })

/-- Removes a mapping from every buffer of the package (R279). -/
def invalidate (s : State) (ctx bits va : Nat) : State :=
  let hit : TlbEntry → Bool := fun e => e.ctx == ctx && e.va / 2 ^ (max bits e.bits) == va / 2 ^ (max bits e.bits)
  { s with cores := s.cores.mapVal {} (fun _ c => { c with tlb := c.tlb.filter (fun e => !hit e) }),
           tlb2 := s.tlb2.mapVal [] (fun _ l => l.filter (fun e => !hit e)) }

/-- Clears quarantines and their scores (R302). -/
def clearQuarantine (s : State) (mask : Nat) : State :=
  (List.range 48).foldl (fun s c => if bitOf mask c && (s.core c).quar then s.modCore c (fun k => { k with quar := false, score := 0 }) else s) s

/-- What a block does when it is written. -/
def windowEffect (s : State) (region n : Nat) (bs : List Byte) : State :=
  if region = 0 then s.openStream n bs
  else if region = 0x11000 then s.invalidate (fieldAt bs 0 4) (fieldAt bs 4 4) (fieldAt bs 8 8)
  else if region = 0x12000 then { s with samplePos := 0, sampleDue := s.clock + BitVec.ofNat 64 (fieldAt bs 0 8) }
  else if region = 0x13000 then
    s.modCore n (fun k => { k with lanes := k.lanes.mapVal {} (fun _ r => { r with ranges := s.rangesOf n }) })
  else if region = 0x21000 then
    { s with ringPos := 0, jobs := s.jobs.map (fun j => if j.resolved then j else { j with kept := s.marked j.lid }) }
  else if region = 0x22000 then s.clearQuarantine (fieldAt bs 0 8)
  else s

/-- Writes one block of the window whole, or refuses it (R323). -/
def windowWrite (s : State) (m : HostMsg) : State :=
  s.receive m 6 3 4096 0 fun s =>
    let a := m.addr.toNat
    if a % 8 ≠ 0 ∨ m.len % 8 ≠ 0 then s.reply m 3
    else match windowBlock? a with
      | none => s.reply m 1
      | some (region, n, first, size) =>
        if a ≠ first ∨ m.len ≠ size ∨ !windowOk region (HostMsg.data m) then s.reply m 3
        else
          let s : State := { s with window := (HostMsg.data m).zipIdx.foldl (fun w b => w.set 0 (first + b.2) b.1) s.window }
          (s.windowEffect region n (HostMsg.data m)).reply m 0

end State

/-- The audit counters as a read of the window shows them: abandonments by reason 1 to 7, then selected, matched and outvoted blocks, 8
bytes each (R301, assumption 20). -/
def State.auditCounters (s : State) : List Byte :=
  ((List.range 7).map (fun i => s.abr.get 0 (i + 1)) ++ [s.selected, s.matched, s.outvoted]).flatMap (leBytes 8)

/-- A byte of the window. -/
def State.windowByte (s : State) (a : Nat) : Byte :=
  if 0x21040 ≤ a ∧ a < 0x21090 then s.auditCounters.getD (a - 0x21040) 0 else s.window.get 0 a

/-- The regions that a read may lie in: the blocks, and the audit counters. -/
def readRegions : List (Nat × Nat) := windowBlocks.map (fun b => (b.1, b.1 + b.2.1 * b.2.2)) ++ [(0x21040, 0x21090)]

/-- Reads the window, within one of its regions. -/
def execControlWindowRead (m : HostMsg) (s : State) : Host.Outcome State Fault Refusal :=
  .next (s.receive m 6 2 4096 0 fun s =>
    let a := m.addr.toNat
    if a % 8 ≠ 0 ∨ m.len % 8 ≠ 0 then s.reply m 3
    else if readRegions.any (fun b => decide (b.1 ≤ a) && decide (a + m.len ≤ b.2)) then
      s.reply m 0 ((List.range m.len).map (fun i => s.windowByte (a + i)))
    else s.reply m 1)

/-- A block with no behaviour of its own. -/
def execControlWindowWrite (m : HostMsg) (s : State) : Host.Outcome State Fault Refusal := .next (s.windowWrite m)
/-- A stream table entry. -/
def execStreamTableWrite (m : HostMsg) (s : State) : Host.Outcome State Fault Refusal := .next (s.windowWrite m)
/-- A TLB invalidation. -/
def execTlbInvalidation (m : HostMsg) (s : State) : Host.Outcome State Fault Refusal := .next (s.windowWrite m)
/-- The quarantine clear mask. -/
def execQuarantineClear (m : HostMsg) (s : State) : Host.Outcome State Fault Refusal := .next (s.windowWrite m)

/-! ### Attestation (R327) -/

/-- Bytes 0 to 447 of the report. -/
def attested (s : State) (nonce : List Byte) : List Byte :=
  let enabled := (List.range 48).map (fun c => (s.core c).enabled)
  let mask : List Bool → Nat := fun l => ((l.zipIdx).map (fun x => if x.1 then 2 ^ x.2 else 0)).sum
  leBytes 4 0x41545354 ++ leBytes 2 0xA1 ++ leBytes 2 (if enabled.all id then 0x30 else 0x2C) ++ leBytes 8 (mask enabled) ++
  leBytes 8 (mask ((List.range 48).map (fun c => (s.core c).quar))) ++ leBytes 8 s.running.svn ++ nonce ++
  leBytes 64 (Sha512.hash s.running.bytes).toNat ++ leBytes 64 (Sha512.hash s.applied).toNat ++
  (List.range 48).flatMap (fun c => leBytes 2 (s.core c).score) ++ 
  leBytes 32 (Ed25519.publicKey (Config.identitySeed s.running.svn)).toNat ++ leBytes 128 0

def execAttestation (m : HostMsg) (s : State) : Host.Outcome State Fault Refusal :=
  .next (s.receive m 6 4 32 0 fun s =>
    if m.len ≠ 32 then s.reply m 0xFFFF
    else
      let r := attested s (HostMsg.data m)
      s.reply m 0 (r ++ leBytes 64 (Ed25519.sign (Config.identitySeed s.running.svn) r).toNat))

end Sys2Proof.Machine
end

