-- ==== Sys2Proof/Machine/Scalar.lean ====
section
/-! DEFINITION. The scalar forms (R134, R135, R139 to R146). -/

namespace Sys2Proof.Machine

/-- A scalar arithmetic form of `n` words: the types it accepts, the registers it reads, its destination, its result in
the scalar type (R134, R135). That a type fault comes before an open register is the model's choice (assumption 11). -/
def State.scalarArith (s : State) (p n : Nat) (ok : EType → Bool) (reads : List Nat) (d : Nat)
    (f : Mode → EType → Wave → Nat × BitVec 6) : State :=
  let t := typeOf (s.wave p).md
  if !ok t then s.halt p 0x13 t.code
  else s.opened p [] (d :: reads) fun s =>
    let w := s.wave p
    let r := f (modeOf w.md) (scalarType w.md) w
    (s.setWave p (w.sput d (BitVec.ofNat 32 r.1))).retireScalar p n w.activeMask r.2

/-- A scalar form that ignores TYPE and raises no flag. -/
def State.scalarMove (s : State) (p n : Nat) (reads : List Nat) (d : Nat) (f : Wave → Word) : State :=
  s.opened p [] (d :: reads) fun s =>
    (s.modWave p (fun w => (w.sput d (f w)).advance n)).endIfEmpty p

def anyType : EType → Bool := fun _ => true
/-- SMULH computes in i32 or n32 only (R135). -/
def smulhType (t : EType) : Bool := t != .f32

def execSadd (d a b : Nat) (s : State) : Host.Outcome State Fault Refusal := onWave s fun p =>
  s.scalarArith p 1 anyType [a, b] d (fun md t w => addElem md t (w.sget a).toNat (w.sget b).toNat)
def execSsub (d a b : Nat) (s : State) : Host.Outcome State Fault Refusal := onWave s fun p =>
  s.scalarArith p 1 anyType [a, b] d (fun md t w => subElem md t (w.sget a).toNat (w.sget b).toNat)
def execSmul (d a b : Nat) (s : State) : Host.Outcome State Fault Refusal := onWave s fun p =>
  s.scalarArith p 1 anyType [a, b] d (fun md t w => mulElem md t (w.sget a).toNat (w.sget b).toNat)
def execSmulh (d a b : Nat) (s : State) : Host.Outcome State Fault Refusal := onWave s fun p =>
  s.scalarArith p 1 smulhType [a, b] d (fun _ t w => mulhElem t (w.sget a).toNat (w.sget b).toNat)
def execSand (d a b : Nat) (s : State) : Host.Outcome State Fault Refusal := onWave s fun p =>
  s.scalarMove p 1 [a, b] d (fun w => w.sget a &&& w.sget b)
def execSor (d a b : Nat) (s : State) : Host.Outcome State Fault Refusal := onWave s fun p =>
  s.scalarMove p 1 [a, b] d (fun w => w.sget a ||| w.sget b)
def execSxor (d a b : Nat) (s : State) : Host.Outcome State Fault Refusal := onWave s fun p =>
  s.scalarMove p 1 [a, b] d (fun w => w.sget a ^^^ w.sget b)
def execSnot (d a : Nat) (s : State) : Host.Outcome State Fault Refusal := onWave s fun p =>
  s.scalarMove p 1 [a] d (fun w => ~~~w.sget a)
def execSshl (d a b : Nat) (s : State) : Host.Outcome State Fault Refusal := onWave s fun p =>
  s.scalarMove p 1 [a, b] d (fun w => BitVec.ofNat 32 (shlElem 32 (w.sget a).toNat (w.sget b).toNat))
def execSshr (d a b : Nat) (s : State) : Host.Outcome State Fault Refusal := onWave s fun p =>
  s.scalarMove p 1 [a, b] d (fun w => BitVec.ofNat 32 (shrElem 32 (w.sget a).toNat (w.sget b).toNat))
def execSsra (d a b : Nat) (s : State) : Host.Outcome State Fault Refusal := onWave s fun p =>
  s.scalarMove p 1 [a, b] d (fun w => BitVec.ofNat 32 (sraElem 32 (w.sget a).toNat (w.sget b).toNat))
def execSmin (d a b : Nat) (s : State) : Host.Outcome State Fault Refusal := onWave s fun p =>
  s.scalarArith p 1 anyType [a, b] d (fun md t w => minmaxElem false md t (w.sget a).toNat (w.sget b).toNat)
def execSmax (d a b : Nat) (s : State) : Host.Outcome State Fault Refusal := onWave s fun p =>
  s.scalarArith p 1 anyType [a, b] d (fun md t w => minmaxElem true md t (w.sget a).toNat (w.sget b).toNat)
def execScmp (d a b : Nat) (c : Cond) (s : State) : Host.Outcome State Fault Refusal := onWave s fun p =>
  s.scalarArith p 2 anyType [a, b] d (fun md t w => cmpElem c md t (w.sget a).toNat (w.sget b).toNat)
def execSsel (d a b c : Nat) (s : State) : Host.Outcome State Fault Refusal := onWave s fun p =>
  s.scalarMove p 2 [a, b, c] d (fun w => w.sget c &&& w.sget a ||| ~~~w.sget c &&& w.sget b)
def execSmov (d a : Nat) (s : State) : Host.Outcome State Fault Refusal := onWave s fun p =>
  s.scalarMove p 1 [a] d (fun w => w.sget a)
def execSli (d : Nat) (imm : BitVec 16) (s : State) : Host.Outcome State Fault Refusal := onWave s fun p =>
  s.scalarMove p 1 [] d (fun _ => imm.setWidth 32)
def execShi (d : Nat) (imm : BitVec 16) (s : State) : Host.Outcome State Fault Refusal := onWave s fun p =>
  s.scalarMove p 1 [d] d (fun w => imm.setWidth 32 <<< 16 ||| w.sget d &&& 0x0000FFFF)
def execSaddi (d : Nat) (imm : BitVec 16) (s : State) : Host.Outcome State Fault Refusal := onWave s fun p =>
  s.scalarMove p 1 [d] d (fun w => w.sget d + imm.signExtend 32)

/-- A bit field, zero- or sign-extended (R146). -/
def fieldOf (x : Word) (sx : Bool) (len pos : Nat) : Word :=
  let f := x.toNat / 2 ^ pos % 2 ^ len
  if sx then BitVec.ofInt 32 (sext len f) else BitVec.ofNat 32 f

def execSbfe (d a : Nat) (sx : Bool) (len pos : Nat) (s : State) : Host.Outcome State Fault Refusal := onWave s fun p =>
  s.scalarMove p 2 [a] d (fun w => fieldOf (w.sget a) sx len pos)
def execSpopc (d a : Nat) (s : State) : Host.Outcome State Fault Refusal := onWave s fun p =>
  s.scalarMove p 1 [a] d (fun w => BitVec.ofNat 32 (popCount (w.sget a)))
def execSclz (d a : Nat) (s : State) : Host.Outcome State Fault Refusal := onWave s fun p =>
  s.scalarMove p 1 [a] d (fun w => BitVec.ofNat 32 (clz (w.sget a)))

end Sys2Proof.Machine
end

