-- ==== Sys2Proof/Machine/Vector.lean ====
section
/-! DEFINITION. The vector compute forms (R133, R135, R139 to R149). -/

namespace Sys2Proof.Machine

/-- A vector form of `n` words (R133): the types it accepts, the registers it reads and its destination in the active
lanes, and what it computes in a lane. That a type fault comes before an open register is the model's choice (assumption 11). -/
def State.vectorForm (s : State) (p n : Nat) (ok : EType → Bool) (srcs scals : List Nat) (d : Nat)
    (f : State → Mode → EType → Nat → Word × BitVec 6) : State :=
  let w := s.wave p
  let t := typeOf w.md
  let m := w.activeMask
  if !ok t then s.halt p 0x13 t.code
  else s.direct p (srcs.map (fun r => (r, m))) [(d, m)] scals fun s =>
    let r := f s (modeOf w.md) t
    (s.vput p d m (fun l => (r l).1)).retire p n ((lanesOf m).foldl (fun a l => a.set 0 l (r l).2) [])

/-- A form that works on the elements of two registers. -/
def State.vector2 (s : State) (p n : Nat) (ok : EType → Bool) (d a b : Nat) (f : Mode → EType → Nat → Nat → Nat × BitVec 6) : State :=
  s.vectorForm p n ok [a, b] [] d (fun s md t l => mapParts t (fun j => f md t (part t (s.vget p a l) j) (part t (s.vget p b l) j)))

/-- A form that works on the elements of one register. -/
def State.vector1 (s : State) (p : Nat) (ok : EType → Bool) (d a : Nat) (f : Mode → EType → Nat → Nat × BitVec 6) : State :=
  s.vectorForm p 1 ok [a] [] d (fun s md t l => mapParts t (fun j => f md t (part t (s.vget p a l) j)))

/-- A form on 32-bit lanes that ignores TYPE and raises no flag. -/
def State.vectorMove (s : State) (p n : Nat) (srcs scals : List Nat) (d : Nat) (f : State → Nat → Word) : State :=
  s.vectorForm p n anyType srcs scals d (fun s _ _ l => (f s l, 0))

/-- The types that VMULH accepts (R135). -/
def vmulhType (t : EType) : Bool :=
  match t with
  | .i32 => true | .n32 => true | .i16x2 => true | .i8x4 => true | .n8x4 => true | .i4x8 => true
  | _ => false

/-- The types that VSCL accepts. -/
def vsclType (t : EType) : Bool :=
  match t with
  | .f32 => true | .f16x2 => true | .b16x2 => true | .t8x4 => true | .w8x4 => true | .t4x8 => true
  | _ => false

/-- The types that VDOT and VDOTA accept. -/
def vdotType (t : EType) : Bool :=
  match t with
  | .i8x4 => true | .n8x4 => true | .t8x4 => true | .w8x4 => true | .i4x8 => true | .t4x8 => true
  | _ => false

def execVadd (d a b : Nat) (s : State) : Host.Outcome State Fault Refusal := onWave s fun p => s.vector2 p 1 anyType d a b addElem
def execVsub (d a b : Nat) (s : State) : Host.Outcome State Fault Refusal := onWave s fun p => s.vector2 p 1 anyType d a b subElem
def execVmul (d a b : Nat) (s : State) : Host.Outcome State Fault Refusal := onWave s fun p => s.vector2 p 1 anyType d a b mulElem
def execVmulh (d a b : Nat) (s : State) : Host.Outcome State Fault Refusal := onWave s fun p =>
  s.vector2 p 1 vmulhType d a b (fun _ => mulhElem)
def execVfma (d a b c : Nat) (s : State) : Host.Outcome State Fault Refusal := onWave s fun p =>
  s.vectorForm p 2 anyType [a, b, c] [] d (fun s md t l => mapParts t (fun j =>
    fmaElem md t (part t (s.vget p a l) j) (part t (s.vget p b l) j) (part t (s.vget p c l) j)))
def execVmin (d a b : Nat) (s : State) : Host.Outcome State Fault Refusal := onWave s fun p =>
  s.vector2 p 1 anyType d a b (minmaxElem false)
def execVmax (d a b : Nat) (s : State) : Host.Outcome State Fault Refusal := onWave s fun p =>
  s.vector2 p 1 anyType d a b (minmaxElem true)
def execVabs (d a : Nat) (s : State) : Host.Outcome State Fault Refusal := onWave s fun p => s.vector1 p anyType d a absElem
def execVneg (d a : Nat) (s : State) : Host.Outcome State Fault Refusal := onWave s fun p => s.vector1 p anyType d a negElem
def execVand (d a b : Nat) (s : State) : Host.Outcome State Fault Refusal := onWave s fun p =>
  s.vectorMove p 1 [a, b] [] d (fun s l => s.vget p a l &&& s.vget p b l)
def execVor (d a b : Nat) (s : State) : Host.Outcome State Fault Refusal := onWave s fun p =>
  s.vectorMove p 1 [a, b] [] d (fun s l => s.vget p a l ||| s.vget p b l)
def execVxor (d a b : Nat) (s : State) : Host.Outcome State Fault Refusal := onWave s fun p =>
  s.vectorMove p 1 [a, b] [] d (fun s l => s.vget p a l ^^^ s.vget p b l)
def execVnot (d a : Nat) (s : State) : Host.Outcome State Fault Refusal := onWave s fun p =>
  s.vectorMove p 1 [a] [] d (fun s l => ~~~s.vget p a l)

/-- A shift element by element, whatever the format (R143). -/
def State.shiftForm (s : State) (p d a b : Nat) (f : Nat → Nat → Nat → Nat) : State :=
  s.vector2 p 1 anyType d a b (fun _ t x n => (f t.width x n, 0))

def execVshl (d a b : Nat) (s : State) : Host.Outcome State Fault Refusal := onWave s fun p => s.shiftForm p d a b shlElem
def execVshr (d a b : Nat) (s : State) : Host.Outcome State Fault Refusal := onWave s fun p => s.shiftForm p d a b shrElem
def execVsra (d a b : Nat) (s : State) : Host.Outcome State Fault Refusal := onWave s fun p => s.shiftForm p d a b sraElem
def execVcmp (d a b : Nat) (c : Cond) (s : State) : Host.Outcome State Fault Refusal := onWave s fun p =>
  s.vector2 p 2 anyType d a b (cmpElem c)
def execVsel (d a b c : Nat) (s : State) : Host.Outcome State Fault Refusal := onWave s fun p =>
  s.vectorMove p 2 [a, b, c] [] d (fun s l => s.vget p c l &&& s.vget p a l ||| ~~~s.vget p c l &&& s.vget p b l)
def execVmov (d a : Nat) (s : State) : Host.Outcome State Fault Refusal := onWave s fun p =>
  s.vectorMove p 1 [a] [] d (fun s l => s.vget p a l)
def execVli (d : Nat) (imm : BitVec 16) (s : State) : Host.Outcome State Fault Refusal := onWave s fun p =>
  s.vectorMove p 1 [] [] d (fun _ _ => imm.signExtend 32)
def execVbcs (d a : Nat) (s : State) : Host.Outcome State Fault Refusal := onWave s fun p =>
  s.vectorMove p 1 [] [a] d (fun s _ => (s.wave p).sget a)

/-- VCVT of one lane (R147): `old` is the destination's present element. -/
def cvtLane (md : Mode) (tgt src : EType) (k : Nat) (x old : Word) : Word × BitVec 6 :=
  if tgt.count ≤ src.count then
    mapParts tgt (fun j => cvtElem md tgt src (part src x (k * tgt.count + j)))
  else
    let rs := (List.range src.count).map (fun j => cvtElem md tgt src (part src x j))
    let n := (List.range tgt.count).map (fun j =>
      if k * src.count ≤ j ∧ j < (k + 1) * src.count then (rs.getD (j - k * src.count) (0, 0)).1 else part tgt old j)
    (BitVec.ofNat 32 (pack tgt 0 n), rs.foldl (fun a r => a ||| r.2) 0)

def execVcvt (d a : Nat) (tgt src : EType) (k : Nat) (s : State) : Host.Outcome State Fault Refusal := onWave s fun p =>
  s.vectorForm p 2 anyType (if tgt.count ≤ src.count then [a] else [a, d]) [] d (fun s md _ l =>
    cvtLane md tgt src k (s.vget p a l) (s.vget p d l))

def execVscl (d a b : Nat) (s : State) : Host.Outcome State Fault Refusal := onWave s fun p =>
  s.vectorForm p 1 vsclType [a] [b] d (fun s md t l => mapParts t (fun j =>
    match kindOf t with
    | .flt f => sclElem md f (((s.wave p).sget b).toNat % 256) (part t (s.vget p a l) j)
    | .int _ => (part t (s.vget p a l) j, 0)))

def execVbfe (d a : Nat) (sx : Bool) (len pos : Nat) (s : State) : Host.Outcome State Fault Refusal := onWave s fun p =>
  s.vectorMove p 2 [a] [] d (fun s l => fieldOf (s.vget p a l) sx len pos)

/-- y with a field replaced by the low bits of x (R146). -/
def insertField (x y : Word) (len pos : Nat) : Word :=
  let mask : Word := BitVec.ofNat 32 ((2 ^ len - 1) * 2 ^ pos)
  y &&& ~~~mask ||| x <<< pos &&& mask

def execVbfi (d a b : Nat) (len pos : Nat) (s : State) : Host.Outcome State Fault Refusal := onWave s fun p =>
  s.vectorMove p 2 [a, b] [] d (fun s l => insertField (s.vget p a l) (s.vget p b l) len pos)
def execVpopc (d a : Nat) (s : State) : Host.Outcome State Fault Refusal := onWave s fun p =>
  s.vectorMove p 1 [a] [] d (fun s l => BitVec.ofNat 32 (popCount (s.vget p a l)))
def execVclz (d a : Nat) (s : State) : Host.Outcome State Fault Refusal := onWave s fun p =>
  s.vectorMove p 1 [a] [] d (fun s l => BitVec.ofNat 32 (clz (s.vget p a l)))
def execVdot (d a b : Nat) (s : State) : Host.Outcome State Fault Refusal := onWave s fun p =>
  s.vectorForm p 1 vdotType [a, b] [] d (fun s md t l => dotLane md t (s.vget p a l) (s.vget p b l) none)
def execVdota (d a b : Nat) (s : State) : Host.Outcome State Fault Refusal := onWave s fun p =>
  s.vectorForm p 1 vdotType [a, b, d] [] d (fun s md t l => dotLane md t (s.vget p a l) (s.vget p b l) (some (s.vget p d l)))
def execVlid (d a b : Nat) (s : State) : Host.Outcome State Fault Refusal := onWave s fun p =>
  s.vectorMove p 1 [] [a, b] d (fun s l => (s.wave p).sget a + BitVec.ofNat 32 l * (s.wave p).sget b)

end Sys2Proof.Machine
end

