-- ==== Sys2Proof/Machine/Lane.lean ====
section
/-! DEFINITION. Lane exchange: shuffles, segmented operations, votes and matches (R153 to R157). -/

namespace Sys2Proof.Machine

/-- The operation of VSHOP and VSEGOP on one lane (R138, R153): elements under md, or 32 bits. -/
def xopLane (op : XOp) (md : Mode) (t : EType) (x y : Word) : Word × BitVec 6 :=
  let elems := fun (g : Mode → EType → Nat → Nat → Nat × BitVec 6) => mapParts t (fun j => g md t (part t x j) (part t y j))
  match op with
  | .add => elems addElem
  | .min => elems (minmaxElem false)
  | .max => elems (minmaxElem true)
  | .and => (x &&& y, 0)
  | .or => (x ||| y, 0)
  | .xor => (x ^^^ y, 0)

/-- The source lane of a lane, if it exists (R154). -/
def sourceLane (pat : Pat) (k l : Nat) (idx : Word) : Option Nat :=
  match pat with
  | .xor => if l ^^^ k < 96 then some (l ^^^ k) else none
  | .up => if k ≤ l then some (l - k) else none
  | .down => if l + k ≤ 95 then some (l + k) else none
  | .index => if idx.toNat ≤ 95 then some idx.toNat else none

/-- An exchange form (R153): the whole of `whole` is read, `srcs` in the active lanes; `used` tells the elements that
enter results, whose poison kills the wave (R158). -/
def State.exchange (s : State) (p : Nat) (whole : Nat) (srcs : List Nat) (dsts : Regs) (scals : List Nat)
    (used : State → List (Nat × Nat)) (go : State → State) : State :=
  let m := (s.wave p).activeMask
  s.access p ((whole, allLanes) :: srcs.map (fun r => (r, m))) dsts scals fun s =>
    let bad := ((used s).dedup).filter (fun x => s.poisoned (velem p x.1 x.2))
    if bad ≠ [] then s.kill p bad.length (State.badLanes bad) else go s

/-- VSHF and VSHOP: the lane whose value an active lane receives, itself where the source is not valid (R154). -/
def partner (w : Wave) (pat : Pat) (k l : Nat) (idx : Word) : Option Nat :=
  (sourceLane pat k l idx).bind (fun x => if w.activeMask.getLsbD x then some x else none)

def State.shuffle (s : State) (p d a b : Nat) (pat : Pat) (k : Nat) (comb : Mode → EType → Word → Word → Word × BitVec 6)
    (own : Bool) : State :=
  let w := s.wave p
  let m := w.activeMask
  let idx : State → Nat → Word := fun s l => if pat = .index then s.vget p b l else 0
  s.exchange p a (if pat = .index then [b] else []) [(d, m)] []
    (fun s => (lanesOf m).flatMap (fun l =>
      (if pat = .index then [(b, l)] else []) ++
      (match partner w pat k l (idx s l) with
       | some x => (a, x) :: (if own then [(a, l)] else [])
       | none => [(a, l)])))
    fun s =>
      let r : Nat → Word × BitVec 6 := fun l =>
        match partner w pat k l (idx s l) with
        | some x => comb (modeOf w.md) (typeOf w.md) (s.vget p a l) (s.vget p a x)
        | none => (s.vget p a l, 0)
      (s.vput p d m (fun l => (r l).1)).retire p 2 ((lanesOf m).foldl (fun c l => c.set 0 l (r l).2) [])

def execVshf (d a b : Nat) (pat : Pat) (k : Nat) (s : State) : Host.Outcome State Fault Refusal := onWave s fun p =>
  s.shuffle p d a b pat k (fun _ _ _ y => (y, 0)) false

def execVshop (d a b : Nat) (op : XOp) (pat : Pat) (k : Nat) (s : State) : Host.Outcome State Fault Refusal := onWave s fun p =>
  s.shuffle p d a b pat k (xopLane op) true

/-- The scan over the active lanes (R155): for each lane in order its value, its conditions, and whether it begins a
segment. -/
def scanGo (op : Word → Word → Word × BitVec 6) (x : Nat → Word) (head : Nat → Bool) :
    Option Word → List Nat → List (Nat × Word × BitVec 6 × Bool)
  | _, [] => []
  | none, l :: t => (l, x l, 0, true) :: scanGo op x head (some (x l)) t
  | some acc, l :: t =>
    if head l then (l, x l, 0, true) :: scanGo op x head (some (x l)) t
    else let r := op acc (x l); (l, r.1, r.2, false) :: scanGo op x head (some r.1) t

/-- Every lane gets the value of the last lane of its segment (R155, mode 1). -/
def totals : List (Nat × Word × BitVec 6 × Bool) → List (Nat × Word × BitVec 6 × Bool)
  | [] => []
  | (l, v, f, h) :: t =>
    match totals t with
    | [] => [(l, v, f, h)]
    | (l', v', f', h') :: t' => (l, if h' then v else v', f, h) :: (l', v', f', h') :: t'

/-- VSEGOP. The head element of the first active lane counts as consumed, though its bit decides nothing: the model's choice (R155, R158,
assumption 138). -/
def execVsegop (d a b : Nat) (op : XOp) (total : Bool) (s : State) : Host.Outcome State Fault Refusal := onWave s fun p =>
  let w := s.wave p
  let m := w.activeMask
  s.exchange p a [b] [(d, m)] [] (fun _ => (lanesOf m).flatMap (fun l => [(a, l), (b, l)])) fun s =>
    let sc := scanGo (xopLane op (modeOf w.md) (typeOf w.md)) (s.vget p a) (fun l => (s.vget p b l).getLsbD 0) none (lanesOf m)
    let r := if total then totals sc else sc
    (s.vput p d m (fun l => ((r.find? (fun e => e.1 == l)).map (fun e => e.2.1)).getD 0)).retire p 2
      (sc.foldl (fun c e => c.set 0 e.1 e.2.2.1) [])

/-- The vote forms (R156): each active lane's test, then scalars. -/
def State.vote (s : State) (p a : Nat) (cc : Cc) (dsts : List Nat) (f : List Nat → (Nat → Bool) → Wave → Wave) : State :=
  let m := (s.wave p).activeMask
  s.exchange p a [] [] dsts (fun _ => (lanesOf m).map (fun l => (a, l))) fun s =>
    (s.modWave p (fun w => (f (lanesOf m) (fun l => ccTest cc (s.vget p a l)) w).advance 1)).endIfEmpty p

/-- Word `j` of a mask of lanes. -/
def maskWord (ls : List Nat) (f : Nat → Bool) (j : Nat) : Word :=
  BitVec.ofNat 32 (((ls.filter (fun l => l / 32 == j && f l)).map (fun l => 2 ^ (l % 32))).sum)

def execVbal (d a : Nat) (cc : Cc) (s : State) : Host.Outcome State Fault Refusal := onWave s fun p =>
  s.vote p a cc [d, d + 1, d + 2] (fun ls f w =>
    ((w.sput d (maskWord ls f 0)).sput (d + 1) (maskWord ls f 1)).sput (d + 2) (maskWord ls f 2))
def execVany (d a : Nat) (cc : Cc) (s : State) : Host.Outcome State Fault Refusal := onWave s fun p =>
  s.vote p a cc [d] (fun ls f w => w.sput d (if ls.any f then 1 else 0))
def execVall (d a : Nat) (cc : Cc) (s : State) : Host.Outcome State Fault Refusal := onWave s fun p =>
  s.vote p a cc [d] (fun ls f w => w.sput d (if ls.all f then 1 else 0))
def execVffs (d a : Nat) (cc : Cc) (s : State) : Host.Outcome State Fault Refusal := onWave s fun p =>
  s.vote p a cc [d] (fun ls f w => w.sput d (BitVec.ofNat 32 ((ls.find? f).getD 96)))

/-- Keys agree (R157): bit patterns, or element by element as values under KEYV. -/
def keysEqual (md : BitVec 16) (x y : Word) : Bool :=
  let t := typeOf md
  if !md.getLsbD 13 then x == y
  else match kindOf t with
    | .int _ => x == y
    | .flt f => (List.range t.count).all (fun j =>
        let a := f.operand (modeOf md) (part t x j)
        let b := f.operand (modeOf md) (part t y j)
        !a.isNan && !b.isNan && a.cmp b == .eq)

/-- VMATCH; with no active lane no vector destination element is written (R158). -/
def execVmatch (d a : Nat) (s : State) : Host.Outcome State Fault Refusal := onWave s fun p =>
  let w := s.wave p
  let m := w.activeMask
  let dst := if m = 0 then 0 else allLanes
  s.exchange p a [] [(d, dst), (d + 1, dst), (d + 2, dst)] [] (fun _ => (lanesOf m).map (fun l => (a, l))) fun s =>
    let v : Nat → Nat → Word := fun j l =>
      if m.getLsbD l then maskWord (lanesOf m) (fun i => keysEqual w.md (s.vget p a l) (s.vget p a i)) j else 0
    (((s.vput p d dst (v 0)).vput p (d + 1) dst (v 1)).vput p (d + 2) dst (v 2)).modWave p (·.advance 1)

end Sys2Proof.Machine
end

