-- ==== Sys2Proof/Machine/Loader.lean ====
section
/-! DEFINITION. The loader: kernel images, their checks, relocation and registration (R28, R64, R76, R104, R115, R195, R287,
R297, R316, R317). -/

namespace Sys2Proof.Machine

/-! ### Registers that an instruction names directly (R28, R195) -/

def span (r n : Nat) : List Nat := (List.range n).map (r + ·)

def vecsOf : Instr → List Nat
  | .ifOpen a _ | .nrst a | .admix a _ => [a]
  | .nsav d | .vli d _ | .vbcs d _ | .vlid d _ _ => [d]
  | .rdsr d sr => match sr with | .wfield _ => [d] | .lane => [d] | .wid => [d, d + 1] | _ => []
  | .task _ r => span r 16
  | .vadd d a b | .vsub d a b | .vmul d a b | .vmulh d a b | .vmin d a b | .vmax d a b | .vand d a b | .vor d a b
  | .vxor d a b | .vshl d a b | .vshr d a b | .vsra d a b | .vcmp d a b _ | .vbfi d a b _ _ | .vdot d a b | .vdota d a b
  | .vsegop d a b _ _ => [d, a, b]
  | .vfma d a b c | .vsel d a b c => [d, a, b, c]
  | .vabs d a | .vneg d a | .vnot d a | .vmov d a | .vcvt d a _ _ _ | .vscl d a _ | .vbfe d a _ _ _ | .vpopc d a
  | .vclz d a | .vrcp d a | .vrsq d a | .vsqrt d a | .vex2 d a | .vlg2 d a | .vsin d a | .vcos d a => [d, a]
  | .vshf d a b pat _ => if pat = .index then [d, a, b] else [d, a]
  | .vshop d a b _ pat _ => if pat = .index then [d, a, b] else [d, a]
  | .vbal _ a _ | .vany _ a _ | .vall _ a _ | .vffs _ a _ => [a]
  | .vmatch d a => span d 3 ++ [a]
  | .xget d o _ => [d, o]
  | .xput v o _ => [v, o]
  | .xgetw d _ _ => [d]
  | .xputw v _ _ => [v]
  | .xatm d o c _ _ => [d, o, c]
  | .vldb d o _ _ | .vldh d o _ _ | .vldw d o _ _ => [d, o]
  | .vldd d o _ _ => [d, d + 1, o]
  | .vstb v o _ _ | .vsth v o _ _ | .vstw v o _ _ => [v, o]
  | .vstd v o _ _ => [v, v + 1, o]
  | .vamo d o _ _ _ c _ w => if w then [d, d + 1, o, c, c + 1] else [d, o, c]
  | .vamoc d o _ _ c _ w => if w then [d, d + 1, o, c, c + 1] else [d, o, c]
  | .gath _ _ _ _ vi | .scat _ _ _ _ vi => [vi]
  | .mma f count _ => span f count
  | .pbind _ r _ => [r]
  | .pmul _ a b | .pdiv _ a b => [a, b]
  | .pout d _ _ => [d]
  | .wemit r _ _ | .wpub r _ _ _ | .wamd r _ _ _ => span r 16
  | .wrecv r w _ _ _ | .wlate r w _ _ _ => span r 16 ++ [w, w + 1]
  | _ => []

/-- Some register that an instruction names lies at or above a budget; v240 to v255 are exempt (R28). -/
def outsideBudget (budget : Nat) (i : Instr) : Bool := (vecsOf i).any (fun v => decide (budget ≤ v) && decide (v < 240))

/-! ### What an entry reaches (R28) -/

/-- The targets that an instruction encodes, as word displacements from itself. -/
def targetsOf : Instr → List Int
  | .loop _ _ d => [d.toInt]
  | .endl _ d => [d.toInt]
  | .lend _ d => [d.toInt]
  | .bra _ d => [d.toInt]
  | .brc _ _ d => [d.toInt]
  | .call _ d => [d.toInt]
  | .trmp _ d => [d.toInt]
  | .trmpr _ d => [d.toInt]
  | _ => []

/-- Nothing falls through past it. -/
def leaves : Instr → Bool
  | .bra _ _ | .brx _ | .ret _ | .rte | .trmp _ _ | .trmpr _ _ => true
  | _ => false

/-- The clause whose header is word `i` of a text. -/
def clauseAt (text : List Word) (native : Bool) (i : Nat) : Option (Nat × List (Nat × Instr)) :=
  match text[i]? with
  | none => none
  | some h =>
    match decodeHeader h, decodeClause native h (text.drop (i + 1)) with
    | .ok hd, .ok l => if i + hd.len < text.length then some (hd.len, l) else none
    | _, _ => none

/-- The headers that follow a clause. -/
def followers (i : Nat) (c : Nat × List (Nat × Instr)) : List Nat :=
  let jumps := c.2.flatMap (fun x => (targetsOf x.2).filterMap (fun d => let t := (i + x.1 : Int) + d; if t < 0 then none else some t.toNat))
  jumps ++ (if c.2.any (fun x => leaves x.2) then [] else [i + 1 + c.1])

/-- The headers reached from a list of headers. -/
def reach (text : List Word) (native : Bool) : Nat → List Nat → List Nat → List Nat
  | 0, _, seen => seen
  | _, [], seen => seen
  | n + 1, i :: t, seen =>
    if seen.contains i then reach text native n t seen
    else match clauseAt text native i with
      | none => reach text native n t seen
      | some c => reach text native n (followers i c ++ t) (seen ++ [i])

/-- The instructions of the clauses at some headers. -/
def instrsAt (text : List Word) (native : Bool) (hs : List Nat) : List Instr :=
  hs.flatMap (fun i => match clauseAt text native i with | some c => c.2.map (·.2) | none => [])

/-- The headers that a scan of the text meets, clause after clause. -/
def scan (text : List Word) (native : Bool) : Nat → Nat → List Nat
  | 0, _ => []
  | n + 1, i => match clauseAt text native i with
    | some c => i :: scan text native n (i + 1 + c.1)
    | none => if i < text.length then scan text native n (i + 1) else []

/-! ### The header of an image (R316) and its sections -/

structure ImageParts where
  stepping : Nat
  interlocked : Bool
  reserve : Bool
  text : List Byte
  data : List Byte
  args : List Byte
  roles : List Role
  trapv : Nat
  live : List Nat
  relocs : List Nat

/-- `n` bytes of an image from an offset. -/
def slice? (bs : List Byte) (off n : Nat) : Option (List Byte) := if off + n ≤ bs.length then some ((bs.drop off).take n) else none

/-- Records of a table in an image. -/
def recordsAt (bs : List Byte) (off size n : Nat) : Option (List Nat) :=
  if off + size * n ≤ bs.length then some ((List.range n).map (fun i => leNat ((bs.drop (off + size * i)).take size))) else none

/-- The parts of an image, or none where it is malformed. A TRAPV that is not a multiple of 4 is taken as it is: the model's choice, as it
is that a header is fetched at any pc that a trap entry or a debugger gives (assumption 123). -/
def partsOf (bs : List Byte) : Option ImageParts :=
  if bs.length < 64 then none
  else
    let h := leNat (bs.take 64)
    let tlen := bitsOf h 127 96
    let trapv := bitsOf h 255 224
    let roles := ((List.range 3).map (fun i =>
      let r : Role := { entry := 4 * bitsOf h (374 + 32 * i) (352 + 32 * i), budget := bitsOf h (383 + 32 * i) (375 + 32 * i) }
      r)).filter (fun r => r.budget != 0)
    match slice? bs (bitsOf h 95 64) tlen, slice? bs (bitsOf h 159 128) (bitsOf h 191 160), slice? bs (bitsOf h 223 192) 64,
          recordsAt bs (bitsOf h 287 256) 64 (bitsOf h 303 288), recordsAt bs (bitsOf h 351 320) 8 (bitsOf h 319 304) with
    | some text, some data, some args, some live, some relocs =>
      if bitsOf h 31 0 ≠ 0x494B474E ∨ bitsOf h 63 50 ≠ 0 ∨ bitsOf h 511 448 ≠ 0 ∨ bitsOf h 95 64 % 256 ≠ 0 ∨ bitsOf h 159 128 % 256 ≠ 0 ∨
         tlen % 4 ≠ 0 ∨ (trapv ≠ 0xFFFFFFFF ∧ tlen ≤ trapv) ∨ roles.any (fun r => decide (tlen ≤ r.entry)) then none
      else some { stepping := bitsOf h 47 32, interlocked := bitOf h 48, reserve := bitOf h 49, text := text, data := data, args := args,
                  roles := roles, trapv := trapv, live := live, relocs := relocs }
    | _, _, _, _, _ => none

/-- A liveness record: none where a reserved bit is set (R287). -/
def livenessOf (v : Nat) : Option Liveness :=
  if bitsOf v 511 384 ≠ 0 then none
  else some { vmap := BitVec.ofNat 256 (bitsOf v 255 0),
              ranges := (List.range 4).map (fun i => (bitsOf v (271 + 32 * i) (256 + 32 * i), bitsOf v (287 + 32 * i) (272 + 32 * i))) }

/-! ### Relocation (R317) -/

/-- Writes bytes into a section at an offset. -/
def patchAt (bs : List Byte) (off : Nat) (new : List Byte) : List Byte := bs.take off ++ new ++ bs.drop (off + new.length)

/-- Applies one record: the load address of the symbol's section is added to the slot. -/
def relocate (ld : ImageLoad) (p : ImageParts) (r : Nat) : Option ImageParts :=
  let off := bitsOf r 31 0
  let add := if bitOf r 34 then ld.dataVa else ld.textVa
  let fix : List Byte → Option (List Byte) := fun bs =>
    if bs.length < off + 8 then none else some (patchAt bs off (leBytes 8 ((leNat ((bs.drop off).take 8) + add) % 2 ^ 64)))
  if bitsOf r 63 35 ≠ 0 then none
  else match bitsOf r 33 32 with
    | 0 => (fix p.text).map (fun t => { p with text := t })
    | 1 => (fix p.data).map (fun t => { p with data := t })
    | 2 => (fix p.args).map (fun t => { p with args := t })
    | _ => none

def relocateAll (ld : ImageLoad) (p : ImageParts) : List Nat → Option ImageParts
  | [] => some p
  | r :: t => match relocate ld p r with
    | none => none
    | some p => relocateAll ld p t

/-! ### The checks (R28, R104, R287) -/

/-- Words of a text. -/
def textWords : List Byte → List Word
  | a :: b :: c :: d :: t => BitVec.ofNat 32 (leNat [a, b, c, d]) :: textWords t
  | _ => []

/-- The load status of an image's parts: 0x11 budget, 0x12 register, 0x13 liveness, 0 (R28, R104, R287). -/
def loadStatusOf (p : ImageParts) (native : Bool) : Nat :=
  let text := textWords p.text
  let fuel := 16 * (text.length + 1) * 18
  let trap := if p.trapv = 0xFFFFFFFF then [] else [p.trapv / 4]
  let sets := p.roles.map (fun r => (r.budget, reach text native fuel (r.entry / 4 :: trap) []))
  let all := scan text native (text.length + 1) 0
  let reached := (sets.flatMap (·.2)).dedup
  let largest := (p.roles.map (·.budget)).foldl max 0
  let ppts := (instrsAt text native (all ++ reached)).filterMap (fun i => match i with | .ppt n => some n | _ => none)
  if p.roles.any (fun r => decide (256 < r.budget)) then 0x11
  else if sets.any (fun x => (instrsAt text native x.2).any (outsideBudget x.1)) ||
      (instrsAt text native (all.filter (fun i => !reached.contains i))).any (outsideBudget largest) then 0x12
  else if ppts.any (fun n => decide (p.live.length ≤ n)) || p.live.any (fun v => (livenessOf v).isNone) then 0x13
  else 0

/-- The code pages of a load: how many, from the page of its text's first byte. -/
def codePages (textPa len pageSize : Nat) : Nat := (textPa % pageSize + len + pageSize - 1) / pageSize

/-- Maps the code pages read and execute only: a leaf for each into its table entry (R64, R280). -/
def State.mapCode (s : State) (ld : ImageLoad) : State :=
  ld.leaves.zipIdx.foldl (fun s x =>
    s.store x.1 (leBytes 8 (ld.textPa / ld.pageSize * ld.pageSize + x.2 * ld.pageSize + 0x17))) s

/-- Loads an image: its sections go to memory, its code pages are mapped and locked, and it is registered; or it is refused. -/
def State.loadImage (s : State) (ld : ImageLoad) : State :=
  match (partsOf ld.bytes).bind (fun p => relocateAll ld p p.relocs) with
  | none => { s with loadStatus := 0x14 }
  | some p =>
    let st := loadStatusOf p (decide (p.stepping = 0xA1) && !p.interlocked)
    if st ≠ 0 then { s with loadStatus := st }
    else
      let i : Image :=
        { id := ld.image, base := ld.textVa, stepping := p.stepping, interlocked := p.interlocked, reserve := p.reserve, roles := p.roles,
          trapVector := if p.trapv = 0xFFFFFFFF then 0 else BitVec.ofNat 64 (ld.textVa + p.trapv),
          records := p.live.filterMap livenessOf, textVa := ld.textVa, textPa := ld.textPa, textLen := p.text.length,
          pageSize := ld.pageSize, args := p.args }
      let s := ((s.store ld.textPa p.text).store ld.dataPa p.data).mapCode ld
      { s with images := s.images ++ [i], loadStatus := 0 }

/-- Bytes that a load may write: device memory outside the code pages of loaded images (R64). -/
def State.writable (s : State) (pa n : Nat) : Bool := decide (pa + n ≤ memTop) && !s.codeLocked pa n

/-- A load names an image that is not loaded, and places that an image can take: aligned alike in pages, in memory that no loaded
image's code holds, with a table entry for each code page (R64). -/
def loadable (s : State) (ld : ImageLoad) : Bool :=
  !s.images.any (fun i => i.loaded && (i.id == ld.image || i.base == ld.textVa)) && decide (s.boot = .answering) &&
  (ld.pageSize == 65536 || ld.pageSize == 2 ^ 21 || ld.pageSize == 2 ^ 30) && ld.textVa % 256 == 0 &&
  ld.textVa % ld.pageSize == ld.textPa % ld.pageSize && decide (ld.textVa + ld.bytes.length ≤ 2 ^ 57) &&
  match (partsOf ld.bytes).bind (fun p => relocateAll ld p p.relocs) with
  | none => true
  | some p =>
    let pages := codePages ld.textPa p.text.length ld.pageSize
    s.writable (ld.textPa / ld.pageSize * ld.pageSize) (pages * ld.pageSize) && s.writable ld.dataPa p.data.length &&
    ld.leaves.length == pages && ld.leaves.all (fun a => a % 8 == 0 && s.writable a 8)

def execKernelImageLoad (ld : ImageLoad) (s : State) : Host.Outcome State Fault Refusal :=
  when "KERNEL_IMAGE_LOAD" (loadable s ld) (s.loadImage ld)

/-- The run of an abandoned audit stops. -/
def State.stopRun (s : State) (job : Nat) : State :=
  let mine : Block → Bool := fun b => jobOf b.run == some job
  let s := (s.blocks.filter mine).foldl (fun s b => match s.livesOf b with | e :: _ => s.endEarly e.2 | [] => s) s
  let gone := (s.saved.filter (fun v => v.blocks.any mine)).map (·.lid)
  { s with saved := s.saved.filter (fun v => !gone.contains v.lid),
           launches := s.launches.map (fun l => if gone.contains l.lid then { l with prog := .ended } else l) }

/-- The host unloads an image: its audits that are not resolved are abandoned first, then the code lock ends (R64, R297, R301). -/
def execKernelImageUnload (image : Nat) (s : State) : Host.Outcome State Fault Refusal :=
  match s.images.find? (fun i => i.id == image && i.loaded) with
  | none => .refused (.notEnabled "KERNEL_IMAGE_UNLOAD")
  | some i =>
    let js := s.jobs.filter (fun j => !j.resolved && j.hdr.img == i.base)
    let s := js.foldl (fun s j => (s.stopRun j.id).abandon j.id 6) s
    .next { s with images := s.images.map (fun x => if x.id = image then { x with loaded := false } else x) }

end Sys2Proof.Machine
end

