-- ==== Sys2Proof/Machine/Preempt.lean ====
section
/-! DEFINITION. Pre-emption: requests, the save of waves and contexts, restore, time slices (R47, R59, R79, R129, R132,
R207, R263, R267, R277, R278, R286 to R291). -/

namespace Sys2Proof.Machine

namespace State

/-! ### Requests (R267, R278, R288) -/

/-- The heads of queues that find no rectangle, as classes. -/
def waitingHeads (s : State) : List Nat :=
  (List.range 16).filterMap (fun q => match s.queueOf q with
    | l :: _ => if (s.rectFor l).isNone then some (q / 4) else none
    | [] => none)

/-- A launch of a higher class finds no rectangle. -/
def outranked (s : State) (l : Launch) : Bool := s.waitingHeads.any (fun c => decide (c < l.cls))

/-- Cores of the reserved area that are stalled for a miss of a context which a class 0 launch displaces (R278). -/
def withdrawable (s : State) (l : Launch) : List Nat :=
  if l.cls ≠ 0 ∧ s.waitingHeads.contains 0 then
    (coresOf l).filter (fun c => s.inReserved c && (match (s.core c).stall with | some t => t.miss.lid == l.lid | none => false))
  else []

/-- An instruction of a context missed on the page for which a core stalls. -/
def missedOn (s : State) (lid c page p : Nat) : Bool :=
  (s.wave p).lid == lid && coreOf p == c && (s.wave p).status == .running && (s.wave p).missed.contains page

/-- The device ends a stall without service: the instructions that missed on its page are not issued, on other pages neither, and
their waves are saved as they stand (R278). -/
def withdrawStall (s : State) (lid c : Nat) : State :=
  match (s.core c).stall with
  | none => s
  | some t =>
    let missed := s.missedOn lid c (t.miss.va / 65536)
    let s : State := { s with withdrawn := s.withdrawn ++ [t.tag] }
    let s := (s.endStall c).modCore c (fun k => { k with misses := k.misses.filter (fun m => !missed m.party) })
    { s with waves := s.waves.mapVal {} (fun p w => if missed p then { w with parked := true, missed := [], stopClk := s.clock } else w) }

/-- The waves of a context that run. -/
def liveWaves (s : State) (lid : Nat) : List (Nat × Wave) := (s.wavesOf lid).filter (fun w => w.2.status == .running)

/-! ### What is saved (R59, R207, R263, R287, R288, R291) -/

/-- Rows of its slot that a wave keeps: those of its record, or those of its budget and v240 to v255; and those of its bound geodes'
registers (R28, R263, R287, R288). -/
def keeps (s : State) (p : Nat) (w : Wave) (r : Nat) : Bool :=
  (s.core (coreOf p)).geodes.any (fun g => g.2.bnd && g.2.party == p && g.2.vreg == r / 3) ||
  match w.ppt.bind (fun n => ((s.imageOf? w.lid).bind (fun i => i.records[n]?))) with
  | some rec => rec.vmap.getLsbD (r / 3) || rec.ranges.any (fun x => decide (x.1 ≤ r) && decide (r < x.1 + x.2))
  | none => decide (r < 3 * w.budget) || decide (720 ≤ r)

/-- `n` rows of a core from `row`, by their place in the range; `keep` says which. -/
def grabRows (s : State) (l : Launch) (c row n : Nat) (keep : Nat → Bool) : SavedRows :=
  let base := rowKey c row
  let inRange : Nat → Bool := fun r => decide (base ≤ r) && decide (r < base + n) && keep (r - base)
  { pos := posIn l c, row := row,
    elems := (s.elems.filter (fun e => inRange (e.1 / 32))).map (fun e => (e.1 - 32 * base, e.2)),
    bad := (s.bad.filter (fun e => inRange (e.1 / 32))).map (fun e => (e.1 - 32 * base, e.2)),
    info := (s.rows.filter (fun e => inRange e.1)).map (fun e => (e.1 - base, { e.2 with pnd := false, owner := 0 })) }

/-- All rows that are stored with a context. -/
def savedRows (s : State) (l : Launch) (bs : List Block) : List SavedRows :=
  (s.liveWaves l.lid).map (fun w => s.grabRows l (coreOf w.1) (768 * slotOf w.1) 768
    (fun r => s.keeps w.1 w.2 r || (s.info (slotRow w.1 r)).exp)) ++
  bs.flatMap (fun b => b.common.map (fun e => s.grabRows l b.core (768 * (e.2.1 - 1)) 768 (fun _ => true)) ++
    b.bays.map (fun y => s.grabRows l b.core (196608 + 256 * y) 256 (fun _ => true))) ++
  (coresOf l).flatMap (fun c => (baysOf l.hdr.ceil).map (fun b => s.grabRows l c (98304 + 32768 * b) 32768 (fun _ => true)))

/-- The image that the save engine stores. -/
def savedOf (s : State) (l : Launch) : Saved :=
  let bs := s.blocks.filter (fun b => b.lid == l.lid)
  let each {α : Type} (f : Nat → List α) : List (Nat × α) := (coresOf l).flatMap (fun c => (f c).map (fun x => (posIn l c, x)))
  { lid := l.lid, launch := { l with prog := .saved, preempt := none, bound := false, saveSince := none }, x0 := l.x0, y0 := l.y0,
    waves := s.liveWaves l.lid,
    blocks := bs.map (fun b => { b with rends := b.rends.map (fun r => { r with spent := r.spent + (s.clock - r.since).toNat }) }),
    rows := s.savedRows l bs,
    bays := bs.flatMap (fun b => b.bays.map (fun y => (posIn l b.core, y, s.bay b.core y))),
    geodes := bs.flatMap (fun b => b.geodes.map (fun g => (posIn l b.core, g, s.geode b.core g))),
    tags := bs.flatMap (fun b => b.tags.map (fun t => (posIn l b.core, t, (s.core b.core).tags.get .idle t))),
    locks := each (fun c => ((s.core c).locks.filter (fun x => x.1 == l.lid)).map (·.2)),
    lanes := each (fun c => ((s.core c).lanes.filter (fun x => x.1 == l.lid)).map (·.2)),
    tasks := each (fun c => (s.core c).tasks.filter (fun t => t.lid == l.lid)) }

/-- What a context holds on a core goes with it. -/
def vacate (s : State) (lid c : Nat) : State :=
  s.modCore c (fun k => { k with
    grants := k.grants.mapVal none (fun _ g => if g = some lid then none else g),
    routes := k.routes.filter (· != lid), lanes := k.lanes.erase lid, locks := k.locks.filter (fun x => x.1 != lid),
    tasks := k.tasks.filter (fun t => t.lid != lid), misses := k.misses.filter (fun m => m.lid != lid) })

/-- Stores a context and gives up its cores. -/
def storeContext (s : State) (lid : Nat) : State :=
  let l := s.launch lid
  let sv := s.savedOf l
  let s : State := { s with saved := s.saved ++ [sv] }
  let s := (s.blocks.filter (fun b => b.lid == lid)).foldl (fun s b => s.releaseBlock b) s
  let s : State := { s with waves := s.waves.filter (fun w => w.2.lid != lid) }
  let s := (coresOf l).foldl (fun s c => s.vacate lid c) s
  s.modLaunch lid (fun l => { l with prog := .saved, preempt := none, bound := false, saveSince := none })

/-- The rows that are stored with a context, as ranges of a core: core, first row, count. -/
def storedRanges (s : State) (lid : Nat) : List (Nat × Nat × Nat) :=
  let l := s.launch lid
  (s.liveWaves lid).map (fun w => (coreOf w.1, 768 * slotOf w.1, 768)) ++
  (s.blocks.filter (fun b => b.lid == lid)).flatMap (fun b =>
    b.common.map (fun e => (b.core, 768 * (e.2.1 - 1), 768)) ++ b.bays.map (fun y => (b.core, 196608 + 256 * y, 256))) ++
  (coresOf l).flatMap (fun c => (baysOf l.hdr.ceil).map (fun b => (c, 98304 + 32768 * b, 32768)))

/-- The save engine waits for a pending row (R47). -/
def rowsPending (s : State) (lid : Nat) : Bool :=
  (s.storedRanges lid).any (fun x => s.rows.any (fun e => e.2.pnd && decide (rowKey x.1 x.2.1 ≤ e.1) && decide (e.1 < rowKey x.1 (x.2.1 + x.2.2))))

/-- A forced write is still to come to a row that is stored (R60). -/
def forcedPending (s : State) (lid : Nat) : Bool :=
  (s.storedRanges lid).any (fun x => (s.core x.1).forced.any (fun f => decide (x.2.1 ≤ f.row) && decide (f.row < x.2.1 + x.2.2)))

/-- Nothing of a context is in flight, and no slot waits for its release (R47, R79, R187, R207, R263). -/
def contextQuiet (s : State) (lid : Nat) : Bool :=
  let l := s.launch lid
  s.ops.all (fun o => o.lid != lid) && s.copies.all (fun c => c.lid != lid) && s.remotes.all (fun r => r.op.lid != lid) &&
  s.unitQ.all (fun u => match u.source with | .wave p => (s.wave p).lid != lid | _ => true) &&
  s.launchReqs.all (fun r => match r.source with | .wave p => (s.wave p).lid != lid | _ => true) &&
  (s.wavesOf lid).all (fun w => w.2.status == .running) && !s.rowsPending lid && !s.forcedPending lid &&
  (coresOf l).all (fun c => (s.core c).geodeQ.all (fun g => g.lid != lid)) &&
  (s.blocks.filter (fun b => b.lid == lid)).all (fun b => b.bays.all (fun y => (s.bay b.core y).queue.isEmpty))

/-- Every wave has reached its pre-emption point, and nothing is in flight. -/
def readyToStore (s : State) (lid : Nat) : Bool := (s.liveWaves lid).all (fun w => w.2.parked) && s.contextQuiet lid

/-- The context is stored as soon as it can be. -/
def tryStore (s : State) (lid : Nat) : State :=
  if s.readyToStore lid then s.storeContext lid
  else if (s.liveWaves lid).all (fun w => w.2.parked) then
    s.modLaunch lid (fun l => { l with saveSince := some (l.saveSince.getD s.clock) })
  else s

/-- A quarantine asks for the contexts on its core (R268, R302). -/
def onQuarantined (s : State) (l : Launch) : Bool := (coresOf l).any (fun c => (s.core c).quar)

end State

/-- The scheduler or a quarantine asks for a context to be saved. A request that arrives during a stall takes effect
when it ends, but for R278; under R278 a stall that comes after the request ends as well. -/
def execPreemptionRequest (lid : Nat) (s : State) : Host.Outcome State Fault Refusal :=
  let l := s.launch lid
  let ws := s.withdrawable l
  let s' := ws.foldl (fun s c => s.withdrawStall lid c) s
  let s' := if l.preempt.isSome then s' else s'.modLaunch lid (fun l => { l with preempt := some s.clock, bound := false, saveSince := none })
  when "PREEMPTION_REQUEST" (l.prog == .resident && (s.outranked l || s.onQuarantined l) &&
      (!ws.isEmpty || (l.preempt.isNone && (State.coresOf l).all (fun c => (s.core c).stall.isNone))))
    (s'.tryStore lid)

/-- PREB has passed since the request (R288). A context that has no wave left to save is stored here. -/
def execPreemptionBoundExpiry (lid : Nat) (s : State) : Host.Outcome State Fault Refusal :=
  let l := s.launch lid
  let due := match l.preempt with | some t => decide (1750 * l.hdr.preb ≤ (s.clock - t).toNat) | none => false
  when "PREEMPTION_BOUND_EXPIRY" (l.prog == .resident && due && (!l.bound || ((s.liveWaves lid).isEmpty && s.readyToStore lid)) &&
      (State.coresOf l).all (fun c => (s.core c).stall.isNone))
    ((s.modLaunch lid (fun l => { l with bound := true })).tryStore lid)

/-- A wave stands at a point where it may be saved: a PPT, a wait for a barrier, an earlier generation's at BAR and BARA among them, a
rendezvous, a tag or a stream, a debug halt, or any boundary after the bound, that after a NAP too (R123, R288, R290). -/
def atSavePoint (l : Launch) (w : Wave) : Bool :=
  let waits := match w.wait with
    | .barrier _ => true
    | .rendezvous => true
    | .none => w.reasons.getLsbD 5 || w.reasons.getLsbD 6 || l.bound
    | .nap _ => l.bound
    | _ => false
  w.ppt.isSome || waits || (w.debug && !w.stepReq)

/-- A wave reaches its pre-emption point; with the last of them, once nothing is in flight, the context is stored. -/
def execWaveSave (p : Nat) (s : State) : Host.Outcome State Fault Refusal :=
  let w := s.wave p
  let l := s.launch w.lid
  when "WAVE_SAVE" (l.prog == .resident && l.preempt.isSome && w.status == .running && !s.coreStalled (coreOf p) &&
      (if w.parked then s.readyToStore w.lid else atSavePoint l w && !s.completing p))
    ((s.setWave p { w with parked := true, active := false, stopClk := if w.parked then w.stopClk else s.clock }).tryStore w.lid)

/-- A halt of a whole context. A replay's halts the replay alone: it ends in a wave whose rows are pending, or in its first (R298). -/
def State.haltContext (s : State) (l : Launch) (cause : Nat) : State :=
  let c := (State.coresOf l).headD 0
  if l.replay = none then s.raiseHalt l.lid c (128 * c) cause 0 0 0 0
  else
    let ws := (s.liveWaves l.lid).map (·.1)
    match (ws.find? s.slotPending).or ws.head? with
    | some p => (s.modLaunch l.lid (fun l => { l with preempt := none, saveSince := none })).endEarly p
    | none => s

/-- The save engine has waited 2 ms for pending rows (R288). -/
def execSaveTimeout (lid : Nat) (s : State) : Host.Outcome State Fault Refusal :=
  let l := s.launch lid
  let late := match l.saveSince with | some t => decide (3500000 ≤ (s.clock - t).toNat) && s.rowsPending lid | none => false
  let stuck := (s.liveWaves lid).any (fun w => w.2.parked && s.slotPending w.1 && decide (3500000 ≤ (s.clock - w.2.stopClk).toNat))
  when "SAVE_TIMEOUT" (l.prog == .resident && l.preempt.isSome && (late || stuck)) (s.haltContext l 0x26)

/-! ### Restore (R59, R129, R132, R207, R268, R289, R291) -/

/-- Where a saved context goes: new cores by position, new slots, tags and descriptors by position and old number. -/
structure Moves where
  slots : List ((Nat × Nat) × Nat) := []
  pipes : List (Nat × Nat) := []
  tags : List ((Nat × Nat) × Nat) := []
  geodes : List ((Nat × Nat) × Nat) := []

namespace Moves

def find (l : List ((Nat × Nat) × Nat)) (pos n : Nat) : Option Nat := (l.find? (fun x => x.1 == (pos, n))).map (·.2)

end Moves

/-- Disjoint runs of given lengths, each the lowest that is left. -/
def runsIn : List Nat → List Nat → Option (List Nat)
  | _, [] => some []
  | free, n :: t =>
    match runIn free n with
    | none => none
    | some a => (runsIn (free.filter (fun i => decide (i < a) || decide (a + n ≤ i))) t).map (a :: ·)

/-- The claims of a block's common slots: the indices of each, ascending. -/
def claimsOf (b : Block) : List (List (Nat × Nat × Nat)) :=
  ((b.common.map (fun e => e.2.2)).dedup).map (fun c => b.common.filter (fun e => e.2.2 == c))

namespace State

/-- The position that a saved core had. -/
def posOf (sv : Saved) (l : Launch) (c : Nat) : Nat := (c / 8 - sv.y0) * l.hdr.rw + (c % 8 - sv.x0)
/-- The core at a position of a new rectangle. -/
def coreAt (l : Launch) (x0 y0 pos : Nat) : Nat := 8 * (y0 + pos / l.hdr.rw) + x0 + pos % l.hdr.rw

/-- Finds room for a saved block at its position and takes it: the block's record is put back, with its new units. -/
def placeSaved (l : Launch) (sv : Saved) (x0 y0 : Nat) (m : Moves) (s : State) (b : Block) : Option (Moves × State) :=
  let pos := posOf sv l b.core
  let c := coreAt l x0 y0 pos
  let ws := sv.waves.filter (fun w => w.2.blk == b.id)
  let claims := claimsOf b
  let free := s.freeSlots c
  let lens := claims.map (·.length)
  match s.roomOn c l.lid ws.length 0 b.tags.length b.geodes.length (b.bays.map (2 ^ ·)).sum true,
        (runsIn (free.drop ws.length) lens).or (if free.length < ws.length + lens.sum then none else runsIn free lens) with
  | some room, some starts =>
    let left := free.filter (fun i => !(starts.zip lens).any (fun x => decide (x.1 ≤ i) && decide (i < x.1 + x.2)))
    let room := { room with slots := left.zip (room.slots.map Prod.snd) }
    let waveMoves := (ws.zip room.slots).map (fun x => ((pos, slotOf x.1.1), x.2.1))
    let commonMoves := (claims.zip starts).flatMap (fun x => x.1.zipIdx.map (fun e => ((pos, e.1.2.1 - 1), x.2 + e.2)))
    let m' : Moves :=
      { slots := m.slots ++ waveMoves ++ commonMoves,
        pipes := m.pipes ++ (ws.zip room.slots).map (fun x => (128 * c + x.2.1, x.2.2)),
        tags := m.tags ++ (b.tags.zip room.tags).map (fun x => ((pos, x.1), x.2)),
        geodes := m.geodes ++ (b.geodes.zip room.geodes).map (fun x => ((pos, x.1), x.2)) }
    let common := b.common.map (fun e => (e.1, ((Moves.find commonMoves pos (e.2.1 - 1)).getD 0 + 1, e.2.2)))
    let b' := { b with core := c, common := common, tags := room.tags, geodes := room.geodes }
    let s : State := { s with blocks := s.blocks ++ [b'] }
    let s := (ws.zip room.slots).foldl (fun s x => s.setWave (128 * c + x.2.1) { x.1.2 with pipe := x.2.2, active := false }) s
    some (m', b.bays.foldl (fun s y => s.modBay c y (fun v => { v with holder := some b.id })) s)
  | _, _ => none

/-- Finds room for every saved block. -/
def placeAll (l : Launch) (sv : Saved) (x0 y0 : Nat) : List Block → Moves → State → Option (Moves × State)
  | [], m, s => some (m, s)
  | b :: t, m, s => match placeSaved l sv x0 y0 m s b with
    | none => none
    | some (m, s) => placeAll l sv x0 y0 t m s

/-- The party that a saved party becomes; one that is gone becomes none of the parties (R59). -/
def moveParty (l : Launch) (sv : Saved) (x0 y0 : Nat) (m : Moves) (p : Nat) : Nat :=
  if sv.waves.any (fun w => w.1 == p) then
    let pos := posOf sv l (coreOf p)
    128 * coreAt l x0 y0 pos + (Moves.find m.slots pos (slotOf p)).getD 127
  else 8191

/-- A core-local row of a saved slot in its new slot. -/
def moveRow (m : Moves) (pos r : Nat) : Nat :=
  match Moves.find m.slots pos (r / 768) with
  | some t => if r < 98304 then 768 * t + r % 768 else r
  | none => r

/-- The party of this launch in a row's metadata is rewritten, also where the row's adit is gone (R59). -/
def moveMeta (s : State) (l : Launch) (sv : Saved) (x0 y0 : Nat) (m : Moves) (i : RowMeta) : RowMeta :=
  let p := i.pty.toNat
  if (s.wave p).status ≠ .absent ∧ (s.wave p).lid ≠ l.lid ∧ !sv.waves.any (fun w => w.1 == p) then i
  else { i with pty := BitVec.ofNat 13 (moveParty l sv x0 y0 m p) }

/-- Puts stored rows back. -/
def putSaved (s : State) (l : Launch) (sv : Saved) (x0 y0 : Nat) (m : Moves) (r : SavedRows) : State :=
  let base := rowKey (coreAt l x0 y0 r.pos) (moveRow m r.pos r.row)
  let s := r.elems.foldl (fun s e => { s with elems := s.elems.set 0 (32 * base + e.1) e.2 }) s
  let s := r.bad.foldl (fun s e => { s with bad := s.bad.set false (32 * base + e.1) e.2 }) s
  r.info.foldl (fun s e => s.setMeta (base + e.1) (s.moveMeta l sv x0 y0 m e.2)) s

/-- A wave as it resumes. -/
def moveWave (s : State) (l : Launch) (sv : Saved) (x0 y0 : Nat) (m : Moves) (w : Wave) (pos pipe : Nat) (active : Bool) : Wave :=
  { w with
    pipe := pipe, active := active, parked := false, ppt := none, displaced := false, readySince := s.clock, issues := [],
    reasons := (match w.wait with | .barrier _ => 0x40 | .rendezvous => 0x80 | _ => if w.debug then 0x100 else 0),
    missed := [], flagWaitSince := none, gathering := none,
    adits := w.adits.mapVal {} (fun _ e => { e with first := moveRow m pos e.first }),
    handles := w.handles.mapVal {} (fun _ h => if h.state = .detached then h else
      { h with exporter := moveParty l sv x0 y0 m h.exporter, first := moveRow m (posOf sv l (coreOf h.exporter)) h.first }) }

/-- A Ready latch is latched again from the restored ceiling (R207). -/
def relatch (s : State) (c b : Nat) (l : Latch) : Latch :=
  if l.state ≠ .ready then l
  else
    let rows : Nat → List Nat := fun col =>
      (List.range (if l.fmt = .b16 then 2 else 1)).map (fun u => ceilRow c (32768 * b + 256 * col + l.tile + u))
    { l with
      cols := (List.range 128).foldl (fun m col => m.set [] col ((rows col).flatMap s.rowWords)) [],
      poison := (List.range 128).foldl (fun m col =>
        let bad := (rows col).flatMap s.rowPoison
        m.set [] col (if bad.any id then bad else [])) [] }

/-- A bay as it resumes: cold, its latches read again; a replay's tiles come from its log and stay (R206, R207). -/
def moveBay (s : State) (l : Launch) (c b : Nat) (y : Bay) : Bay :=
  { y with ramp := .cold, rampEnd := 0, rampStart := 0, hintEnd := 0, lastStream := 0, streaming := false,
           latches := if l.replay.isSome then y.latches else y.latches.mapVal {} (fun _ x => s.relatch c b x) }

/-- A core takes back what a context held there: locked lines in their order while capacity lasts, records, tasks. -/
def refill (s : State) (l : Launch) (sv : Saved) (x0 y0 pos : Nat) : State :=
  let these {α : Type} (xs : List (Nat × α)) : List α := (xs.filter (fun x => x.1 == pos)).map (·.2)
  s.modCore (coreAt l x0 y0 pos) (fun k => { k with
    routes := k.routes ++ [l.lid],
    lanes := (these sv.lanes).foldl (fun m r => m.set {} l.lid r) k.lanes,
    locks := (these sv.locks).foldl (fun ls x => if ls.length < 128 then ls ++ [(l.lid, x)] else ls) k.locks,
    tasks := k.tasks ++ (these sv.tasks) })

/-- The original blocks that resume on another core lose their audits (R301); a tile must be logged afresh (R206). -/
def movedJobs (s : State) (l : Launch) (sv : Saved) (x0 y0 : Nat) : State :=
  sv.blocks.foldl (fun s b =>
    let c := coreAt l x0 y0 (posOf sv l b.core)
    match b.run with
    | .original =>
      let s := if b.logging && c != b.core then s.abandon b.job 5 else s
      if b.selected then s.modJob b.job (fun j => { j with tiles := [] }) else s
    | .third j => s.modJob j (fun j => { j with cthr := c })
    | .replay j => s.modJob j (fun j => { j with crep := c })
    | .capture j => s.modJob j (fun j => { j with crep := c })) s

/-- Puts a saved context back where its blocks have been placed. -/
def restoreRest (l : Launch) (sv : Saved) (x0 y0 : Nat) (m : Moves) (s : State) : State :=
  let s := m.slots.foldl (fun s x => s.zeroRows (rowKey (coreAt l x0 y0 x.1.1) (768 * x.2)) 768) s
  let s := sv.blocks.foldl (fun s b => b.bays.foldl (fun s y =>
    s.zeroRows (bayRow (coreAt l x0 y0 (posOf sv l b.core)) y 0) 256) s) s
  let s := sv.rows.foldl (fun s r => s.putSaved l sv x0 y0 m r) s
  let s := sv.waves.foldl (fun s w =>
    let p := moveParty l sv x0 y0 m w.1
    let pipe := (s.wave p).pipe
    let active := decide (s.activeCount (coreOf p) pipe < 8)
    s.setWave p (s.moveWave l sv x0 y0 m w.2 (posOf sv l (coreOf w.1)) pipe active)) s
  let s := sv.bays.foldl (fun s y => s.modBay (coreAt l x0 y0 y.1) y.2.1 (fun _ => s.moveBay l (coreAt l x0 y0 y.1) y.2.1 y.2.2)) s
  let s := sv.geodes.foldl (fun s g => s.modGeode (coreAt l x0 y0 g.1) ((Moves.find m.geodes g.1 g.2.1).getD 8)
    (fun _ => { g.2.2 with party := moveParty l sv x0 y0 m g.2.2.party })) s
  let s := sv.tags.foldl (fun s t => s.setTag (coreAt l x0 y0 t.1) ((Moves.find m.tags t.1 t.2.1).getD 64) t.2.2) s
  let s := sv.blocks.foldl (fun s b => s.modBlock b.id (fun b => { b with
    parties := (b.parties.filter (fun e => sv.waves.any (fun w => w.1 == e.2 && w.2.blk == b.id))).map
      (fun e => (e.1, moveParty l sv x0 y0 m e.2)),
    rends := b.rends.map (fun r => { r with
      since := s.clock,
      members := r.members.map (fun x => (x.1, { x.2 with party := moveParty l sv x0 y0 m x.2.party })) }) })) s
  let s := (List.range (l.hdr.rw * l.hdr.rh)).foldl (fun s i => s.refill l sv x0 y0 i) s
  let s := s.movedJobs l sv x0 y0
  let s : State := { s with saved := s.saved.filter (fun x => x.lid != l.lid) }
  s.modLaunch l.lid (fun l => { l with prog := .resident, x0 := x0, y0 := y0, preempt := none, bound := false, saveSince := none,
                                       resumed := s.clock, credit := 0 })

/-- Restores a saved context on a rectangle, if every block has room at its position and no forced write is due to the ceilings (R60). -/
def restoreAt (s : State) (l : Launch) (sv : Saved) (x0 y0 : Nat) : Option State :=
  let cores := rectCores x0 y0 l.hdr.rw l.hdr.rh
  if cores.any (fun c => s.ceilForced c l.hdr.ceil) then none
  else (placeAll l sv x0 y0 sv.blocks {} (cores.foldl (fun s c => s.takeGrants l.lid c l.hdr.ceil) s)).map (fun r =>
    restoreRest l sv x0 y0 r.1 r.2)

/-- Cores that a replay may not use: the original's, and for a third run the replay's (R297, R299). -/
def barredFor (s : State) (l : Launch) : List Nat :=
  match l.replay.bind s.job? with
  | some j => if l.capture then [] else if s.blocks.any (fun b => b.lid == l.lid && b.run == .third j.id) ||
      s.saved.any (fun v => v.lid == l.lid && v.blocks.any (fun b => b.run == .third j.id)) then [j.corg, j.crep] else [j.corg]
  | none => []

/-- The rectangles in the order in which a restore tries them: the lowest first; for a replay first those of another die than its
original's (R289, R297). -/
def restoreOrder (s : State) (l : Launch) : List (Nat × Nat) :=
  let cs := corners l.hdr.rw l.hdr.rh
  match l.replay.bind s.job? with
  | some j =>
    let far : Nat × Nat → Bool := fun p => l.capture || dieOf (8 * p.2 + p.1) != dieOf j.corg
    cs.filter far ++ cs.filter (fun p => !far p)
  | none => cs

/-- The restore that a saved context would get. -/
def restored (s : State) (l : Launch) (sv : Saved) : Option State :=
  (s.restoreOrder l).findSome? (fun p =>
    if s.rectOk l p.1 p.2 && (rectCores p.1 p.2 l.hdr.rw l.hdr.rh).all (fun c => !(s.barredFor l).contains c) then s.restoreAt l sv p.1 p.2
    else none)

/-! ### Time slices (R267) -/

/-- Layout of the block at 0x2_0000 (assumption 20): the slice of a class in microseconds, 0 for none. -/
def sliceOf (s : State) (cls : Nat) : Nat := 1750 * s.cw (0x20010 + 4 * cls) 4

/-- A launch of a class waits for a rectangle. -/
def classWaits (s : State) (cls : Nat) : Bool :=
  s.waitingHeads.contains cls || s.launches.any (fun l => l.prog == .saved && l.cls == cls)

/-- The resident launch of a class whose slice is over. -/
def sliceOver (s : State) (cls : Nat) : Option Launch :=
  s.launches.find? (fun l => l.prog == .resident && l.cls == cls && l.preempt.isNone &&
    decide (s.sliceOf cls + l.credit.toNat ≤ (s.clock - l.resumed).toNat))

end State

/-! ### Images of another package (R2, R289, assumption 133) -/

/-- A wave of an image under this package's numbers: its launch, the model's own numbers raised by `n`, and a NAP's end counted from this
package's clock. -/
def Wave.rebase (n lid : Nat) (clock : DWord) (w : Wave) : Wave :=
  { w with
    wait := (match w.wait with
      | .nap t => .nap (clock + if w.stopClk.toNat < t.toNat then t - w.stopClk else 0)
      | x => x),
    lid := lid, blk := w.blk + n, opens := w.opens.map (fun o => { o with op := o.op + n }),
    fences := w.fences.map (fun f => { f with ids := f.ids.map (· + n) }), awaits := w.awaits.map (·.map (· + n)) }

/-- A block of an image: no audit of this package is its (assumption 133). -/
def Block.rebase (n lid : Nat) (b : Block) : Block :=
  { b with
    id := b.id + n, lid := lid, run := .original, selected := false, logging := false, job := 0,
    common := b.common.map (fun e => (e.1, (e.2.1, e.2.2 + n))),
    arrivals := b.arrivals.map (fun a => (a.1, a.2.map (fun x => { x with ids := x.ids.map (· + n) }))),
    rends := b.rends.map (fun r => { r with n := r.n + n }) }

/-- The model's own numbers that an image holds. -/
def Saved.numbers (v : Saved) : List Nat :=
  v.blocks.flatMap (fun b => b.id :: b.common.map (·.2.2) ++ b.rends.map (·.n) ++ b.arrivals.flatMap (fun a => (a.2.map (·.ids)).getD [])) ++
  v.waves.flatMap (fun w => w.2.opens.map (·.op) ++ w.2.fences.flatMap (·.ids) ++ w.2.awaits.getD [])

/-- An image under this package's numbers, its times counted from this package's clock; a row's party that none of its waves is becomes none of
the parties. -/
def Saved.rebase (v : Saved) (n lid : Nat) (clock : DWord) : Saved :=
  let queue : List QEntry → List QEntry := fun q => q.map (fun e => { e with since := clock })
  let here : RowMeta → RowMeta := fun i => if v.waves.any (fun w => w.1 == i.pty.toNat) then i else { i with pty := 8191 }
  { v with
    lid := lid,
    launch := { v.launch with
      lid := lid, prog := .saved, replay := none, capture := false,
      binds := v.launch.binds.map (fun b => (b.1, { b.2 with onTime := queue b.2.onTime, late := queue b.2.late })) },
    waves := v.waves.map (fun w => (w.1, w.2.rebase n lid clock)),
    blocks := v.blocks.map (·.rebase n lid),
    rows := v.rows.map (fun r => { r with info := r.info.map (fun e => (e.1, here e.2)) }),
    bays := v.bays.map (fun y => (y.1, y.2.1, { y.2.2 with holder := y.2.2.holder.map (· + n) })),
    tasks := v.tasks.map (fun t => (t.1, { t.2 with lid := lid, since := clock })) }

/-- An image that another package has stored brings its launch, which keeps its number where no launch of this package has it, and then waits
for its restore. Its EVB, translation context and IMG are those of its header, which name this package's events, tables and images; it brings no
event entries, and no overlap is looked for: the model's choice (R2, assumption 142). An image of an audit's run, whose log is in the other
package, is not taken (assumption 143). -/
def State.receiveImage (s : State) (v : Saved) : State :=
  if v.launch.replay.isSome then s else
  let lid := if decide (v.lid < 2 ^ 32) && (s.launch? v.lid).isNone then v.lid else s.nextLid
  let v' := v.rebase s.nextId lid s.clock
  { s with
    nextId := s.nextId + v.numbers.foldl max 0 + 1, nextLid := max s.nextLid (lid + 1),
    launches := s.launches ++ [v'.launch], saved := s.saved ++ [v'] }

/-- A restored wave whose image carries a reserved mode halts its context, and its md
is the one a wave starts with (R87, assumption 132). -/
def State.checkModes (s : State) (lid : Nat) : State :=
  (s.liveWaves lid).foldl (fun s w => if mdLegal w.2.md then s else (s.modWave w.1 (fun v => { v with md := 2 })).halt w.1 0x12 0) s

/-- A saved context is restored, unless a launch of a higher class waits for a rectangle. -/
def execContextRestore (lid : Nat) (s : State) : Host.Outcome State Fault Refusal :=
  let l := s.launch lid
  match s.saved.find? (fun x => x.lid == lid) with
  | none => .refused (.notEnabled "CONTEXT_RESTORE")
  | some sv =>
    match s.restored l sv with
    | none => .refused (.notEnabled "CONTEXT_RESTORE")
    | some s' => when "CONTEXT_RESTORE" (l.prog == .saved && !s.outranked l) (s'.checkModes lid)

/-- A class's slice is over while a launch of the class waits. -/
def execTimeSliceExpiry (cls : Nat) (s : State) : Host.Outcome State Fault Refusal :=
  match s.sliceOver cls with
  | none => .refused (.notEnabled "TIME_SLICE_EXPIRY")
  | some l =>
    let s' := s.modLaunch l.lid (fun l => { l with preempt := some s.clock, bound := false, saveSince := none })
    when "TIME_SLICE_EXPIRY" (s.sliceOf cls != 0 && s.classWaits cls && (State.coresOf l).all (fun c => (s.core c).stall.isNone))
      (s'.tryStore l.lid)

end Sys2Proof.Machine
end

