-- ==== Sys2Proof/Machine/Special.lean ====
section
/-! DEFINITION. The special functions as returning operations (R150 to R152): exact values to many bits, then one
rounding (assumption 14). -/

namespace Sys2Proof.Machine

/-! ### Fixed-point series -/

/-- 2π with 560 bits after the point. -/
def twoPi : Nat := 23712505257486553337419160287619677012865307661998516886365346343790146288092648741663626328090446485039816851214717153143740030401826399876471898645152327665536516428531
/-- The natural logarithm of 2 with 200 bits after the point. -/
def ln2 : Nat := 1113844574712631719546256151097547306333272293549090750737802

/-- Terms of the exponential series: `term` is t^k/k!, all with `bits` bits after the point. -/
def expGo (bits t : Nat) : Nat → Nat → Nat → Nat
  | 0, _, _ => 0
  | fuel + 1, k, term => term + expGo bits t fuel (k + 1) (term * t / 2 ^ bits / (k + 1))

/-- 2^f for a fraction f of 200 bits. -/
def exp2Fix (f : Nat) : Nat := expGo 200 (f * ln2 / 2 ^ 200) 60 0 (2 ^ 200)

/-- Binary digits of log2 y for 1 ≤ y < 2, y with 400 bits after the point. -/
def log2Go : Nat → Nat → Nat → Nat
  | 0, _, acc => acc
  | fuel + 1, y, acc =>
    let z := y * y / 2 ^ 400
    if 2 ^ 401 ≤ z then log2Go fuel (z / 2) (2 * acc + 1) else log2Go fuel z (2 * acc)

/-- The alternating series of sine and cosine from a first term: the terms fall by t²/((k+1)(k+2)). -/
def trigGo (bits t2 : Nat) : Nat → Nat → Nat → Int
  | 0, _, _ => 0
  | fuel + 1, k, term => (term : Int) - trigGo bits t2 fuel (k + 2) (term * t2 / 2 ^ bits / ((k + 1) * (k + 2)))

/-- sin(2π·r) and cos(2π·r) for 0 ≤ r ≤ 1/8, r = m · 2^-b; both with `bits` bits after the point. -/
def sinFix (bits m b : Nat) : Nat :=
  let t := m * twoPi * 2 ^ bits / 2 ^ (560 + b)
  (trigGo bits (t * t / 2 ^ bits) 60 1 t).toNat
def cosFix (bits m b : Nat) : Nat :=
  let t := m * twoPi * 2 ^ bits / 2 ^ (560 + b)
  (trigGo bits (t * t / 2 ^ bits) 60 0 (2 ^ bits)).toNat

/-! ### The functions on one element (R150, R151) -/

def rcpElem (f : Fmt) (md : Mode) (v : FVal) : Nat × BitVec 6 := f.div md (.fin false 1 0) v

def rsqElem (f : Fmt) (md : Mode) (v : FVal) : Nat × BitVec 6 :=
  match v with
  | .nan g => (f.nan, if g then fIV else 0)
  | .inf n => if n then f.invalid else (f.zero false, 0)
  | .fin n m e =>
    if m = 0 then (f.inf n, fDZ)
    else if n then f.invalid
    else
      let sh : Nat := 200 + (if (e + 200) % 2 = 0 then 0 else 1)
      let r := isqrt (2 ^ sh / m)
      f.round md false r (-((e + sh) / 2)) (r * r * m != 2 ^ sh)

/-- 2^x; the value is exact for an integer x (R151). -/
def ex2Elem (f : Fmt) (md : Mode) (v : FVal) : Nat × BitVec 6 :=
  match v with
  | .nan g => (f.nan, if g then fIV else 0)
  | .inf n => (if n then f.zero false else f.inf false, 0)
  | .fin n m e =>
    if m = 0 then f.round md false 1 0 false
    else if 12 < (Nat.log2 m : Int) + e then f.round md false 1 (if n then -5000 else 5000) true
    else
      -- floor and fraction of ± m · 2^e, the fraction to 200 bits
      let d := 2 ^ (-e).toNat
      let x : Int := if 0 ≤ e then (if n then -1 else 1) * (m * 2 ^ e.toNat : Nat) else (if n then -(m : Int) else m) / (d : Nat)
      let fr : Nat := if 0 ≤ e then 0 else ((if n then -(m : Int) else m) % (d : Nat)).toNat
      if fr = 0 then f.round md false 1 x false
      else f.round md false (exp2Fix (fr * 2 ^ 200 / d)) (x - 200) true

/-- log2 x; exact at powers of two (R151). -/
def lg2Elem (f : Fmt) (md : Mode) (v : FVal) : Nat × BitVec 6 :=
  match v with
  | .nan g => (f.nan, if g then fIV else 0)
  | .inf n => if n then f.invalid else (f.inf false, 0)
  | .fin n m e =>
    if m = 0 then (f.inf true, fDZ)
    else if n then f.invalid
    else
      let k := Nat.log2 m
      let x : Int := k + e
      if m = 2 ^ k then f.ofVal md (ofInt x)
      else
        let y : Int := x * (2 ^ 160 : Nat) + log2Go 160 (m * 2 ^ 400 / 2 ^ k) 0
        -- a negative logarithm is rounded from its magnitude, whose excess lies below the digits found
        if 0 ≤ y then f.round md false y.toNat (-160) true
        else f.round md true (-y - 1).toNat (-160) true

/-- sin(2πx) and cos(2πx) from the quadrant and the place in it; exact at quarters (R151). -/
def trigElem (cosine : Bool) (f : Fmt) (md : Mode) (v : FVal) : Nat × BitVec 6 :=
  match v with
  | .nan g => (f.nan, if g then fIV else 0)
  | .inf _ => f.invalid
  | .fin n m e =>
    let z := f.zero (if cosine then false else n)
    let one : Bool → Nat × BitVec 6 := fun neg => f.round md neg 1 0 false
    if m = 0 then (if cosine then one false else (z, 0))
    else if 0 ≤ e then (if cosine then one false else (z, 0))
    else
      let b := (-e).toNat + 2
      -- |x| in quarters: q of them and m' · 2^-b beyond, of which a quarter is 2^(b-2)
      let x := m * 4 % 2 ^ b
      let quarter := 2 ^ (b - 2)
      let q0 := x / quarter
      let r := x % quarter
      let q := if cosine then (q0 + 1) % 4 else q0
      -- the value is sin of quarter q plus r, times the sign of x for the sine
      let neg := (decide (2 ≤ q)) != (n && !cosine)
      if r = 0 then
        (if q % 2 = 0 then (z, 0) else one neg)
      else
        let small := decide (8 * r ≤ 2 ^ b)
        let m' := if small then r else quarter - r
        let bits := 160 + 2 * (b - Nat.log2 m')
        let useSin := (q % 2 == 0) == small
        let y := if useSin then sinFix bits m' b else cosFix bits m' b
        f.round md neg (if useSin then y else y - 1) (-(bits : Int)) true

/-! ### The forms (R67, R152) -/

/-- The types that the special functions accept (R135). -/
def specialType (t : EType) : Bool :=
  match t with
  | .f32 => true | .f16x2 => true | .b16x2 => true
  | _ => false

/-- One lane under its type: each element in its own format. -/
def specialLane (g : Fmt → Mode → FVal → Nat × BitVec 6) (md : Mode) (t : EType) (x : Word) : Word × BitVec 6 :=
  mapParts t (fun j =>
    match kindOf t with
    | .flt f => g f md (f.operand md (part t x j))
    | .int _ => (0, 0))

/-- A special function: reads its source at issue and writes its destination when it completes (R152). That a type fault comes before
an open register is the model's choice (assumption 11). -/
def State.specialForm (s : State) (p d a : Nat) (g : Fmt → Mode → FVal → Nat × BitVec 6) : State :=
  let w := s.wave p
  let t := typeOf w.md
  let m := w.activeMask
  if !specialType t then s.halt p 0x13 t.code
  else s.opened p [a, d] [] fun s =>
    s.unlessHeld p (s.roomReason p ||| reason 3 ((destRows p (.vec d false)).any (s.rowBlocked p))) fun s =>
    s.access p [(a, m)] [(d, m)] [] fun s =>
      let r := fun l => specialLane g (modeOf w.md) t (s.vget p a l)
      s.issueOp p 1
        { id := 0, kind := .special, party := p, lid := w.lid, dst := .vec d false, active := m, enables := w.enables,
          lanes := (lanesOf m).map (fun l =>
            { lane := l, done := true, value := (r l).1.setWidth 64, poison := s.poisoned (velem p a l) }),
          conds := (lanesOf m).foldl (fun c l => c.set 0 l (r l).2) [] }

def execVrcp (d a : Nat) (s : State) : Host.Outcome State Fault Refusal := onWave s fun p => s.specialForm p d a rcpElem
def execVrsq (d a : Nat) (s : State) : Host.Outcome State Fault Refusal := onWave s fun p => s.specialForm p d a rsqElem
def execVsqrt (d a : Nat) (s : State) : Host.Outcome State Fault Refusal := onWave s fun p => s.specialForm p d a Fmt.sqrt
def execVex2 (d a : Nat) (s : State) : Host.Outcome State Fault Refusal := onWave s fun p => s.specialForm p d a ex2Elem
def execVlg2 (d a : Nat) (s : State) : Host.Outcome State Fault Refusal := onWave s fun p => s.specialForm p d a lg2Elem
def execVsin (d a : Nat) (s : State) : Host.Outcome State Fault Refusal := onWave s fun p => s.specialForm p d a (trigElem false)
def execVcos (d a : Nat) (s : State) : Host.Outcome State Fault Refusal := onWave s fun p => s.specialForm p d a (trigElem true)

end Sys2Proof.Machine
end

