-- ==== Sys2Proof/Machine/Dispatch.lean ====
section
/-! DEFINITION. One arm for each constructor of Instr: the word instructions act on the wave at the turn, the other steps
of the opcode table on the package. -/

namespace Sys2Proof.Machine

/-- The meaning of an instruction or of a step without a word. -/
def exec (i : Instr) (s : State) : Host.Outcome State Fault Refusal :=
  match i with
  | .nop => Sys2Proof.Machine.execNop s
  | .ifOpen a cc => Sys2Proof.Machine.execIf a cc s
  | .elseFlip => Sys2Proof.Machine.execElse s
  | .endIf => Sys2Proof.Machine.execEndif s
  | .ifm a inv => Sys2Proof.Machine.execIfm a inv s
  | .loop k a disp => Sys2Proof.Machine.execLoop k a disp s
  | .endl k disp => Sys2Proof.Machine.execEndl k disp s
  | .brk n => Sys2Proof.Machine.execBrk n s
  | .cont n => Sys2Proof.Machine.execCont n s
  | .lbeg => Sys2Proof.Machine.execLbeg s
  | .lend _ disp => Sys2Proof.Machine.execLend disp s
  | .bra _ disp => Sys2Proof.Machine.execBra disp s
  | .brc cond a disp => Sys2Proof.Machine.execBrc cond a disp s
  | .brx p => Sys2Proof.Machine.execBrx p s
  | .call link disp => Sys2Proof.Machine.execCall link disp s
  | .callx link p => Sys2Proof.Machine.execCallx link p s
  | .ret p => Sys2Proof.Machine.execRet p s
  | .exit => Sys2Proof.Machine.execExit s
  | .trap imm => Sys2Proof.Machine.execTrap imm s
  | .rte => Sys2Proof.Machine.execRte s
  | .bkpt imm => Sys2Proof.Machine.execBkpt imm s
  | .ppt n => Sys2Proof.Machine.execPpt n s
  | .mode imm => Sys2Proof.Machine.execMode imm s
  | .modes a => Sys2Proof.Machine.execModes a s
  | .rdsr d sr => Sys2Proof.Machine.execRdsr d sr s
  | .wrsr sr a => Sys2Proof.Machine.execWrsr sr a s
  | .nsav d => Sys2Proof.Machine.execNsav d s
  | .nrst a => Sys2Proof.Machine.execNrst a s
  | .bar d mask => Sys2Proof.Machine.execBar d mask s
  | .bara mask => Sys2Proof.Machine.execBara mask s
  | .barw d => Sys2Proof.Machine.execBarw d s
  | .evpub => Sys2Proof.Machine.execEvpub s
  | .launch sb => Sys2Proof.Machine.execLaunch sb s
  | .task sb r => Sys2Proof.Machine.execTask sb r s
  | .yield => Sys2Proof.Machine.execYield s
  | .nap n => Sys2Proof.Machine.execNap n s
  | .ilock sb => Sys2Proof.Machine.execIlock sb s
  | .iunlk sb => Sys2Proof.Machine.execIunlk sb s
  | .waitf mask => Sys2Proof.Machine.execWaitf mask s
  | .adrd d sel => Sys2Proof.Machine.execAdrd d sel s
  | .admix a tag => Sys2Proof.Machine.execAdmix a tag s
  | .sadd d a b => Sys2Proof.Machine.execSadd d a b s
  | .ssub d a b => Sys2Proof.Machine.execSsub d a b s
  | .smul d a b => Sys2Proof.Machine.execSmul d a b s
  | .smulh d a b => Sys2Proof.Machine.execSmulh d a b s
  | .sand d a b => Sys2Proof.Machine.execSand d a b s
  | .sor d a b => Sys2Proof.Machine.execSor d a b s
  | .sxor d a b => Sys2Proof.Machine.execSxor d a b s
  | .snot d a => Sys2Proof.Machine.execSnot d a s
  | .sshl d a b => Sys2Proof.Machine.execSshl d a b s
  | .sshr d a b => Sys2Proof.Machine.execSshr d a b s
  | .ssra d a b => Sys2Proof.Machine.execSsra d a b s
  | .smin d a b => Sys2Proof.Machine.execSmin d a b s
  | .smax d a b => Sys2Proof.Machine.execSmax d a b s
  | .scmp d a b cond => Sys2Proof.Machine.execScmp d a b cond s
  | .ssel d a b c => Sys2Proof.Machine.execSsel d a b c s
  | .smov d a => Sys2Proof.Machine.execSmov d a s
  | .sli d imm => Sys2Proof.Machine.execSli d imm s
  | .shi d imm => Sys2Proof.Machine.execShi d imm s
  | .saddi d imm => Sys2Proof.Machine.execSaddi d imm s
  | .sbfe d a sx len pos => Sys2Proof.Machine.execSbfe d a sx len pos s
  | .spopc d a => Sys2Proof.Machine.execSpopc d a s
  | .sclz d a => Sys2Proof.Machine.execSclz d a s
  | .vadd d a b => Sys2Proof.Machine.execVadd d a b s
  | .vsub d a b => Sys2Proof.Machine.execVsub d a b s
  | .vmul d a b => Sys2Proof.Machine.execVmul d a b s
  | .vmulh d a b => Sys2Proof.Machine.execVmulh d a b s
  | .vfma d a b c => Sys2Proof.Machine.execVfma d a b c s
  | .vmin d a b => Sys2Proof.Machine.execVmin d a b s
  | .vmax d a b => Sys2Proof.Machine.execVmax d a b s
  | .vabs d a => Sys2Proof.Machine.execVabs d a s
  | .vneg d a => Sys2Proof.Machine.execVneg d a s
  | .vand d a b => Sys2Proof.Machine.execVand d a b s
  | .vor d a b => Sys2Proof.Machine.execVor d a b s
  | .vxor d a b => Sys2Proof.Machine.execVxor d a b s
  | .vnot d a => Sys2Proof.Machine.execVnot d a s
  | .vshl d a b => Sys2Proof.Machine.execVshl d a b s
  | .vshr d a b => Sys2Proof.Machine.execVshr d a b s
  | .vsra d a b => Sys2Proof.Machine.execVsra d a b s
  | .vcmp d a b cond => Sys2Proof.Machine.execVcmp d a b cond s
  | .vsel d a b c => Sys2Proof.Machine.execVsel d a b c s
  | .vmov d a => Sys2Proof.Machine.execVmov d a s
  | .vli d imm => Sys2Proof.Machine.execVli d imm s
  | .vbcs d a => Sys2Proof.Machine.execVbcs d a s
  | .vcvt d a tgt src part => Sys2Proof.Machine.execVcvt d a tgt src part s
  | .vscl d a b => Sys2Proof.Machine.execVscl d a b s
  | .vbfe d a sx len pos => Sys2Proof.Machine.execVbfe d a sx len pos s
  | .vbfi d a b len pos => Sys2Proof.Machine.execVbfi d a b len pos s
  | .vpopc d a => Sys2Proof.Machine.execVpopc d a s
  | .vclz d a => Sys2Proof.Machine.execVclz d a s
  | .vdot d a b => Sys2Proof.Machine.execVdot d a b s
  | .vdota d a b => Sys2Proof.Machine.execVdota d a b s
  | .vrcp d a => Sys2Proof.Machine.execVrcp d a s
  | .vrsq d a => Sys2Proof.Machine.execVrsq d a s
  | .vsqrt d a => Sys2Proof.Machine.execVsqrt d a s
  | .vex2 d a => Sys2Proof.Machine.execVex2 d a s
  | .vlg2 d a => Sys2Proof.Machine.execVlg2 d a s
  | .vsin d a => Sys2Proof.Machine.execVsin d a s
  | .vcos d a => Sys2Proof.Machine.execVcos d a s
  | .vlid d a b => Sys2Proof.Machine.execVlid d a b s
  | .vshf d a b pat k => Sys2Proof.Machine.execVshf d a b pat k s
  | .vshop d a b op pat k => Sys2Proof.Machine.execVshop d a b op pat k s
  | .vsegop d a b op total => Sys2Proof.Machine.execVsegop d a b op total s
  | .vbal d a cc => Sys2Proof.Machine.execVbal d a cc s
  | .vany d a cc => Sys2Proof.Machine.execVany d a cc s
  | .vall d a cc => Sys2Proof.Machine.execVall d a cc s
  | .vmatch d a => Sys2Proof.Machine.execVmatch d a s
  | .vffs d a cc => Sys2Proof.Machine.execVffs d a cc s
  | .xget d o sp => Sys2Proof.Machine.execXget d o sp s
  | .xput v o sp => Sys2Proof.Machine.execXput v o sp s
  | .xgetw d a sp => Sys2Proof.Machine.execXgetw d a sp s
  | .xputw v a sp => Sys2Proof.Machine.execXputw v a sp s
  | .xatm d o c sp op => Sys2Proof.Machine.execXatm d o c sp op s
  | .xexp sb entry aud xch cmn => Sys2Proof.Machine.execXexp sb entry aud xch cmn s
  | .xrev d entry => Sys2Proof.Machine.execXrev d entry s
  | .xatt sb h adr => Sys2Proof.Machine.execXatt sb h adr s
  | .xdet h => Sys2Proof.Machine.execXdet h s
  | .xalloc d a => Sys2Proof.Machine.execXalloc d a s
  | .xfree d a b => Sys2Proof.Machine.execXfree d a b s
  | .xprb d own n => Sys2Proof.Machine.execXprb d own n s
  | .vldb d o p imm => Sys2Proof.Machine.execVldb d o p imm s
  | .vldh d o p imm => Sys2Proof.Machine.execVldh d o p imm s
  | .vldw d o p imm => Sys2Proof.Machine.execVldw d o p imm s
  | .vldd d o p imm => Sys2Proof.Machine.execVldd d o p imm s
  | .vstb v o p imm => Sys2Proof.Machine.execVstb v o p imm s
  | .vsth v o p imm => Sys2Proof.Machine.execVsth v o p imm s
  | .vstw v o p imm => Sys2Proof.Machine.execVstw v o p imm s
  | .vstd v o p imm => Sys2Proof.Machine.execVstd v o p imm s
  | .sldw d o p imm => Sys2Proof.Machine.execSldw d o p imm s
  | .sldd d o p imm => Sys2Proof.Machine.execSldd d o p imm s
  | .sstw v o p imm => Sys2Proof.Machine.execSstw v o p imm s
  | .sstd v o p imm => Sys2Proof.Machine.execSstd v o p imm s
  | .vamo d o p imm op c _ w64 => Sys2Proof.Machine.execVamo d o p imm op c w64 s
  | .vamoc d o p imm c _ w64 => Sys2Proof.Machine.execVamoc d o p imm c w64 s
  | .fence pred succ _ => Sys2Proof.Machine.execFence pred succ s
  | .cpin sb tag sp => Sys2Proof.Machine.execCpin sb tag sp s
  | .cpout sb tag sp => Sys2Proof.Machine.execCpout sb tag sp s
  | .cprr sb tag common => Sys2Proof.Machine.execCprr sb tag common s
  | .gath sb tag adit sz vi => Sys2Proof.Machine.execGath sb tag adit sz vi s
  | .scat sb tag adit sz vi => Sys2Proof.Machine.execScat sb tag adit sz vi s
  | .twall a => Sys2Proof.Machine.execTwall a s
  | .twany d a => Sys2Proof.Machine.execTwany d a s
  | .tffr d a => Sys2Proof.Machine.execTffr d a s
  | .tclr a => Sys2Proof.Machine.execTclr a s
  | .tstat d sel => Sys2Proof.Machine.execTstat d sel s
  | .gang d a => Sys2Proof.Machine.execGang d a s
  | .mwl bay lat a fmt => Sys2Proof.Machine.execMwl bay lat a fmt s
  | .mma f count lat => Sys2Proof.Machine.execMma f count lat s
  | .mdrn sb bay out i32acc clr common => Sys2Proof.Machine.execMdrn sb bay out i32acc clr common s
  | .mzer bay row count => Sys2Proof.Machine.execMzer bay row count s
  | .mhint bay cycles => Sys2Proof.Machine.execMhint bay cycles s
  | .mstat d bay sel clr => Sys2Proof.Machine.execMstat d bay sel clr s
  | .pbind g r a => Sys2Proof.Machine.execPbind g r a s
  | .pinit g => Sys2Proof.Machine.execPinit g s
  | .pmul g a b => Sys2Proof.Machine.execPmul g a b s
  | .pdiv g a b => Sys2Proof.Machine.execPdiv g a b s
  | .prsc g => Sys2Proof.Machine.execPrsc g s
  | .pout d g a => Sys2Proof.Machine.execPout d g a s
  | .pdesc d g => Sys2Proof.Machine.execPdesc d g s
  | .punb g => Sys2Proof.Machine.execPunb g s
  | .wemit r a d => Sys2Proof.Machine.execWemit r a d s
  | .wmadv d a p => Sys2Proof.Machine.execWmadv d a p s
  | .wmidl d a => Sys2Proof.Machine.execWmidl d a s
  | .wmrd d a sel => Sys2Proof.Machine.execWmrd d a sel s
  | .wrecv r w d bnd wait => Sys2Proof.Machine.execWrecv r w d bnd wait s
  | .wlate r w d bnd wait => Sys2Proof.Machine.execWlate r w d bnd wait s
  | .wnext d bnd wait => Sys2Proof.Machine.execWnext d bnd wait s
  | .wpub r a d bnd => Sys2Proof.Machine.execWpub r a d bnd s
  | .wamd r a d bnd => Sys2Proof.Machine.execWamd r a d bnd s
  | .wrel d a bnd => Sys2Proof.Machine.execWrel d a bnd s
  | .trmp _ disp => Sys2Proof.Machine.execTrmp disp s
  | .trmpr _ disp => Sys2Proof.Machine.execTrmpr disp s
  | .patch _ => Sys2Proof.Machine.execPatch s
  | .clauseIssue p => Sys2Proof.Machine.execClauseIssue p s
  | .returningOperationComplete op => Sys2Proof.Machine.execReturningOperationComplete op s
  | .storePerformed op lane => Sys2Proof.Machine.execStorePerformed op lane s
  | .flagWaitDemotion p => Sys2Proof.Machine.execFlagWaitDemotion p s
  | .napExpiry p => Sys2Proof.Machine.execNapExpiry p s
  | .ageingDisplacement core pipe => Sys2Proof.Machine.execAgeingDisplacement core pipe s
  | .slotRelease p => Sys2Proof.Machine.execSlotRelease p s
  | .barrierGenerationComplete blk => Sys2Proof.Machine.execBarrierGenerationComplete blk s
  | .aditScrubEnd p entry => Sys2Proof.Machine.execAditScrubEnd p entry s
  | .aditDrainComplete p entry => Sys2Proof.Machine.execAditDrainComplete p entry s
  | .remoteAccessAccept req => Sys2Proof.Machine.execRemoteAccessAccept req s
  | .xattAnswer p => Sys2Proof.Machine.execXattAnswer p s
  | .taskWaveFormation core => Sys2Proof.Machine.execTaskWaveFormation core s
  | .taskWaitTimeout core => Sys2Proof.Machine.execTaskWaitTimeout core s
  | .gangRendezvousComplete blk n => Sys2Proof.Machine.execGangRendezvousComplete blk n s
  | .gangTimeout blk n => Sys2Proof.Machine.execGangTimeout blk n s
  | .bayCommandStart core bay cmd => Sys2Proof.Machine.execBayCommandStart core bay cmd s
  | .latchReady core bay lat => Sys2Proof.Machine.execLatchReady core bay lat s
  | .mmaRetire core bay => Sys2Proof.Machine.execMmaRetire core bay s
  | .accumulationWrite core bay => Sys2Proof.Machine.execAccumulationWrite core bay s
  | .drainRowWrite core bay => Sys2Proof.Machine.execDrainRowWrite core bay s
  | .rampUpEnd core bay => Sys2Proof.Machine.execRampUpEnd core bay s
  | .rampDownStart core bay => Sys2Proof.Machine.execRampDownStart core bay s
  | .rampDownEnd core bay => Sys2Proof.Machine.execRampDownEnd core bay s
  | .geodeCommandComplete core => Sys2Proof.Machine.execGeodeCommandComplete core s
  | .engineRowDelivery cmd item => Sys2Proof.Machine.execEngineRowDelivery cmd item s
  | .forcedWriteApply core => Sys2Proof.Machine.execForcedWriteApply core s
  | .watermarkUnitEntry n => Sys2Proof.Machine.execWatermarkUnitEntry n s
  | .idleTimeout stream src => Sys2Proof.Machine.execIdleTimeout stream src s
  | .scaleOutRecord port stream src rec => Sys2Proof.Machine.execScaleOutRecord port stream src rec s
  | .translationMiss core => Sys2Proof.Machine.execTranslationMiss core s
  | .faultReply m => Sys2Proof.Machine.execFaultReply m s
  | .stallEscalation core => Sys2Proof.Machine.execStallEscalation core s
  | .haltLineArrival lid core => Sys2Proof.Machine.execHaltLineArrival lid core s
  | .haltEnginesStopped lid core => Sys2Proof.Machine.execHaltEnginesStopped lid core s
  | .preemptionRequest lid => Sys2Proof.Machine.execPreemptionRequest lid s
  | .preemptionBoundExpiry lid => Sys2Proof.Machine.execPreemptionBoundExpiry lid s
  | .waveSave p => Sys2Proof.Machine.execWaveSave p s
  | .saveTimeout lid => Sys2Proof.Machine.execSaveTimeout lid s
  | .contextRestore lid => Sys2Proof.Machine.execContextRestore lid s
  | .timeSliceExpiry cls => Sys2Proof.Machine.execTimeSliceExpiry cls s
  | .launchAcceptance req => Sys2Proof.Machine.execLaunchAcceptance req s
  | .rectangleClaim q mismatch => Sys2Proof.Machine.execRectangleClaim q mismatch s
  | .blockPlacement lid => Sys2Proof.Machine.execBlockPlacement lid s
  | .samplePeriodExpiry => Sys2Proof.Machine.execSamplePeriodExpiry s
  | .auditReplayStart job => Sys2Proof.Machine.execAuditReplayStart job s
  | .auditThirdRunStart job => Sys2Proof.Machine.execAuditThirdRunStart job s
  | .auditVerdict job => Sys2Proof.Machine.execAuditVerdict job s
  | .auditPlacementTimeout job => Sys2Proof.Machine.execAuditPlacementTimeout job s
  | .captureReplay job core => Sys2Proof.Machine.execCaptureReplay job core s
  | .launchMessage m => Sys2Proof.Machine.execLaunchMessage m s
  | .streamRecordsMessage m => Sys2Proof.Machine.execStreamRecordsMessage m s
  | .streamAdvanceMessage m => Sys2Proof.Machine.execStreamAdvanceMessage m s
  | .streamIdleMessage m => Sys2Proof.Machine.execStreamIdleMessage m s
  | .debugStop m => Sys2Proof.Machine.execDebugStop m s
  | .debugRelease m => Sys2Proof.Machine.execDebugRelease m s
  | .debugStep m => Sys2Proof.Machine.execDebugStep m s
  | .debugReadState m => Sys2Proof.Machine.execDebugReadState m s
  | .debugWriteState m => Sys2Proof.Machine.execDebugWriteState m s
  | .hostStop m => Sys2Proof.Machine.execHostStop m s
  | .directMemoryRead m => Sys2Proof.Machine.execDirectMemoryRead m s
  | .directMemoryWrite m => Sys2Proof.Machine.execDirectMemoryWrite m s
  | .controlWindowRead m => Sys2Proof.Machine.execControlWindowRead m s
  | .controlWindowWrite m => Sys2Proof.Machine.execControlWindowWrite m s
  | .streamTableWrite m => Sys2Proof.Machine.execStreamTableWrite m s
  | .tlbInvalidation m => Sys2Proof.Machine.execTlbInvalidation m s
  | .quarantineClear m => Sys2Proof.Machine.execQuarantineClear m s
  | .attestation m => Sys2Proof.Machine.execAttestation m s
  | .ucieModuleDown n => Sys2Proof.Machine.execUcieModuleDown n s
  | .ucieLaneTrainDown n => Sys2Proof.Machine.execUcieLaneTrainDown n s
  | .portLinkDown n => Sys2Proof.Machine.execPortLinkDown n s
  | .remoteRetransmissionFailure cmd => Sys2Proof.Machine.execRemoteRetransmissionFailure cmd s
  | .remoteWriteAck cmd item => Sys2Proof.Machine.execRemoteWriteAck cmd item s
  | .powerGood => Sys2Proof.Machine.execPowerGood s
  | .islandStateChange island st => Sys2Proof.Machine.execIslandStateChange island st s
  | .thermalThrottleStart die => Sys2Proof.Machine.execThermalThrottleStart die s
  | .thermalThrottleEnd die => Sys2Proof.Machine.execThermalThrottleEnd die s
  | .thermalShutdown => Sys2Proof.Machine.execThermalShutdown s
  | .kernelImageLoad ld => Sys2Proof.Machine.execKernelImageLoad ld s
  | .kernelImageUnload image => Sys2Proof.Machine.execKernelImageUnload image s
  | .scaleOutCopyTraffic port write pa data => Sys2Proof.Machine.execScaleOutCopyTraffic port write pa data s
  | .portSourceAdvance port stream src x => Sys2Proof.Machine.execPortSourceAdvance port stream src x s
  | .uncorrectableError site => Sys2Proof.Machine.execUncorrectableError site s
  | .keptLogFree lid => Sys2Proof.Machine.execKeptLogFree lid s

end Sys2Proof.Machine
end

