-- ==== Sys2Proof/Machine/Agents.lean ====
section
/-! DEFINITION. The agents of the package and their moves: waves by pipe, engines and units, the scheduler, timers, arrivals
(R63, R100, R116, R225, R231, R271; assumptions 1 and 2). -/

namespace Sys2Proof.Machine

/-! ### The turn of a wave -/

/-- The instruction at the wave's next word; a clause was decoded whole before it began (R63). -/
def Wave.nextInstr (w : Wave) : Except DecodeErr Instr :=
  match w.body[w.k - 1]? with
  | none => .error .truncated
  | some x => match decodeInstr x w.body[w.k]? with
    | .error e => .error e
    | .ok r => .ok r.1

/-- What an instruction leaves in the scheduler. -/
def noted (s : State) (p cycles : Nat) : Host.Outcome State Fault Refusal → Host.Outcome State Fault Refusal
  | .next s' => .next (s'.afterIssue s p cycles)
  | .fault f => .fault f
  | .refused r => .refused r

/-- A wave collects the operands of a word for `n` cycles more, in spite of bank conflicts: until then its reason (R42, assumption 98). -/
def State.gather (s : State) (p n : Nat) : State :=
  (s.stall p 2).modWave p (fun w => { w with gathering := some (w.gathering.getD (s.clock + BitVec.ofNat 64 n)) })

/-- The trap that is taken before a wave's next word: a due one, in native mode one that a met wait has closed, outside its handler (R100,
assumption 86), and after a form that missed (R228). -/
def State.dueNow (s : State) (p : Nat) : Option DueTrap :=
  let w := s.wave p
  w.due.find? (fun t => !w.unfinished && if s.nativeOf p then t.closed && !w.hnd else true)

/-- The next word of a wave waits for its operands: they meet in a bank and are not collected. -/
def Wave.collects (w : Wave) (i : Instr) : Bool := bankConflict i && !w.gathered

/-- A wave moves: a trap whose entry waits is tried again; a due trap is taken; else the clause is fetched, which takes no port cycle, or
its next word executes, once its operands are collected. -/
def State.waveTurn (s : State) (p : Nat) : Host.Outcome State Fault Refusal :=
  let w := s.wave p
  let s : State := { s with cur := p }
  match w.trap with
  | some t => .next (s.tryTrap p t)
  | none =>
    match s.dueNow p with
    | some t => .next (s.takeDue p t w.pc w.k)
    | none =>
      if w.k = 0 then exec (.clauseIssue p) s
      else match w.nextInstr with
        | .ok i => if w.collects i then .next (s.gather p (collectCycles i)) else noted s p (Instr.portCycles i) (exec i s)
        | .error e => .next (s.halt p 0x10 e.code)

/-- The turn of a wave brings a word to its pipe's port: it is not a fetch, a collection or the entry of a trap (R271, R273). -/
def State.takesPort (s : State) (p : Nat) : Bool :=
  let w := s.wave p
  decide (w.k ≠ 0) && w.trap.isNone && (s.dueNow p).isNone &&
    (match w.nextInstr with | .ok i => !w.collects i | .error _ => false)

/-! ### Arrivals -/

/-- The module or port that brings an arrival: arrivals of one are acted on in their order (R225, R231). -/
def channelOf (i : Instr) : Option Nat :=
  match i with
  | .scaleOutRecord p _ _ _ => some (4 + p)
  | .scaleOutCopyTraffic p _ _ _ => some (4 + p)
  | .portSourceAdvance p _ _ _ => some (4 + p)
  | i => moduleOf i

/-- Arrival `n` may be acted on: it is the first of its channel, and no launch message of its module waits (R225). -/
def State.firstOfChannel (s : State) (n : Nat) (i : Instr) : Bool :=
  match channelOf i with
  | none => true
  | some c => !(s.inputs.take n).any (fun j => channelOf j == some c) &&
      !s.launchReqs.any (fun r => match r.source with | .host m => decide (m.module = c) | _ => false)

/-! ### One move -/

/-- A move, or the refusal of one whose conditions do not hold. A lane of its own moves only for an operation that returns:
STORE_PERFORMED performs the others. -/
def State.attempt (s : State) (t : Turn) : Host.Outcome State Fault Refusal :=
  match t with
  | .wave p => s.waveTurn p
  | .event i => exec i s
  | .input n =>
    match s.inputs[n]? with
    | none => .refused (.notEnabled "ARRIVAL")
    | some i => if s.firstOfChannel n i then exec i { s with inputs := s.inputs.eraseIdx n } else .refused (.notEnabled "ARRIVAL")
  | .image n =>
    match s.arriving[n]? with
    | none => .refused (.notEnabled "IMAGE")
    | some v => .next (({ s with arriving := s.arriving.eraseIdx n } : State).receiveImage v)
  | .promote c q => match s.promote c q with | some s' => .next s' | none => .refused (.notEnabled "PROMOTION")
  | .lane op l =>
    if (s.ops.find? (fun o => o.id == op)).all (fun o => o.dst == .none) then .refused (.notEnabled "MEMORY_PORT_LANE")
    else match s.stepRow op l with | some s' => .next s' | none => .refused (.notEnabled "MEMORY_PORT_LANE")
  | .bayRead c b => if s.bayRead c b = s then .refused (.notEnabled "BAY_ROW_READ") else .next (s.bayRead c b)
  | .drainRead c b => match s.readAccs c b 1 with | some s' => .next s' | none => .refused (.notEnabled "DRAIN_ROW_READ")
  | .idle => .next s

/-! ### Which moves there are -/

/-- The active wave of each pipe that has waited longest (R271); a core whose island does not run issues nothing (R328). -/
def State.waveTurns (s : State) : List Turn :=
  (List.range 48).flatMap (fun c => if s.skips c || s.islands.get .run c != .run then [] else (List.range 4).filterMap (fun q =>
    (State.oldest ((s.pipeWaves c q).filter (fun x => x.2.active && s.awake x.1))).map (fun x => .wave x.1)))

def State.bayTurns (s : State) (c b : Nat) : List Turn :=
  (s.bay c b).queue.map (fun x => .event (.bayCommandStart c b x.id)) ++
  ([.bayRead c b, .drainRead c b, .event (.latchReady c b 0), .event (.latchReady c b 1), .event (.mmaRetire c b), .event (.accumulationWrite c b),
    .event (.drainRowWrite c b), .event (.rampUpEnd c b), .event (.rampDownStart c b), .event (.rampDownEnd c b)] : List Turn)

def State.coreTurns (s : State) (c : Nat) : List Turn := List.flatten [
  (List.range 4).flatMap (fun q => [.promote c q, .event (.ageingDisplacement c q)]),
  [.event (.taskWaveFormation c), .event (.taskWaitTimeout c), .event (.geodeCommandComplete c), .event (.forcedWriteApply c),
    .event (.translationMiss c), .event (.stallEscalation c)],
  (if s.skips c then [] else List.range 3).flatMap (s.bayTurns c)]

def State.slotTurns (x : Nat × Wave) : List Turn := List.flatten [
  [.event (.flagWaitDemotion x.1), .event (.napExpiry x.1), .event (.slotRelease x.1), .event (.xattAnswer x.1), .event (.waveSave x.1)],
  x.2.adits.flatMap (fun e => [.event (.aditScrubEnd x.1 e.1), .event (.aditDrainComplete x.1 e.1)])]

def State.launchTurns (l : Launch) : List Turn := List.flatten [
  [.event (.preemptionRequest l.lid), .event (.preemptionBoundExpiry l.lid), .event (.saveTimeout l.lid), .event (.contextRestore l.lid),
    .event (.blockPlacement l.lid)],
  if l.halt.isNone then [] else (State.coresOf l).flatMap (fun c => [.event (.haltLineArrival l.lid c), .event (.haltEnginesStopped l.lid c)])]

def opTurns (o : Op) : List Turn :=
  .event (.returningOperationComplete o.id) :: .event (.storePerformed o.id 0) ::
    o.lanes.flatMap (fun a => [.event (.storePerformed o.id a.lane), .lane o.id a.lane])

def blockTurns (b : Block) : List Turn :=
  .event (.barrierGenerationComplete b.id) ::
    b.rends.flatMap (fun r => [.event (.gangRendezvousComplete b.id r.n), .event (.gangTimeout b.id r.n)])

def jobTurns (j : Job) : List Turn :=
  [.event (.auditReplayStart j.id), .event (.auditThirdRunStart j.id), .event (.auditVerdict j.id), .event (.auditPlacementTimeout j.id)]

/-- Every move that might be made. -/
def State.turns (s : State) : List Turn := List.flatten [
  s.waveTurns, s.ops.flatMap opTurns,
  s.copies.flatMap (fun c => (List.range c.items.length).map (fun i => .event (.engineRowDelivery c.id i))),
  s.remotes.map (fun r => .event (.remoteAccessAccept r.id)),
  (s.copies.filter (fun c => c.rows.isEmpty)).map (fun c => .event (.remoteAccessAccept c.id)),
  s.waves.flatMap State.slotTurns, (s.cores.map (·.1)).flatMap s.coreTurns, s.blocks.flatMap blockTurns,
  (List.range s.unitQ.length).map (fun n => .event (.watermarkUnitEntry n)),
  s.streams.flatMap (fun t => t.2.srcs.map (fun x => .event (.idleTimeout t.1 x.1))),
  s.launches.flatMap State.launchTurns, (List.range 4).map (fun c => .event (.timeSliceExpiry c)),
  s.launchReqs.map (fun r => .event (.launchAcceptance r.id)),
  (List.range 16).map (fun q => .event (.rectangleClaim q (Config.routeMismatch s.tick))), [.event .samplePeriodExpiry],
  s.jobs.flatMap jobTurns, if s.boot = .off then [.event .powerGood] else [], (List.range s.inputs.length).map .input,
  (List.range s.arriving.length).map .image]

/-- A move was refused: its conditions do not hold. -/
def declined : Host.Outcome State Fault Refusal → Bool
  | .refused _ => true
  | _ => false

/-- The moves that can be made. -/
def State.enabled (s : State) : List Turn := s.turns.filter (fun t => !declined (s.attempt t))

/-- The move that is made: the one named, else one of those that can be made, else none (assumption 1). -/
def State.chosen (s : State) : Turn :=
  match s.turn with
  | some t => t
  | none => match s.enabled with
    | [] => .idle
    | t :: ts => (t :: ts).getD (Config.choice s.tick % (ts.length + 1)) .idle

/-- The pipe whose port an instruction takes. -/
def State.busyPipe (s : State) : Turn → Option (Nat × Nat)
  | .wave p => if s.takesPort p then some (coreOf p, (s.wave p).pipe) else none
  | _ => none

/-- A turn that leaves its wave waiting has begun something all the same: a trap's entry, a collection, the wait of an MSTAT. -/
def Wave.begins (w v : Wave) : Bool := v.trap.isSome != w.trap.isSome || v.gathering != w.gathering || v.awaits != w.awaits

/-- What a wave waits for is looked at afresh: its turn is tried, and one that would go on waits for nothing (R271, R272). A form that missed
and would now find its pages has been answered: it waits as it would have on a hit (R228). -/
def State.recheck (s : State) (p : Nat) : State :=
  let w := s.wave p
  if !w.mayIssue || s.coreStalled (coreOf p) then s
  else match s.waveTurn p with
    | .next t =>
      let v := t.wave p
      if s.issued t p || w.begins v || !v.waits then
        if w.waits then s.modWave p (fun w => { w with reasons := 0, flagWaitSince := none }) else s
      else s.modWave p (fun w => { w with
        reasons := v.reasons, flagWaitSince := v.flagWaitSince, active := w.active && v.active,
        missed := if v.missed.isEmpty then [] else w.missed })
    | _ => s

/-- Every wave that runs is looked at. -/
def State.recheckAll (s : State) : State := (s.waves.filter (fun x => x.2.status == .running)).foldl (fun s x => s.recheck x.1) s

/-- Collections whose cycles are over end (R42). -/
def State.collect (s : State) : State :=
  { s with waves := s.waves.mapVal {} (fun _ w => match w.gathering with
    | some t => if t.toNat ≤ s.clock.toNat then { w with gathered := true, gathering := none } else w
    | none => w) }

/-- A correctable error is corrected and counted by its core (R50, assumption 83). -/
def State.correct (s : State) : State :=
  { s with corrected := match Config.corrected s.tick with
    | some c => s.corrected.set 0 (c % 48) (s.corrected.get 0 (c % 48) + 1)
    | none => s.corrected }

/-- Time passes before a move (assumption 2): the cycle in which a last arrival landed is noted (R33), collections end (R42), waves that are
not ready have not begun to wait for the port, what they wait for is looked at (R271, R272), and errors are corrected. -/
def State.elapse (s : State) : State :=
  ((({ s with tick := s.tick + 1, clock := s.clock + BitVec.ofNat 64 (Config.delay s.tick) } : State).land s.clock).collect.renew).recheckAll.correct

/-- A move is taken up: no other is named, and the pipes whose port has no instruction count the idle cycles that passed (R273). -/
def State.begin (s : State) (t : Turn) : State :=
  ({ s with turn := none } : State).countIdle (s.busyPipe t) (Config.delay (s.tick - 1))

/-- The fetch of a named instruction: the wave at party 0, resident on core 0 in a launch of its own, stands at the first word
of a clause that holds the given words. -/
def State.placeWords (s : State) (ws : List Word) : State :=
  let l : Launch := { lid := 0, prog := .resident, hdr := { roles := [{ budget := 256, waves := 1 }] }, total := 1, started := [(0, true)] }
  let b : Block := { id := 0, lid := 0, parties := [(0, 0)], core := 0 }
  let w : Wave := { s.wave 0 with status := .running, budget := 256, present := 1, exist := 1, k := 1, pc := 4, body := ws, active := true, gathered := true, missed := [] }
  { s.setWave 0 w with
      launches := if (s.launch? 0).isSome then s.launches else s.launches ++ [l],
      blocks := if (s.block? 0).isSome then s.blocks else s.blocks ++ [b],
      boot := .answering, turn := some (.wave 0) }

end Sys2Proof.Machine
end

