-- ==== Sys2Proof/Machine/Step.lean ====
section
/-! DEFINITION. One step of the package. -/

namespace Sys2Proof.Machine

/-- Time passes and one agent moves: a wave, an engine or unit, the scheduler, a timer, or an arrival. -/
def step (s : State) : Host.Outcome State Fault Refusal := (s.elapse.begin s.elapse.chosen).attempt s.elapse.chosen

/-- The state in which the next step runs the instruction whose bits are `w`, one word or two (assumption 3). A step that has
no word is run as the move named; `w` then has no bits. -/
def State.withFetchWord (s : State) (_nbits w : Nat) : State := s.placeWords [BitVec.ofNat 32 w, BitVec.ofNat 32 (w / 2 ^ 32)]

end Sys2Proof.Machine
end

