-- ==== Sys2Proof/Safety.lean ====
section
/-! DEFINITION. What the claims call well formed and safe. -/

namespace Sys2Proof.Machine

/-- The canonical form of device memory: addresses strictly rising, no byte equal to the 0 that an unlisted address reads as. -/
def Memory.wf (m : SMap Byte) : Bool := m.wf 0

/-- Every map that a program can reach by address is in its canonical form. -/
def State.canonical (s : State) : Bool :=
  Memory.wf s.mem && s.elems.wf 0 && s.bad.wf false && s.badMem.wf false && s.rows.wf {}

/-- Device memory holds bytes only where the spec gives the package memory (R324). -/
def State.memInside (s : State) : Bool := s.mem.all (fun e => decide (e.1 < memTop))

/-- A state from which the next step neither faults nor refuses. -/
def State.safe (s : State) : Prop := ∃ t, step s = .next t

/-- What steps reach. -/
inductive Reaches : State → State → Prop where
  | refl (s : State) : Reaches s s
  | tail {s t u : State} : Reaches s t → step t = .next u → Reaches s u

/-! ### When an instruction of the wave at the turn executes -/

namespace State

/-- The wave at the turn. -/
abbrev me (s : State) : Wave := s.wave s.cur

/-- The wave at the turn runs, and none of the registers that a form names is open (R77). -/
abbrev ready (s : State) (vecs scals : List Nat) : Prop :=
  s.me.status = .running ∧ ∀ o ∈ s.me.opens, (∀ v ∈ vecs, v ∉ o.vecs) ∧ ∀ r ∈ scals, r ∉ o.scals

/-- No FENCE holds a form's row accesses (R177, R211), no earlier write of the wave through a handle or to the ceiling its own
writes (R218), and no row that it touches waits for a write (R47) or races (R55). -/
abbrev clear (s : State) (srcs dsts : Regs) : Prop :=
  s.fenced s.cur (rowClasses s.cur srcs dsts) = false ∧ (rowsOf s.cur dsts ≠ [] → s.writesOut s.cur = false) ∧
  (∀ r ∈ accesses s.cur srcs dsts, s.rowBlocked s.cur r.1 = false) ∧ s.racing s.cur (accesses s.cur srcs dsts) = []

/-- No element that a form consumes carries poison (R50). -/
abbrev clean (s : State) (srcs : Regs) : Prop :=
  ∀ r ∈ srcs, ∀ l ∈ lanesOf r.2, s.poisoned (velem s.cur r.1 l) = false

/-- The wave's block runs for itself and no audit logs it (R293, R297). -/
abbrev unlogged (s : State) : Prop := s.runOf s.cur = .original ∧ (s.block s.me.blk).logging = false

/-! ### What an instruction leaves as it was -/

/-- Register elements, their poison, row metadata and every byte of memory are as before. -/
abbrev sameStorage (s t : State) : Prop :=
  (∀ k, t.elem k = s.elem k) ∧ (∀ k, t.poisoned k = s.poisoned k) ∧ (∀ r, t.info r = s.info r) ∧ ∀ a, t.byte a = s.byte a

/-- Nothing but the wave at the turn differs. -/
abbrev onlyMe (s t : State) : Prop := t = s.setWave s.cur (t.wave s.cur)

/-- Nothing but the wave at the turn differs, and it is `w`. -/
abbrev becomes (s t : State) (w : Wave) : Prop := t = s.setWave s.cur w

/-- The wave at the turn becomes `w`, and it ends where no lane is left in it (R24). -/
abbrev gives (s : State) (w : Wave) : State := (s.setWave s.cur w).endIfEmpty s.cur

/-- Trap entry can be made at once: the image has a handler, the wave is outside it, no returning operation is outstanding,
and v254 and v255 are free and do not race (R79, R115, R116, R132). -/
abbrev canEnter (s : State) : Prop :=
  s.trapVector s.cur ≠ 0 ∧ s.me.hnd = false ∧ s.trapReady s.cur = true ∧ s.racing s.cur (trapRows s.cur) = []

/-- What trap entry leaves (R116): the handler's address, md 0x0002, HND, counters 0 in the trapping lanes and 1 in the others,
the resume word in s56:s57, cause and detail in s58, md in s59, the nesting in v255, the lanes and their conditions in v254;
every other register and every byte of memory as before. -/
abbrev entered (s t : State) (x : TrapReq) : Prop :=
  let w := s.me
  let v := t.wave s.cur
  v.pc = s.trapVector s.cur ∧ v.k = 0 ∧ v.md = 0x0002 ∧ v.hnd = true ∧ v.cont = 0 ∧ v.trap = none ∧ v.present = w.present ∧
  v.pair 56 = resumeWord x.addr x.k ∧ v.sget 58 = BitVec.ofNat 32 (x.cause * 65536 + x.detail) ∧ v.sget 59 = w.md.setWidth 32 ∧
  (∀ r < 64, r < 56 ∨ 59 < r → v.sget r = w.sget r) ∧
  (∀ l < 96, v.cnt.get 0 l = if x.lanes.getLsbD l then 0 else 1) ∧
  (∀ l < 96, t.vget s.cur 255 l = BitVec.ofNat 32 ((w.cnt.get 0 l).toNat + if w.cont.getLsbD l then 64 else 0)) ∧
  (∀ l < 96, t.vget s.cur 254 l =
    BitVec.ofNat 32 ((if x.lanes.getLsbD l then 1 else 0) + 256 * (x.flags.get 0 l).toNat)) ∧
  (∀ k, (∀ l < 96, k ≠ velem s.cur 254 l ∧ k ≠ velem s.cur 255 l) → t.elem k = s.elem k) ∧ ∀ a, t.byte a = s.byte a

/-- The wave has halted at its present word and shows this cause, detail, address and these lanes (R281, R284). -/
abbrev halted (s t : State) (cause detail : Nat) (addr : DWord) (lanes : LaneMask) : Prop :=
  (t.wave s.cur).status = .halted ∧ (t.wave s.cur).stop = some (cause, detail, addr, lanes) ∧ (t.wave s.cur).pc = s.me.pc ∧
  (t.wave s.cur).k = s.me.k

/-- The wave is killed: the form writes none of its registers, no condition, no element; of memory, where no audit logs the block, its stop
record alone is written (R50, R285). -/
abbrev kills (s t : State) : Prop :=
  let place := (s.launch s.me.lid).hdr.halt + 64 * recNo (s.launch s.me.lid) (coreOf s.cur) (slotOf s.cur)
  (t.wave s.cur).status = .killed ∧ (∀ r < 64, (t.wave s.cur).sget r = s.me.sget r) ∧ (t.wave s.cur).flg = s.me.flg ∧
  (∀ k, t.elem k = s.elem k ∧ t.poisoned k = s.poisoned k) ∧
  ((s.block s.me.blk).logging = false → ∀ a, (a < place ∨ place + 64 ≤ a) → t.byte a = s.byte a)

end State

/-! ### What the forms compute -/

/-- A scalar form: destination, every scalar register that its word names, its words, its value and conditions. -/
structure ScalarResult where
  d : Nat
  names : List Nat
  words : Nat := 1
  value : Word
  conds : BitVec 6 := 0

/-- The scalar forms that ignore TYPE (R136, R141 to R146). -/
def scalarPlain (w : Wave) : Instr → Option ScalarResult
  | .sand d a b => some { d := d, names := [d, a, b], value := w.sget a &&& w.sget b }
  | .sor d a b => some { d := d, names := [d, a, b], value := w.sget a ||| w.sget b }
  | .sxor d a b => some { d := d, names := [d, a, b], value := w.sget a ^^^ w.sget b }
  | .snot d a => some { d := d, names := [d, a], value := ~~~w.sget a }
  | .sshl d a b => some { d := d, names := [d, a, b], value := w.sget a <<< (w.sget b).toNat }
  | .sshr d a b => some { d := d, names := [d, a, b], value := w.sget a >>> (w.sget b).toNat }
  | .ssra d a b => some { d := d, names := [d, a, b], value := (w.sget a).sshiftRight (min 31 (w.sget b).toNat) }
  | .ssel d a b c => some { d := d, names := [d, a, b, c], words := 2, value := w.sget c &&& w.sget a ||| ~~~w.sget c &&& w.sget b }
  | .smov d a => some { d := d, names := [d, a], value := w.sget a }
  | .sli d imm => some { d := d, names := [d], value := imm.setWidth 32 }
  | .shi d imm => some { d := d, names := [d], value := imm ++ (w.sget d).setWidth 16 }
  | .saddi d imm => some { d := d, names := [d], value := w.sget d + imm.signExtend 32 }
  | .sbfe d a sx len pos => some
      { d := d, names := [d, a], words := 2,
        value := if sx then ((w.sget a >>> pos).setWidth len).signExtend 32 else ((w.sget a >>> pos).setWidth len).setWidth 32 }
  | .spopc d a => some { d := d, names := [d, a], value := BitVec.ofNat 32 ((List.range 32).filter (fun i => (w.sget a).getLsbD i)).length }
  | .sclz d a => some
      { d := d, names := [d, a], value := BitVec.ofNat 32 (((List.range 32).find? (fun i => (w.sget a).getLsbD (31 - i))).getD 32) }
  | _ => none

/-- The scalar forms that compute in the scalar type: i32, n32 or f32 (R134, R135, R139, R140, R144). -/
def scalarTyped (w : Wave) : Instr → Option ScalarResult
  | .sadd d a b => put [d, a, b] d (addElem (modeOf w.md) (scalarType w.md) (w.sget a).toNat (w.sget b).toNat)
  | .ssub d a b => put [d, a, b] d (subElem (modeOf w.md) (scalarType w.md) (w.sget a).toNat (w.sget b).toNat)
  | .smul d a b => put [d, a, b] d (mulElem (modeOf w.md) (scalarType w.md) (w.sget a).toNat (w.sget b).toNat)
  | .smulh d a b => if typeOf w.md = .f32 then none else put [d, a, b] d (mulhElem (scalarType w.md) (w.sget a).toNat (w.sget b).toNat)
  | .smin d a b => put [d, a, b] d (minmaxElem false (modeOf w.md) (scalarType w.md) (w.sget a).toNat (w.sget b).toNat)
  | .smax d a b => put [d, a, b] d (minmaxElem true (modeOf w.md) (scalarType w.md) (w.sget a).toNat (w.sget b).toNat)
  | .scmp d a b c =>
    (put [d, a, b] d (cmpElem c (modeOf w.md) (scalarType w.md) (w.sget a).toNat (w.sget b).toNat)).map (fun r => { r with words := 2 })
  | _ => none
where
  put (names : List Nat) (d : Nat) (r : Nat × BitVec 6) : Option ScalarResult :=
    some { d := d, names := names, value := BitVec.ofNat 32 r.1, conds := r.2 }

/-- A vector form: destination, the registers read in the active lanes, the scalars read, its words, the types it accepts,
its value and conditions in a lane. -/
structure VectorResult where
  d : Nat
  srcs : List Nat
  scals : List Nat := []
  words : Nat := 1
  ok : EType → Bool := fun _ => true
  lane : Nat → Word × BitVec 6

/-- The vector forms on whole 32-bit lanes, which ignore TYPE and raise no condition (R137, R141, R145, R146). -/
def vectorPlain (s : State) : Instr → Option VectorResult
  | .vand d a b => some { d := d, srcs := [a, b], lane := fun l => (x a l &&& x b l, 0) }
  | .vor d a b => some { d := d, srcs := [a, b], lane := fun l => (x a l ||| x b l, 0) }
  | .vxor d a b => some { d := d, srcs := [a, b], lane := fun l => (x a l ^^^ x b l, 0) }
  | .vnot d a => some { d := d, srcs := [a], lane := fun l => (~~~x a l, 0) }
  | .vsel d a b c => some { d := d, srcs := [a, b, c], words := 2, lane := fun l => (x c l &&& x a l ||| ~~~x c l &&& x b l, 0) }
  | .vmov d a => some { d := d, srcs := [a], lane := fun l => (x a l, 0) }
  | .vli d imm => some { d := d, srcs := [], lane := fun _ => (imm.signExtend 32, 0) }
  | .vbcs d a => some { d := d, srcs := [], scals := [a], lane := fun _ => (s.me.sget a, 0) }
  | .vbfe d a sx len pos => some
      { d := d, srcs := [a], words := 2,
        lane := fun l => (if sx then ((x a l >>> pos).setWidth len).signExtend 32 else ((x a l >>> pos).setWidth len).setWidth 32, 0) }
  | .vbfi d a b len pos => some
      { d := d, srcs := [a, b], words := 2, lane := fun l => (insertField (x a l) (x b l) len pos, 0) }
  | .vpopc d a => some { d := d, srcs := [a], lane := fun l => (BitVec.ofNat 32 ((List.range 32).filter (fun i => (x a l).getLsbD i)).length, 0) }
  | .vclz d a => some
      { d := d, srcs := [a], lane := fun l => (BitVec.ofNat 32 (((List.range 32).find? (fun i => (x a l).getLsbD (31 - i))).getD 32), 0) }
  | .vlid d a b => some
      { d := d, srcs := [], scals := [a, b], lane := fun l => (s.me.sget a + BitVec.ofNat 32 l * s.me.sget b, 0) }
  | _ => none
where
  x (r l : Nat) : Word := s.vget s.cur r l

/-- The vector forms that compute element by element in md's type (R135, R139 to R144, R147 to R149). -/
def vectorTyped (s : State) : Instr → Option VectorResult
  | .vadd d a b => some { d := d, srcs := [a, b], lane := two a b (addElem md t) }
  | .vsub d a b => some { d := d, srcs := [a, b], lane := two a b (subElem md t) }
  | .vmul d a b => some { d := d, srcs := [a, b], lane := two a b (mulElem md t) }
  | .vmulh d a b => some { d := d, srcs := [a, b], ok := vmulhType, lane := two a b (mulhElem t) }
  | .vfma d a b c => some
      { d := d, srcs := [a, b, c], words := 2,
        lane := fun l => mapParts t (fun j => fmaElem md t (part t (x a l) j) (part t (x b l) j) (part t (x c l) j)) }
  | .vmin d a b => some { d := d, srcs := [a, b], lane := two a b (minmaxElem false md t) }
  | .vmax d a b => some { d := d, srcs := [a, b], lane := two a b (minmaxElem true md t) }
  | .vabs d a => some { d := d, srcs := [a], lane := fun l => mapParts t (fun j => absElem md t (part t (x a l) j)) }
  | .vneg d a => some { d := d, srcs := [a], lane := fun l => mapParts t (fun j => negElem md t (part t (x a l) j)) }
  | .vshl d a b => some { d := d, srcs := [a, b], lane := two a b (fun p q => (shlElem t.width p q, 0)) }
  | .vshr d a b => some { d := d, srcs := [a, b], lane := two a b (fun p q => (shrElem t.width p q, 0)) }
  | .vsra d a b => some { d := d, srcs := [a, b], lane := two a b (fun p q => (sraElem t.width p q, 0)) }
  | .vcmp d a b c => some { d := d, srcs := [a, b], words := 2, lane := two a b (cmpElem c md t) }
  | .vcvt d a tgt src k => some
      { d := d, srcs := if tgt.count ≤ src.count then [a] else [a, d], words := 2,
        lane := fun l => cvtLane md tgt src k (x a l) (x d l) }
  | .vscl d a b => some
      { d := d, srcs := [a], scals := [b], ok := vsclType,
        lane := fun l => mapParts t (fun j =>
          match kindOf t with
          | .flt f => sclElem md f ((s.me.sget b).toNat % 256) (part t (x a l) j)
          | .int _ => (part t (x a l) j, 0)) }
  | .vdot d a b => some { d := d, srcs := [a, b], ok := vdotType, lane := fun l => dotLane md t (x a l) (x b l) none }
  | .vdota d a b => some { d := d, srcs := [a, b, d], ok := vdotType, lane := fun l => dotLane md t (x a l) (x b l) (some (x d l)) }
  | _ => none
where
  x (r l : Nat) : Word := s.vget s.cur r l
  md : Mode := modeOf s.me.md
  t : EType := typeOf s.me.md
  two (a b : Nat) (f : Nat → Nat → Nat × BitVec 6) (l : Nat) : Word × BitVec 6 :=
    mapParts t (fun j => f (part t (x a l) j) (part t (x b l) j))

/-- The special functions (R137, R150): destination, source, and the function of a lane's word. -/
def specialOf (w : Wave) : Instr → Option (Nat × Nat × (Word → Word × BitVec 6))
  | .vrcp d a => some (d, a, specialLane rcpElem (modeOf w.md) (typeOf w.md))
  | .vrsq d a => some (d, a, specialLane rsqElem (modeOf w.md) (typeOf w.md))
  | .vsqrt d a => some (d, a, specialLane Fmt.sqrt (modeOf w.md) (typeOf w.md))
  | .vex2 d a => some (d, a, specialLane ex2Elem (modeOf w.md) (typeOf w.md))
  | .vlg2 d a => some (d, a, specialLane lg2Elem (modeOf w.md) (typeOf w.md))
  | .vsin d a => some (d, a, specialLane (trigElem false) (modeOf w.md) (typeOf w.md))
  | .vcos d a => some (d, a, specialLane (trigElem true) (modeOf w.md) (typeOf w.md))
  | _ => none

/-- An indexed form (R160 to R163): its words, space, kind and destination, the registers it consumes, those it copies, the
scalar it reads, and for each lane its index, operand, compared value and whether the element stored is poisoned. -/
structure IndexedForm where
  words : Nat := 1
  sp : Space
  kind : OpKind
  dst : Dest := .none
  srcs : List Nat := []
  copied : List Nat := []
  scals : List Nat := []
  idx : Nat → Int
  data : Nat → Word := fun _ => 0
  cmp : Nat → Word := fun _ => 0
  mark : Nat → Bool := fun _ => false

def indexedOf (s : State) : Instr → Option IndexedForm
  | .xget d o sp => some { sp := sp, kind := .xget, dst := .vec d false, srcs := [o], idx := fun l => (x o l).toInt }
  | .xgetw d a sp => some { sp := sp, kind := .xget, dst := .vec d false, scals := [a], idx := fun l => 96 * (s.me.sget a).toInt + l }
  | .xput v o sp => some
      { sp := sp, kind := .xput, srcs := [o], copied := [v], idx := fun l => (x o l).toInt, data := x v,
        mark := fun l => s.poisoned (velem s.cur v l) }
  | .xputw v a sp => some
      { sp := sp, kind := .xput, copied := [v], scals := [a], idx := fun l => 96 * (s.me.sget a).toInt + l, data := x v,
        mark := fun l => s.poisoned (velem s.cur v l) }
  | .xatm d o c sp op => some
      { words := 2, sp := sp, kind := .xatm op, dst := .vec d false, srcs := if op = 9 then [o, c, d] else [o, c],
        idx := fun l => (x o l).toInt, data := x c, cmp := x d }
  | _ => none
where
  x (r l : Nat) : Word := s.vget s.cur r l

/-- A memory form (R72, R172, R174, R175): its words, kind, size and destination, the vector registers it consumes, the scalars it
names, and for each access its lane, address and operand. -/
structure MemoryForm where
  words : Nat := 1
  scalar : Bool := false
  kind : OpKind
  size : Nat
  dst : Dest := .none
  cmp : Nat → DWord := fun _ => 0
  srcs : List Nat := []
  scals : List Nat
  accesses : List (Nat × DWord × DWord)

def memoryOf (s : State) : Instr → Option MemoryForm
  | .vldb d o q i => some (vload d o q i 1)
  | .vldh d o q i => some (vload d o q i 2)
  | .vldw d o q i => some (vload d o q i 4)
  | .vldd d o q i => some (vload d o q i 8)
  | .vstb v o q i => some (vstore v o q i 1)
  | .vsth v o q i => some (vstore v o q i 2)
  | .vstw v o q i => some (vstore v o q i 4)
  | .vstd v o q i => some (vstore v o q i 8)
  | .sldw d o q i => some { scalar := true, kind := .load, size := 4, dst := .scal d false, scals := [o, d, 2 * q, 2 * q + 1], accesses := [(0, sat o q i 4, 0)] }
  | .sldd d o q i => some
      { scalar := true, kind := .load, size := 8, dst := .scal d true, scals := [o, d, d + 1, 2 * q, 2 * q + 1], accesses := [(0, sat o q i 8, 0)] }
  | .sstw v o q i => some
      { scalar := true, kind := .store, size := 4, scals := [o, v, 2 * q, 2 * q + 1], accesses := [(0, sat o q i 4, (s.me.sget v).setWidth 64)] }
  | .sstd v o q i => some
      { scalar := true, kind := .store, size := 8, scals := [o, v, v + 1, 2 * q, 2 * q + 1], accesses := [(0, sat o q i 8, s.me.pair v)] }
  | .vamo d o q i op c _ w64 => some (atomic d o q i c (.amo op) w64)
  | .vamoc d o q i c _ w64 => some (atomic d o q i c .amoc w64)
  | _ => none
where
  place (off q i size : Nat) : DWord := s.me.pair (2 * q) + BitVec.ofNat 64 (off * size + i * size)
  sat (o q i size : Nat) : DWord := place (s.me.sget o).toNat q i size
  data (v size l : Nat) : DWord :=
    match size with
    | 1 => (s.vget s.cur v l &&& 0xFF).setWidth 64
    | 2 => (s.vget s.cur v l &&& 0xFFFF).setWidth 64
    | 4 => (s.vget s.cur v l).setWidth 64
    | _ => s.vget s.cur (v + 1) l ++ s.vget s.cur v l
  each (o q i size : Nat) (f : Nat → DWord) : List (Nat × DWord × DWord) :=
    (lanesOf s.me.activeMask).map (fun l => (l, place (s.vget s.cur o l).toNat q i size, f l))
  vload (d o q i size : Nat) : MemoryForm :=
    { kind := .load, size := size, dst := .vec d (size == 8), srcs := [o], scals := [2 * q, 2 * q + 1], accesses := each o q i size (fun _ => 0) }
  vstore (v o q i size : Nat) : MemoryForm :=
    { kind := .store, size := size, srcs := if size = 8 then [o, v, v + 1] else [o, v], scals := [2 * q, 2 * q + 1],
      accesses := each o q i size (data v size) }
  atomic (d o q i c : Nat) (k : OpKind) (w64 : Bool) : MemoryForm :=
    { words := 2, kind := k, size := if w64 then 8 else 4, dst := .vec d w64,
      srcs := o :: (if w64 then [c, c + 1] else [c]) ++ (if k = .amoc then (if w64 then [d, d + 1] else [d]) else []),
      scals := [2 * q, 2 * q + 1], cmp := data d (if w64 then 8 else 4), accesses := each o q i (if w64 then 8 else 4) (data c (if w64 then 8 else 4)) }

/-- A form beside those of `vectorPlain`, `vectorTyped`, `indexedOf` and `memoryOf` that consumes elements of the wave's registers: the registers
it reads and writes with their lanes, the scalars it names, what else it must meet, and the elements whose poison kills the wave: those of
the lanes whose values enter a result (R50, R153 to R158). -/
structure ConsumingForm where
  srcs : Regs
  dsts : Regs := []
  scals : List Nat := []
  meets : Prop := True
  used : Nat → Nat → Prop

def consumesOf (s : State) : Instr → Option ConsumingForm
  | .ifOpen a _ => some { srcs := [(a, m)], used := only a }
  | .nrst a => some { srcs := [(a, s.me.present)], used := fun r l => r = a ∧ s.me.present.getLsbD l = true }
  | .rte => some
      { srcs := [(255, allLanes)], scals := [56, 57, 59], used := fun r _ => r = 255,
        meets := s.me.hnd = true ∧ mdLegal ((s.me.sget 59).setWidth 16) = true ∧ bitsOf (s.me.pair 56).toNat 58 57 = 0 ∧
          bitsOf (s.me.pair 56).toNat 63 59 ≤ 16 ∧ (s.me.sget 56).toNat % 4 = 0 }
  | .task sb r => some
      { srcs := (List.range 16).map (fun j => (r + j, m)), scals := [sb, sb + 1, sb + 2, sb + 3],
        used := fun x l => r ≤ x ∧ x < r + 16 ∧ m.getLsbD l = true }
  | .admix a _ => some { srcs := [(a, m)], used := only a, meets := ∀ o ∈ s.ops, o.party = s.cur → o.out = false }
  | .vbal d a _ => some { srcs := [(a, allLanes)], scals := [d, d + 1, d + 2], used := only a }
  | .vany d a _ => some { srcs := [(a, allLanes)], scals := [d], used := only a }
  | .vall d a _ => some { srcs := [(a, allLanes)], scals := [d], used := only a }
  | .vffs d a _ => some { srcs := [(a, allLanes)], scals := [d], used := only a }
  | .vmatch d a =>
    let on := if m = 0 then 0 else allLanes
    some { srcs := [(a, allLanes)], dsts := [(d, on), (d + 1, on), (d + 2, on)], used := only a }
  | .vshf d a b pat k => some { srcs := (a, allLanes) :: index pat b, dsts := [(d, m)], used := shuffled a b pat k False }
  | .vshop d a b _ pat k => some { srcs := (a, allLanes) :: index pat b, dsts := [(d, m)], used := shuffled a b pat k True }
  | .vsegop d a b _ _ => some { srcs := [(a, allLanes), (b, m)], dsts := [(d, m)], used := fun r l => (r = a ∨ r = b) ∧ m.getLsbD l = true }
  | _ => none
where
  m : LaneMask := s.me.activeMask
  only (a r l : Nat) : Prop := r = a ∧ m.getLsbD l = true
  index (pat : Pat) (b : Nat) : Regs := if pat = .index then [(b, m)] else []
  -- the lane that a pattern names for an active lane, if it exists and is active (R154)
  source (b : Nat) (pat : Pat) (k l : Nat) : Option Nat :=
    (match pat with
      | .xor => some (l ^^^ k) | .up => if k ≤ l then some (l - k) else none | .down => some (l + k)
      | .index => some (s.vget s.cur b l).toNat : Option Nat).bind (fun x => if x < 96 ∧ m.getLsbD x = true then some x else none)
  shuffled (a b : Nat) (pat : Pat) (k : Nat) (own : Prop) (r l : Nat) : Prop :=
    (r = a ∧ (∃ i < 96, m.getLsbD i = true ∧ source b pat k i = some l)) ∨
    (r = a ∧ m.getLsbD l = true ∧ (own ∨ source b pat k l = none)) ∨ (pat = .index ∧ r = b ∧ m.getLsbD l = true)

namespace State

/-- The registers of a list in the active lanes. -/
abbrev inActive (s : State) (rs : List Nat) : Regs := rs.map (fun r => (r, s.me.activeMask))

/-- A destination of an operation: its rows are free and the flag that counts the operation has room (R46, R68). -/
abbrev canIssue (s : State) (d : Dest) : Prop :=
  s.flagFull s.cur = false ∧ ∀ r ∈ destRows s.cur d, s.rowBlocked s.cur r = false

/-- One long-latency operation `o` of `n` words has been issued (R67, R68, R77): it is in flight under a number of its own, the flag
that the clause names counts it, its destination is open and its rows are pending. -/
abbrev issues (s t : State) (n : Nat) (o : Op) : Prop :=
  t.ops = s.ops ++ [o] ∧ o.id = s.nextId ∧ o.party = s.cur ∧ o.flag = s.nextFlag s.cur ∧ o.rows = destRows s.cur o.dst ∧
  (t.wave s.cur).pc = s.me.pc + BitVec.ofNat 64 (4 * n) ∧
  (o.flag < 12 → (t.wave s.cur).flags.get 0 o.flag = s.me.flags.get 0 o.flag + 1) ∧
  (o.dst ≠ .none → ∃ x ∈ (t.wave s.cur).opens, x.op = o.id ∧ x.flag = o.flag ∧ x.vecs = (regsOfDest o.dst).1 ∧ x.scals = (regsOfDest o.dst).2) ∧
  (∀ r ∈ o.rows, (t.info r).pnd = true ∧ (t.info r).owner = o.id) ∧ ∀ a, t.byte a = s.byte a

end State

/-! ### Messages -/

/-- A host message that its handler acts on (R320, R321, R326): power and its module are up, firmware answers, and type, subtype,
length, reserved bits and the bits of ARG are those of the subtype. -/
abbrev State.hears (s : State) (m : HostMsg) (typ sub limit : Nat) (argMask : DWord) : Prop :=
  s.boot = .answering ∧ m.module < 4 ∧ (s.modules.get {} m.module).up = true ∧ m.rsv = false ∧ m.typ.toNat = typ ∧ m.sub.toNat = sub ∧
  m.len ≤ limit ∧ m.arg &&& ~~~argMask = 0 ∧ (m.stat = 0 ∨ typ = 3)

/-- The last message sent answers `m` with a status and a payload (R321). -/
abbrev State.answers (t : State) (m : HostMsg) (status : Nat) (payload : List Byte := []) : Prop :=
  t.sent.getLast? = some { module := m.module, typ := m.typ, sub := m.sub, tag := m.tag, len := payload.length,
                           stat := BitVec.ofNat 16 status, payload := payload }

/-- No status that a form could write into s(d) would empty the wave. -/
abbrev Wave.lasts (w : Wave) (d : Nat) : Prop := ∀ v, (w.sput d v).present ≠ 0

/-- The wave of a party has left a wait: `v` is in s(d), it stands `n` words on, and it may issue (R271). -/
abbrev State.resumed (s t : State) (p d n : Nat) (v : Word) : Prop :=
  (t.wave p).wait = .none ∧ (t.wave p).pc = (s.wave p).pc + BitVec.ofNat 64 (4 * n) ∧ ∀ r, (t.wave p).sget r = ((s.wave p).sput d v).sget r

/-! ### Codes of float formats, their values, and rounding, as the spec's text gives them (R82, R88 to R92, R332) -/

/-- The exponent field of a code. -/
def codeExp (f : Fmt) (c : Nat) : Nat := c / 2 ^ f.frac % 2 ^ (f.width - 1 - f.frac)

/-- The sign bit of a code. -/
def codeNeg (f : Fmt) (c : Nat) : Bool := c.testBit (f.width - 1)

/-- A code is a NaN: all exponent bits with a fraction, or in a narrow format the one code of only the sign bit (R82). -/
def codeNan (f : Fmt) (c : Nat) : Bool :=
  if f.ieee then codeExp f c == 2 ^ (f.width - 1 - f.frac) - 1 && c % 2 ^ f.frac != 0 else c == 2 ^ (f.width - 1)

/-- A signalling NaN: the top fraction bit is 0 (R82). -/
def codeSig (f : Fmt) (c : Nat) : Bool := f.ieee && codeNan f c && !c.testBit (f.frac - 1)

/-- An infinity. -/
def codeInf (f : Fmt) (c : Nat) : Bool := f.ieee && codeExp f c == 2 ^ (f.width - 1 - f.frac) - 1 && c % 2 ^ f.frac == 0

/-- A code of the format that is a number. -/
def codeFin (f : Fmt) (c : Nat) : Bool := decide (c < 2 ^ f.width) && !codeNan f c && !codeInf f c

/-- The value of such a code (R82). -/
def codeValue (f : Fmt) (c : Nat) : ℚ :=
  let m : ℚ := ((c % 2 ^ f.frac : ℕ) : ℚ) / 2 ^ f.frac
  (if codeNeg f c then -1 else 1) *
    (if codeExp f c = 0 then 2 ^ (1 - (f.bias : ℤ)) * m else 2 ^ ((codeExp f c : ℤ) - f.bias) * (1 + m))

/-- The value that an operand is read as: under FTZ a subnormal is a zero (R92). -/
def readValue (f : Fmt) (md : Mode) (c : Nat) : ℚ := if md.ftz && f.ieee && codeExp f c == 0 then 0 else codeValue f c

/-- The code that a minimum or maximum returns for an operand it chooses (R92, R140). -/
def readCode (f : Fmt) (md : Mode) (c : Nat) : Nat :=
  if md.ftz && f.ieee && codeExp f c == 0 then (if codeNeg f c then 2 ^ (f.width - 1) else 0) else c

/-- One operand's value lies below another's, infinities included; neither is a NaN. -/
def readBelow (f : Fmt) (md : Mode) (a b : Nat) : Bool :=
  let minus : Nat → Bool := fun c => codeInf f c && codeNeg f c
  let plus : Nat → Bool := fun c => codeInf f c && !codeNeg f c
  if minus a then !minus b else if plus b then !plus a else if codeInf f a || codeInf f b then false
  else decide (readValue f md a < readValue f md b)

/-- A zero of a sign; T8, W8 and T4 have one zero (R90). -/
def zeroCode (f : Fmt) (neg : Bool) : Nat := if f.ieee && neg then 2 ^ (f.width - 1) else 0

/-- An infinity of a sign. -/
def infCode (f : Fmt) (neg : Bool) : Nat :=
  (if neg then 2 ^ (f.width - 1) else 0) + (2 ^ (f.width - 1 - f.frac) - 1) * 2 ^ f.frac

/-- The number of largest magnitude of a sign. -/
def largestCode (f : Fmt) (neg : Bool) : Nat :=
  if f.ieee then infCode f neg - 1 else (if neg then 2 ^ (f.width - 1) else 0) + 2 ^ (f.width - 1) - 1

/-- The canonical NaN (R91). -/
def nanCode (f : Fmt) : Nat :=
  if f.ieee then (2 ^ (f.width - 1 - f.frac) - 1) * 2 ^ f.frac + 2 ^ (f.frac - 1) else 2 ^ (f.width - 1)

/-- What the format can represent with an unbounded exponent range and its own subnormal spacing (R88); `evenOn`: with its least
significant fraction bit 0. -/
def onGrid (f : Fmt) (y : ℝ) : Prop :=
  ∃ n q : ℤ, y = n * 2 ^ q ∧ |n| < 2 ^ (f.frac + 1) ∧ 1 - (f.bias : ℤ) - f.frac ≤ q
def evenOn (f : Fmt) (y : ℝ) : Prop :=
  ∃ n q : ℤ, y = 2 * n * 2 ^ q ∧ |2 * n| < 2 ^ (f.frac + 1) ∧ 1 - (f.bias : ℤ) - f.frac ≤ q

/-- The four roundings of R88 to a set of values. -/
def roundsTo (grid even : ℝ → Prop) (rnd : Nat) (x y : ℝ) : Prop :=
  grid y ∧
    match rnd with
    | 0 => (∀ z, grid z → |y - x| ≤ |z - x|) ∧ ((∃ z, grid z ∧ z ≠ y ∧ |z - x| = |y - x|) → even y)
    | 1 => |y| ≤ |x| ∧ 0 ≤ x * y ∧ ∀ z, grid z → |z| ≤ |x| → 0 ≤ x * z → |z| ≤ |y|
    | 2 => y ≤ x ∧ ∀ z, grid z → z ≤ x → z ≤ y
    | _ => x ≤ y ∧ ∀ z, grid z → x ≤ z → y ≤ z

/-- A nonzero exact result rounded into a format, with its conditions: overflow as R89 says, a tiny result under FTZ as R92 says,
inexact and underflow as R88 says. -/
def rounded (f : Fmt) (md : Mode) (x : ℝ) (r : Nat × BitVec 6) : Prop :=
  ∃ (y : ℝ) (neg : Bool), roundsTo (onGrid f) (evenOn f) md.rnd x y ∧ (neg = true ↔ x < 0) ∧
    let least : ℝ := 2 ^ (1 - (f.bias : ℤ))
    let largest : ℝ := (2 - 1 / 2 ^ f.frac) * 2 ^ ((2 ^ (f.width - 1 - f.frac) : ℤ) - (if f.ieee then 2 else 1) - f.bias)
    let tiny : Prop := y ≠ 0 ∧ |y| < least
    let flush : Prop := md.ftz = true ∧ f.ieee = true ∧ tiny
    (largest < |y| → r =
      if f.ieee then (if md.rnd = 0 ∨ (md.rnd = 2 ∧ neg = true) ∨ (md.rnd = 3 ∧ neg = false) then infCode f neg else largestCode f neg, fOF ||| fNX)
      else if md.sat then (largestCode f neg, fOF ||| fNX ||| fSAT) else (nanCode f, fOF ||| fNX)) ∧
    (|y| ≤ largest → flush → r = (zeroCode f neg, fUF ||| fNX)) ∧
    (|y| ≤ largest → ¬flush → codeFin f r.1 = true ∧ (codeValue f r.1 : ℝ) = y ∧ (f.ieee = true → codeNeg f r.1 = neg) ∧
      (y = x → r.2 = 0) ∧ (y ≠ x → tiny → r.2 = fUF ||| fNX) ∧ (y ≠ x → ¬tiny → r.2 = fNX))

/-- The rounded sum of terms, each with its sign and its exact value; the sign of an exact zero (R332). -/
def sumRounds (f : Fmt) (md : Mode) (ts : List (Bool × ℚ)) (r : Nat × BitVec 6) : Prop :=
  let x := (ts.map (·.2)).sum
  (x ≠ 0 → rounded f md x r) ∧
  (x = 0 → ∃ neg, r = (zeroCode f neg, 0) ∧
    ((∀ t ∈ ts, t.2 = 0 ∧ t.1 = neg) ∨ ((∀ sg, ∃ t ∈ ts, t.2 ≠ 0 ∨ t.1 ≠ sg) ∧ neg = decide (md.rnd = 2))))

/-- An operand as a term, and the exact product of two. -/
def termOf (f : Fmt) (md : Mode) (c : Nat) : Bool × ℚ := (codeNeg f c, readValue f md c)
def termMul (a b : Bool × ℚ) : Bool × ℚ := (a.1 != b.1, a.2 * b.2)
def termNeg (a : Bool × ℚ) : Bool × ℚ := (!a.1, -a.2)

/-- An f32 code times a power of two, rounded to nearest even (R256, R258). -/
def scaledBy (k : ℤ) (c c' : Nat) : Prop := ∃ fl, sumRounds f32 {} [(codeNeg f32 c, codeValue f32 c * 2 ^ k)] (c', fl)

/-- An operand of a sum or product with its special values (R91): no addend is a NaN, an addend without a value an infinity. -/
abbrev Addend := Option (Bool × Option ℚ)

def addendOf (f : Fmt) (c : Nat) : Addend :=
  if codeNan f c then none else some (codeNeg f c, if codeInf f c then none else some (codeValue f c))

def Addend.neg (a : Addend) : Addend := a.map (fun x => (!x.1, x.2.map (- ·)))

def Addend.mul (a b : Addend) : Addend :=
  match a, b with
  | some (n, some x), some (m, some y) => some (n != m, some (x * y))
  | some (n, none), some (m, some y) => if y = 0 then none else some (n != m, none)
  | some (n, some x), some (m, none) => if x = 0 then none else some (n != m, none)
  | some (n, none), some (m, none) => some (n != m, none)
  | _, _ => none

/-- The quotient by a divisor that is not zero. -/
def Addend.div (a b : Addend) : Addend :=
  match a, b with
  | some (n, some x), some (m, some y) => some (n != m, some (x / y))
  | some (n, none), some (m, some _) => some (n != m, none)
  | some (n, some _), some (m, none) => some (n != m, some 0)
  | _, _ => none

/-- The code of a rounded sum in a mode: NaN from a NaN or from infinities of both signs, else an infinity, else the exact sum rounded
once (R91, R94, R332). -/
def sumsTo (f : Fmt) (md : Mode) (ts : List Addend) (c : Nat) : Prop :=
  (none ∈ ts ∨ (some (false, none) ∈ ts ∧ some (true, none) ∈ ts) → c = nanCode f) ∧
  (none ∉ ts → ∀ n, some (n, none) ∈ ts → some (!n, none) ∉ ts → c = infCode f n) ∧
  ∀ vs : List (Bool × ℚ), ts = vs.map (fun v => some (v.1, some v.2)) → ∃ fl, sumRounds f md vs (c, fl)

/-- The conditions that some active lanes raise together. -/
def raised (m : LaneMask) (lane : Nat → Word × BitVec 6) : BitVec 6 := (lanesOf m).foldl (fun a l => a ||| (lane l).2) 0

end Sys2Proof.Machine
end

