-- ==== Sys2Proof/Certificates/Slice0/Obligations.lean ====
section
/-! DEFINITION. The statements for the provers. Each docstring cites the rules it formalises; a statement that rests on a
choice of the model names the log entry. -/

section
open Sys2Proof Sys2Proof.Machine

/-! ### Decoding and fetch -/

/-- Decoding the bytes of an encoded well-formed instruction gives it back, and the bytes after it (R62, R70, R73, R81). -/
def Obligations.DecodeOfEncodeIsIdentity : Prop :=
  ∀ (i : Instr) (rest : List Byte), i.wf = true → encode i ≠ [] →
    decodeBytes ((encode i).flatMap (fun w => leBytes 4 w.toNat) ++ rest) = .ok (i, rest)

/-- Words written out from the encoding tables decode to the instructions they stand for (R70 to R75, R81). -/
def Obligations.SampleWordsDecode : Prop :=
  -- SADD s3, s4, s5
  decodeBytes [0x05, 0x04, 0x03, 0x30] = .ok (.sadd 3 4 5, []) ∧
  -- VLDW v2, v1, s6:s7, scaled index 1
  decodeBytes [0x19, 0x01, 0x02, 0x92] = .ok (.vldw 2 1 3 1, []) ∧
  -- BRA two words back
  decodeBytes [0xFE, 0xFF, 0x3F, 0x0C] = .ok (.bra 0 (BitVec.ofInt 22 (-2)), []) ∧
  -- XATM v1, v2, v3 through w4, add: two words
  decodeBytes [0x04, 0x02, 0x01, 0x84, 0x00, 0x00, 0x03, 0xDF] = .ok (.xatm 1 2 3 (.handle 4) 0, []) ∧
  -- CPIN with the block at s8, tag 5, common slots
  decodeBytes [0x00, 0x54, 0x20, 0xA0] = .ok (.cpin 8 5 .common, []) ∧
  -- a header word in a body, and an opcode that is not defined
  decodeBytes [0x00, 0x00, 0x00, 0xF0] = .error .headerInBody ∧ decodeBytes [0x00, 0x00, 0x00, 0x00] = .error .undefinedOpcode

/-- Nothing decodes but the words that the encoder gives for a well-formed instruction: a nonzero reserved bit, a reserved value or a
register beyond its range is refused. An undefined opcode, a reserved tool opcode, a header word in a body, an operand word out of its
place, and a form whose operand word is missing are refused with their errors. A clause decodes only under a header with its four top
bits set, no reserved bit and no set field of 12 to 14; its words then decode one after another, a clause-ending form stands last, and
there are at most two long-latency operations, each returning one in native mode with a flag (R63, R65, R70, R73, R75, R80, R81). -/
def Obligations.DecodeRefuses : Prop :=
  (∀ (bs : List Byte) (i : Instr) (rest : List Byte), decodeBytes bs = .ok (i, rest) →
      i.wf = true ∧ bs = (encode i).flatMap (fun w => leBytes 4 w.toNat) ++ rest) ∧
  (∀ (x : Word) (next : Option Word),
      let op := x.toNat / 2 ^ 24
      let among : List (Nat × Nat) → Prop := fun l => ∃ r ∈ l, r.1 ≤ op ∧ op ≤ r.2
      (among [(0x00, 0x00), (0x2A, 0x2F), (0x46, 0x4F), (0x75, 0x77), (0x8C, 0x8F), (0x9F, 0x9F), (0xAA, 0xAF), (0xB7, 0xB7), (0xCA, 0xDE),
          (0xE8, 0xEF)] → decodeInstr x next = .error .undefinedOpcode) ∧
      (among [(0xE3, 0xE7)] → decodeInstr x next = .error .reservedTool) ∧
      (among [(0xDF, 0xDF)] → decodeInstr x next = .error .operandWord) ∧
      (among [(0xF0, 0xFF)] → decodeInstr x next = .error .headerInBody) ∧
      ∀ i, decodeInstr x next = .ok (i, 2) → (∃ y : Word, next = some y ∧ y.toNat / 2 ^ 24 = 0xDF) ∧
        decodeInstr x none = .error .operandWord ∧ ∀ y : Word, y.toNat / 2 ^ 24 ≠ 0xDF → decodeInstr x (some y) = .error .operandWord) ∧
  ∀ (native : Bool) (hw : Word) (body : List Word) (l : List (Nat × Instr)), decodeClause native hw body = .ok l →
    let ws := body.take (hw.toNat / 16 % 16 + 1)
    let set : Nat → Nat := fun n => hw.toNat / 2 ^ n % 16
    let long := l.filter (fun e => e.2.long)
    hw.toNat / 2 ^ 28 = 15 ∧ hw.getLsbD 3 = false ∧ hw.getLsbD 0 = false ∧ (∀ n ∈ [12, 8], set n < 12 ∨ set n = 15) ∧
    (∀ j < ws.length, ∃ i, (j + 1, i) ∈ l ∨ ((j, i) ∈ l ∧ (encode i).length = 2)) ∧
    (∀ k i, (k, i) ∈ l → 1 ≤ k ∧ ∃ x c, ws[k - 1]? = some x ∧ decodeInstr x ws[k]? = .ok (i, c) ∧
      (i.ending = true → k + c = ws.length + 1)) ∧
    long.length ≤ 2 ∧
    (native = true → ∀ (j k : Nat) (i : Instr), long[j]? = some (k, i) → i.returning = true → set (if j = 0 then 12 else 8) ≠ 15)

/-- When the turn falls to a wave for which no trap waits, the step is the issue of its clause where it stands at a header, and inside a
clause exec of the instruction to which the word at its program counter decodes, on the state after time has passed; on a next state it
adds what an issue leaves in the scheduler (R63, R271). Until then no register, program counter, mode or byte of memory has changed.
A word whose registers meet in a bank is collected first, for a cycle more with each row beyond the first that a beat reads from a bank
(R42): the turn that begins the collection, whatever lanes are active, is the model's choice (log entry 98). -/
def Obligations.StepRunsDecodedInstruction : Prop :=
  ∀ (s u : State) (p : Nat), s.elapse.chosen = .wave p → u = { s.elapse.begin (.wave p) with cur := p } →
    (s.sameStorage u ∧ ∀ q, (u.wave q).pc = (s.wave q).pc ∧ (u.wave q).k = (s.wave q).k ∧ (u.wave q).md = (s.wave q).md ∧
      (u.wave q).status = (s.wave q).status ∧ ∀ r, (u.wave q).sget r = (s.wave q).sget r) ∧
    ((u.wave p).trap = none → (u.wave p).unfinished = true ∨
        (∀ d ∈ (u.wave p).due, u.nativeOf p = true ∧ (d.closed = false ∨ (u.wave p).hnd = true)) →
      ((u.wave p).k = 0 → step s = exec (.clauseIssue p) u) ∧
      ∀ (x : Word) (i : Instr) (n : Nat), (u.wave p).k ≠ 0 →
        (u.wave p).body[(u.wave p).k - 1]? = some x → decodeInstr x (u.wave p).body[(u.wave p).k]? = .ok (i, n) →
        (bankConflict i = true → (u.wave p).gathered = false → step s = .next (u.gather p (collectCycles i))) ∧
        (bankConflict i = false ∨ (u.wave p).gathered = true →
          (∀ t, exec i u = .next t → step s = .next (t.afterIssue u p (Instr.portCycles i))) ∧
          (∀ f, exec i u = .fault f → step s = .fault f) ∧ ∀ r, exec i u = .refused r → step s = .refused r))

/-! ### Structured regions and branches -/

/-- ELSE and ENDIF set the counters of the present lanes as R107 and R108 say, BRK and CONT as R111 says, CONT with the continue bits
of the active lanes; NOP (R114) and PATCH (R80) set none; each moves to the next word and changes nothing else. A LOOP whose count is
0 goes to its target and opens nothing; ENDL and LEND go back while a lane runs (and ENDL's counter lasts), else they close the region
and go on (R109, R110). Before ENDL or LEND tests whether a lane runs, a present lane with its continue bit at counter 1 runs the
next pass: its counter becomes 0 and its bit clears; every other lane keeps both (R109). -/
def Obligations.CounterAndLoopForms : Prop :=
  (∀ (s : State) (i : Instr) (f : BitVec 6 → BitVec 6) (cont : LaneMask),
      (match i with
       | .nop => f = id ∧ cont = s.me.cont
       | .patch _ => f = id ∧ cont = s.me.cont
       | .elseFlip => f = (fun c => if c = 0 then 1 else if c = 1 then 0 else c) ∧ cont = s.me.cont
       | .endIf => f = (fun c => if c = 0 then 0 else c - 1) ∧ cont = s.me.cont
       | .brk n => f = (fun c => if c = 0 then BitVec.ofNat 6 (n + 1) else c) ∧ cont = s.me.cont
       | .cont n => f = (fun c => if c = 0 then BitVec.ofNat 6 (n + 1) else c) ∧ cont = s.me.cont ||| s.me.activeMask
       | _ => False) →
      s.me.status = .running →
      ∃ t cnt, exec i s = .next t ∧ s.becomes t { s.me.advance 1 with cnt := cnt, cont := cont } ∧
        ∀ l, cnt.get 0 l = if l < 96 ∧ s.me.present.getLsbD l then f (s.me.cnt.get 0 l) else s.me.cnt.get 0 l) ∧
  (∀ (s : State), s.me.status = .running →
      (∀ k a disp, s.ready [] [a] → s.me.sget a = 0 →
        ∃ t, exec (.loop k a disp) s = .next t ∧ s.becomes t (s.me.jump (s.me.pc + disp.signExtend 64 * 4))) ∧
      (∀ k disp, ∃ t, exec (.endl k disp) s = .next t ∧ s.becomes t
        (if 1 < (s.me.lc.get 0 k).toNat ∧ s.me.revive.activeMask ≠ 0 then
          { s.me.revive.jump (s.me.pc + disp.signExtend 64 * 4) with lc := s.me.lc.set 0 k (s.me.lc.get 0 k - 1) }
         else { s.me.revive.closeRegion.jump (s.me.pc + 4) with lc := s.me.lc.set 0 k 0 })) ∧
      (∀ h disp, ∃ t, exec (.lend h disp) s = .next t ∧ s.becomes t
        (if s.me.revive.activeMask ≠ 0 then s.me.revive.jump (s.me.pc + disp.signExtend 64 * 4)
         else s.me.revive.closeRegion.jump (s.me.pc + 4)))) ∧
  (∀ (w : Wave) (l : Nat), l < 96 →
      let again := w.present.getLsbD l = true ∧ w.cont.getLsbD l = true ∧ w.cnt.get 0 l = 1
      (again → w.revive.cnt.get 0 l = 0 ∧ w.revive.cont.getLsbD l = false) ∧
      (¬again → w.revive.cnt.get 0 l = w.cnt.get 0 l ∧ w.revive.cont.getLsbD l = w.cont.getLsbD l))

/-- IF, IFM, LOOP with a count, and LBEG open a region: lanes that leave execution get 1 and lanes outside count one more, unless
a present lane stands at 63, which halts the context with cause 0x0011 and leaves counters, loop counters, flags, pc and every element
as they were (R26, R107, R108, R109, R110). -/
def Obligations.RegionFormsOpen : Prop :=
  ∀ (s : State) (i : Instr) (leaves : Nat → Bool) (w : Wave),
    (match i with
     | .ifOpen a cc => leaves = (fun l => !ccTest cc (s.vget s.cur a l)) ∧ w = s.me.advance 1 ∧
         s.ready [a] [] ∧ s.clear [(a, s.me.activeMask)] [] ∧ s.clean [(a, s.me.activeMask)]
     | .ifm a inv => leaves = (fun l => (s.me.sget (a + l / 32)).getLsbD (l % 32) == inv) ∧ w = s.me.advance 1 ∧ s.ready [] [a, a + 1, a + 2]
     | .loop k a _ => leaves = (fun _ => false) ∧ w = { s.me.jump (s.me.pc + 4) with lc := s.me.lc.set 0 k (s.me.sget a) } ∧
         s.ready [] [a] ∧ s.me.sget a ≠ 0
     | .lbeg => leaves = (fun _ => false) ∧ w = s.me.jump (s.me.pc + 4) ∧ s.ready [] []
     | _ => False) →
    ((∀ l < 96, s.me.present.getLsbD l = true → s.me.cnt.get 0 l ≠ 63) →
      ∃ t cnt, exec i s = .next t ∧ t.wave s.cur = { w with cnt := cnt } ∧ (∀ a, t.byte a = s.byte a) ∧ (∀ k, t.elem k = s.elem k) ∧
        ∀ l, cnt.get 0 l = if l < 96 ∧ s.me.present.getLsbD l then
          (if s.me.cnt.get 0 l ≠ 0 then s.me.cnt.get 0 l + 1 else if leaves l then 1 else 0) else s.me.cnt.get 0 l) ∧
    ((∃ l < 96, s.me.present.getLsbD l = true ∧ s.me.cnt.get 0 l = 63) → s.runOf s.cur = .original →
      ∃ t, exec i s = .next t ∧ s.halted t 0x11 0 0 0 ∧ (t.wave s.cur).cnt = s.me.cnt ∧ (t.wave s.cur).lc = s.me.lc ∧
        (t.wave s.cur).flg = s.me.flg ∧ ∀ k, t.elem k = s.elem k)

/-- Branches, calls, the trampoline forms and returns move to their targets; CALL, CALLX and TRMP leave the address of the next word in
their link pair; BRX, CALLX and RET halt with cause 0x0010, detail 0x04, where the target is no multiple of 4 (R74, R112, R113,
R119). The conditions of BRC (R112). -/
def Obligations.BranchFormsComplete : Prop :=
  (∀ (s : State) (i : Instr) (names : List Nat) (w : Wave) (target : DWord),
      (match i with
       | .bra _ disp => names = [] ∧ w = s.me ∧ target = s.me.pc + disp.signExtend 64 * 4
       | .brc c a disp => names = brReads c a ∧ w = s.me ∧
           target = if s.me.branchTaken c a then s.me.pc + disp.signExtend 64 * 4 else s.me.pc + 4
       | .brx q => names = [2 * q, 2 * q + 1] ∧ w = s.me ∧ target = s.me.pair (2 * q)
       | .call k disp => names = [2 * k, 2 * k + 1] ∧ w = s.me.putPair (2 * k) (s.me.pc + 4) ∧ target = s.me.pc + disp.signExtend 64 * 4
       | .callx k q => names = [2 * k, 2 * k + 1, 2 * q, 2 * q + 1] ∧ w = s.me.putPair (2 * k) (s.me.pc + 4) ∧ target = s.me.pair (2 * q)
       | .ret q => names = [2 * q, 2 * q + 1] ∧ w = s.me ∧ target = s.me.pair (2 * q)
       | .trmp _ disp => names = [52, 53] ∧ s.me.trb = false ∧ w = { s.me.putPair 52 (s.me.pc + 4) with trb := true } ∧
           target = s.me.pc + disp.signExtend 64 * 4
       | .trmpr _ disp => names = [] ∧ w = { s.me with trb := false } ∧ target = s.me.pc + disp.signExtend 64 * 4
       | _ => False) →
      s.ready [] names →
      ((∀ q, (i = .brx q ∨ i = .ret q ∨ ∃ k, i = .callx k q) → target.toNat % 4 = 0) →
        ∃ t, exec i s = .next t ∧ s.becomes t (w.jump target)) ∧
      ((∃ q, i = .brx q ∨ i = .ret q ∨ ∃ k, i = .callx k q) → target.toNat % 4 ≠ 0 → s.runOf s.cur = .original →
        ∃ t, exec i s = .next t ∧ (t.wave s.cur).status = .halted ∧ (t.wave s.cur).pc = s.me.pc ∧ (t.wave s.cur).stop = some (0x10, 4, 0, 0))) ∧
  (∀ (w : Wave) (a : Nat),
      (w.branchTaken .none a = true ↔ ∀ l < 96, ¬(w.present.getLsbD l = true ∧ w.cnt.get 0 l = 0)) ∧
      (w.branchTaken .any a = true ↔ ∃ l < 96, w.present.getLsbD l = true ∧ w.cnt.get 0 l = 0) ∧
      (w.branchTaken .all a = true ↔ ∀ l < 96, w.present.getLsbD l = true → w.cnt.get 0 l = 0) ∧
      (w.branchTaken .z a = true ↔ w.sget a = 0) ∧ (w.branchTaken .nz a = true ↔ w.sget a ≠ 0) ∧
      (w.branchTaken .neg a = true ↔ (w.sget a).toInt < 0) ∧ (w.branchTaken .pos a = true ↔ 0 < (w.sget a).toInt))

/-- EXIT takes the active lanes out of presence and existence; a wave with no lane left ends, and PPT goes on, stopping only where a
pre-emption is asked for (R24, R114, R286). EVPUB publishes the block's event once its wave's memory writes are performed, with the error flag where the block has one, and
has no effect in a launch without events, a task wave, a replay, or a block that has published (R124, R269). -/
def Obligations.EndingFormsComplete : Prop :=
  (∀ (s : State), s.me.status = .running →
      (∃ t, exec .exit s = .next t ∧
        (s.me.present &&& ~~~s.me.activeMask ≠ 0 →
          s.becomes t { s.me.advance 1 with present := s.me.present &&& ~~~s.me.activeMask, exist := s.me.exist &&& ~~~s.me.activeMask }) ∧
        (s.me.present &&& ~~~s.me.activeMask = 0 → (t.wave s.cur).status = .ended)) ∧
      ∀ n, ∃ t, exec (.ppt n) s = .next t ∧
        s.becomes t { s.me.advance 1 with ppt := if (s.launch s.me.lid).preempt.isSome then some n else none }) ∧
  (∀ (s : State), s.me.status = .running → (s.block? s.me.blk).isSome = true →
      let b := s.block s.me.blk
      (b.run = .original → b.task = false → (s.launch b.lid).hdr.noev = false → b.published = false → s.idsOf s.cur 0x22 = [] →
        ∃ t, exec .evpub s = .next t ∧ t.wave s.cur = s.me.advance 1 ∧ (t.block b.id).published = true ∧
          (∀ e, t.events.get .clear e = if e = (s.launch b.lid).hdr.evb + b.index.toNat then (if b.err then .error else .done)
            else s.events.get .clear e) ∧ s.sameStorage t) ∧
      (b.run ≠ .original ∨ b.task = true ∨ (s.launch b.lid).hdr.noev = true ∨ b.published = true →
        ∃ t, exec .evpub s = .next t ∧ s.becomes t (s.me.advance 1)))

/-! ### Exceptions -/

/-- TRAP with an active lane enters the handler with cause 0x0001, its immediate, and the next word as resume word; BKPT does so with
cause 0x0002 where the launch has no debug; TRMP inside a trampoline with cause 0x0003 at its own word. Where no lane is active
TRAP and BKPT go on; a BKPT under debug stops the wave at the next word (R115, R116, R118, R119). -/
def Obligations.SoftwareTrapsComplete : Prop :=
  ∀ (s : State), s.me.status = .running → s.unlogged →
    (s.me.activeMask ≠ 0 → s.canEnter → ∀ imm : BitVec 16,
      (∃ t, exec (.trap imm) s = .next t ∧
        s.entered t { cause := 1, detail := imm.toNat, lanes := s.me.activeMask, addr := s.me.pc + 4, k := 0 }) ∧
      ((s.launch s.me.lid).hdr.dbg = false → ∃ t, exec (.bkpt imm) s = .next t ∧
        s.entered t { cause := 2, detail := imm.toNat, lanes := s.me.activeMask, addr := s.me.pc + 4, k := 0 })) ∧
    (s.me.trb = true → s.canEnter → ∀ h disp, ∃ t, exec (.trmp h disp) s = .next t ∧
        s.entered t { cause := 3, detail := 0, lanes := s.me.activeMask, addr := s.me.pc, k := s.me.k }) ∧
    (s.me.activeMask = 0 → ∀ imm, (∃ t, exec (.trap imm) s = .next t ∧ s.becomes t (s.me.jump (s.me.pc + 4))) ∧
      ∃ t, exec (.bkpt imm) s = .next t ∧ s.becomes t (s.me.jump (s.me.pc + 4))) ∧
    (s.me.activeMask ≠ 0 → (s.launch s.me.lid).hdr.dbg = true → ∀ imm, ∃ t, exec (.bkpt imm) s = .next t ∧
      s.becomes t { s.me.jump (s.me.pc + 4) with debug := true, reasons := 0x100 })

/-- Without a handler a trap halts the context with its own cause and detail; inside the handler with cause 0x0023 and the trap's
cause as detail; RTE outside a handler halts with cause 0x0024 (R115, R117). SMULH under f32, and a vector form under a type it does not accept, halt the context with cause 0x0013 and the type's code as
detail (R135). An access that is not a multiple of its size halts the context with cause 0x0015 and the size as detail; else one at or beyond 2^57
halts it with cause 0x0016: in both the lowest such lane and its address are reported (R72, R173). -/
def Obligations.FormsThatHalt : Prop :=
  (∀ (s : State) (imm : BitVec 16), s.me.status = .running → s.runOf s.cur = .original →
      (s.me.activeMask ≠ 0 → s.trapVector s.cur = 0 → ∃ t, exec (.trap imm) s = .next t ∧ s.halted t 1 imm.toNat 0 s.me.activeMask) ∧
      (s.me.activeMask ≠ 0 → s.trapVector s.cur ≠ 0 → s.me.hnd = true →
        ∃ t, exec (.trap imm) s = .next t ∧ s.halted t 0x23 1 0 s.me.activeMask) ∧
      (s.me.hnd = false → ∃ t, exec .rte s = .next t ∧ s.halted t 0x24 0 0 0)) ∧
  (∀ (s : State), s.me.status = .running → s.runOf s.cur = .original →
      (typeOf s.me.md = .f32 → ∀ d a b, ∃ t, exec (.smulh d a b) s = .next t ∧ s.halted t 0x13 2 0 0) ∧
      (∀ i r, vectorTyped s i = some r → r.ok (typeOf s.me.md) = false →
        ∃ t, exec i s = .next t ∧ s.halted t 0x13 (typeOf s.me.md).code 0 0) ∧
      ∀ i d a f, specialOf s.me i = some (d, a, f) → (typeOf s.me.md ≠ .f32 ∧ typeOf s.me.md ≠ .f16x2 ∧ typeOf s.me.md ≠ .b16x2) →
        ∃ t, exec i s = .next t ∧ s.halted t 0x13 (typeOf s.me.md).code 0 0) ∧
  (∀ (s : State) (i : Instr) (f : MemoryForm) (pre post : List (Nat × DWord × DWord)) (x : Nat × DWord × DWord), memoryOf s i = some f →
      s.ready (f.srcs ++ (State.regsOfDest f.dst).1) f.scals → s.runOf s.cur = .original →
      s.fenced s.cur (match f.kind with | .load => 1 | .store => 2 | _ => 3) = false → s.canIssue f.dst →
      s.clear (s.inActive f.srcs) (s.inActive (State.regsOfDest f.dst).1) → s.writesOut s.cur = false → f.accesses = pre ++ x :: post →
      let lanes : LaneMask := if f.scalar then 0 else 1 <<< x.1
      ((∀ y ∈ pre, y.2.1.toNat % f.size = 0) → x.2.1.toNat % f.size ≠ 0 →
        ∃ t, exec i s = .next t ∧ s.halted t 0x15 f.size x.2.1 lanes) ∧
      ((∀ y ∈ f.accesses, y.2.1.toNat % f.size = 0) → (∀ y ∈ pre, y.2.1.toNat < 2 ^ 57) → 2 ^ 57 ≤ x.2.1.toNat →
        ∃ t, exec i s = .next t ∧ s.halted t 0x16 0 x.2.1 lanes))

/-- RTE in a handler restores the counters and continue bits from v255 and md from s59, clears HND, and goes on at the word that
s56:s57 names: at a header, or inside the clause that is fetched again; one whose fetch misses waits and has changed no register, element or row (R117, R228). A return right after a trap's entry gives the wave back its counters, its continue bits, its md and the word after the trap
(R116, R117). A reserved md in s59 halts with cause 0x0012, else s57 bits 26:25 other than 0 or a body index above 16 with detail 0x04, before v255
is read (R87, R117); so do s56 bits 1:0 other than 0, for every index: the model's choice (log entry 135). -/
def Obligations.RteComplete : Prop :=
  (∀ (s : State) (a : DWord) (k : Nat), s.me.hnd = true → s.ready [255] [56, 57, 59] → s.clear [(255, allLanes)] [] →
      s.clean [(255, allLanes)] → mdLegal ((s.me.sget 59).setWidth 16) = true →
      s.me.pair 56 = resumeWord a k → a.toNat < 2 ^ 57 → a.toNat % 4 = 0 → k ≤ 16 →
      (k = 0 ∨ ∃ hdr body l u,
        s.fetchClause s.cur (a - BitVec.ofNat 64 (4 * k)) = (.ok hdr body, u) ∧
        decodeClause (u.nativeOf s.cur) hdr body = .ok l ∧ ∃ i, (k, i) ∈ l) →
      ∃ t, exec .rte s = .next t ∧
        (t.wave s.cur).pc = a ∧ (t.wave s.cur).k = k ∧ (t.wave s.cur).md = (s.me.sget 59).setWidth 16 ∧ (t.wave s.cur).hnd = false ∧
        (∀ l < 96, (t.wave s.cur).cnt.get 0 l = (s.vget s.cur 255 l).setWidth 6 ∧
          (t.wave s.cur).cont.getLsbD l = (s.vget s.cur 255 l).getLsbD 6) ∧
        (∀ r < 64, (t.wave s.cur).sget r = s.me.sget r) ∧ (∀ x, t.elem x = s.elem x) ∧ ∀ x, t.byte x = s.byte x) ∧
  (∀ (s u : State) (a : DWord) (k va : Nat), s.me.hnd = true → s.ready [255] [56, 57, 59] → s.clear [(255, allLanes)] [] →
      s.clean [(255, allLanes)] → mdLegal ((s.me.sget 59).setWidth 16) = true →
      s.me.pair 56 = resumeWord a k → a.toNat < 2 ^ 57 → a.toNat % 4 = 0 → 0 < k → k ≤ 16 →
      s.fetchClause s.cur (a - BitVec.ofNat 64 (4 * k)) = (.stalled va, u) →
      ∃ t, exec .rte s = .next t ∧ (t.wave s.cur).pc = s.me.pc ∧ (t.wave s.cur).k = s.me.k ∧ (t.wave s.cur).hnd = true ∧
        (t.wave s.cur).missed = [va / 65536] ∧ t.rows = s.rows ∧ (∀ x, t.elem x = s.elem x) ∧ ∀ x, t.byte x = s.byte x) ∧
  (∀ (s t : State) (imm : BitVec 16), s.me.status = .running → s.unlogged → s.me.activeMask ≠ 0 → s.canEnter →
      mdLegal s.me.md = true → (s.me.pc + 4).toNat < 2 ^ 57 → s.me.pc.toNat % 4 = 0 →
      exec (.trap imm) s = .next t → t.clear [(255, allLanes)] [] →
      ∃ u, exec .rte t = .next u ∧ (u.wave s.cur).pc = s.me.pc + 4 ∧ (u.wave s.cur).k = 0 ∧ (u.wave s.cur).md = s.me.md ∧
        (u.wave s.cur).hnd = false ∧
        ∀ l < 96, (u.wave s.cur).cnt.get 0 l = s.me.cnt.get 0 l ∧ (u.wave s.cur).cont.getLsbD l = s.me.cont.getLsbD l) ∧
  ∀ (s : State), s.me.hnd = true → s.ready [] [56, 57, 59] → s.runOf s.cur = .original →
    let stops : Nat → Nat → Prop := fun cause detail => ∃ t, exec .rte s = .next t ∧ s.halted t cause detail 0 0 ∧ (∀ r, t.info r = s.info r) ∧
      ∀ k, t.elem k = s.elem k
    (mdLegal ((s.me.sget 59).setWidth 16) = false → stops 0x12 0) ∧
    (mdLegal ((s.me.sget 59).setWidth 16) = true →
      (bitsOf (s.me.pair 56).toNat 58 57 ≠ 0 ∨ 16 < bitsOf (s.me.pair 56).toNat 63 59 ∨ (s.me.sget 56).toNat % 4 ≠ 0) → stops 0x10 0x04)

/-! ### Modes and special registers -/

/-- MODE and MODES write md where its value is legal; MODES halts with cause 0x0012 where it is reserved (R87, R120), and a MODE with
such a value does not decode (R81, R87). WRSR writes FLG bits 5:0 or a loop counter; NSAV writes every lane's nesting to v(d); NRST takes the nesting of the present
lanes from v(a) (R121, R122). -/
def Obligations.ModeAndWriteFormsComplete : Prop :=
  (∀ (x : Word) (next : Option Word),
      (∀ m n, decodeInstr x next = .ok (.mode m, n) → m.toNat % 16 ≤ 11 ∧ m.toNat / 16384 = 0) ∧
      (x.toNat / 2 ^ 16 = 0x1700 → (12 ≤ x.toNat % 16 ∨ x.toNat / 16384 % 4 ≠ 0) → decodeInstr x next = .error .reservedBit)) ∧
  (∀ (s : State),
      (∀ m : BitVec 16, s.ready [] [] → m.toNat % 16 ≤ 11 → m.toNat / 16384 = 0 →
        exec (.mode m) s = .next (s.setWave s.cur { s.me.advance 1 with md := m })) ∧
      ∀ a, s.ready [] [a] →
        let m : BitVec 16 := (s.me.sget a).setWidth 16
        (m.toNat % 16 ≤ 11 → m.toNat / 16384 = 0 → exec (.modes a) s = .next (s.setWave s.cur { s.me.advance 1 with md := m })) ∧
        (¬(m.toNat % 16 ≤ 11 ∧ m.toNat / 16384 = 0) → s.runOf s.cur = .original → ∃ t, exec (.modes a) s = .next t ∧ s.halted t 0x12 0 0 0)) ∧
  (∀ (s : State),
      (∀ a, s.ready [] [a] →
        exec (.wrsr .flg a) s = .next (s.gives { s.me.advance 1 with flg := (s.me.sget a).setWidth 6 }) ∧
        ∀ k, exec (.wrsr (.lc k) a) s = .next (s.gives { s.me.advance 1 with lc := s.me.lc.set 0 k (s.me.sget a) })) ∧
      (∀ d, s.ready [d] [] → s.clear [] [(d, allLanes)] → ∃ t, exec (.nsav d) s = .next t ∧ t.wave s.cur = s.me.advance 1 ∧
        (∀ l < 96, t.vget s.cur d l = BitVec.ofNat 32 ((s.me.cnt.get 0 l).toNat + if s.me.cont.getLsbD l then 64 else 0)) ∧
        (∀ k, (∀ l < 96, k ≠ velem s.cur d l) → t.elem k = s.elem k) ∧ ∀ a, t.byte a = s.byte a) ∧
      ∀ a, s.ready [a] [] → s.clear [(a, s.me.present)] [] → s.clean [(a, s.me.present)] →
        ∃ t cnt cont, exec (.nrst a) s = .next t ∧ t.wave s.cur = { s.me.advance 1 with cnt := cnt, cont := cont } ∧
          ∀ l < 96, if s.me.present.getLsbD l then cnt.get 0 l = (s.vget s.cur a l).setWidth 6 ∧ cont.getLsbD l = (s.vget s.cur a l).getLsbD 6
            else cnt.get 0 l = s.me.cnt.get 0 l ∧ cont.getLsbD l = s.me.cont.getLsbD l)

/-- RDSR of a uniform register writes its value to s(d), a 64-bit one to s(d):s(d + 1); FLG once no returning operation is
outstanding (R99, R121). RDSR of WF0 to WF5, WID and LANE writes the active lanes of v(d), and of v(d + 1) for WID, and nothing else of the elements
(R121). -/
def Obligations.ReadSpecialComplete : Prop :=
  (∀ (s : State) (d : Nat) (sr : SpecReg) (v : DWord),
      s.ready [] (if sr = .clock ∨ sr = .blk then [d, d + 1] else [d]) → s.unlogged →
      (match sr with
       | .md => v = s.me.md.setWidth 64
       | .flg => v = s.me.flg.setWidth 64 ∧ s.returningOut s.cur = false
       | .lc k => v = (s.me.lc.get 0 k).setWidth 64
       | .wave => v = BitVec.ofNat 64 (s.me.num + 2 ^ 4 * s.me.role + 2 ^ 6 * (s.cur % 128) + 2 ^ 13 * s.me.pipe)
       | .core => v = BitVec.ofNat 64 (s.cur / 128 + 2 ^ 8 * (s.cur / 128 % 8) + 2 ^ 16 * (s.cur / 128 / 8))
       | .step => v = if s.nativeOf s.cur then 0xA1 else 0x100A1
       | .clock => v = s.clock
       | .gng => v = s.me.gng.setWidth 64
       | .stat => v = BitVec.ofNat 64 ((if s.me.hnd then 1 else 0) + (if s.me.trb then 2 else 0) + if s.me.abn then 4 else 0)
       | .lid => v = BitVec.ofNat 64 s.me.lid
       | .blk => v = blkOf (s.launch s.me.lid).hdr (s.block s.me.blk).task (s.block s.me.blk).index
       | .ilck => v = BitVec.ofNat 64 ((s.core (s.cur / 128)).locks.filter (fun x => x.1 == s.me.lid)).length
       | .wfield _ => False
       | .wid => False
       | .lane => False) →
      exec (.rdsr d sr) s = .next (s.gives
        (if sr = .clock ∨ sr = .blk then ((s.me.sput d (v.setWidth 32)).sput (d + 1) ((v >>> 32).setWidth 32)).advance 1
         else (s.me.sput d (v.setWidth 32)).advance 1))) ∧
  (∀ (s : State) (d : Nat) (sr : SpecReg) (lo hi : Nat → Word) (regs : List Nat),
      (match sr with
       | .wfield i => regs = [d] ∧ lo = (fun l => s.me.wf.get 0 (96 * i + l))
       | .wid => regs = [d, d + 1] ∧ lo = (fun l => (s.me.wid.get 0 l).setWidth 32) ∧ hi = (fun l => (s.me.wid.get 0 l >>> 32).setWidth 32)
       | .lane => regs = [d] ∧ lo = (fun l => BitVec.ofNat 32 l)
       | _ => False) →
      s.ready regs [] → s.clear [] (regs.map (fun r => (r, s.me.activeMask))) →
      ∃ t, exec (.rdsr d sr) s = .next t ∧ t.wave s.cur = s.me.advance 1 ∧ (∀ a, t.byte a = s.byte a) ∧
        (∀ l < 96, t.vget s.cur d l = if s.me.activeMask.getLsbD l then lo l else s.vget s.cur d l) ∧
        (sr = .wid → ∀ l < 96, t.vget s.cur (d + 1) l = if s.me.activeMask.getLsbD l then hi l else s.vget s.cur (d + 1) l) ∧
        ∀ k, (∀ r ∈ regs, ∀ l < 96, k ≠ velem s.cur r l) → t.elem k = s.elem k)

/-- In a logged block RDSR of WAVE, CORE, CLOCK, LID, ILCK or STEP also appends a KIND 8 entry of the wave's next SEQ to the block's log, 16 bytes
of header and 16 of data, and writes no other byte. A log region without room abandons the audit with ABR 2, an overrun buffer
with ABR 3; the instruction is the same (R121, R294, R301). The wave's earlier entries are in the region. Where a free place lies that
the entry takes is the model's choice (assumption 30: the lowest after the log's entries, else the lowest; none abandons with ABR 2),
and when the buffer overruns no rule says: a free value (assumption 19). -/
def Obligations.LoggedReadAppendsEntry : Prop :=
  ∀ (s : State) (d : Nat) (sr : SpecReg) (v : DWord) (j : Job),
    (match sr with
     | .wave => v = BitVec.ofNat 64 (s.me.num + 2 ^ 4 * s.me.role + 2 ^ 6 * (s.cur % 128) + 2 ^ 13 * s.me.pipe)
     | .core => v = BitVec.ofNat 64 (s.cur / 128 + 2 ^ 8 * (s.cur / 128 % 8) + 2 ^ 16 * (s.cur / 128 / 8))
     | .step => v = if s.nativeOf s.cur then 0xA1 else 0x100A1
     | .clock => v = s.clock
     | .lid => v = BitVec.ofNat 64 s.me.lid
     | .ilck => v = BitVec.ofNat 64 ((s.core (s.cur / 128)).locks.filter (fun x => x.1 == s.me.lid)).length
     | _ => False) →
    let b := s.block s.me.blk
    s.ready [] (if sr = .clock then [d, d + 1] else [d]) → b.run = .original → b.logging = true → s.job? b.job = some j → j.resolved = false →
    (∀ x ∈ j.log, x.wave = s.me.num → x.place.isSome = true) → (j.log.filter (fun x => x.wave == s.me.num)).length = s.me.seq →
    let lo := v.setWidth 32
    let w := if sr = .clock then ((s.me.sput d lo).sput (d + 1) ((v >>> 32).setWidth 32)).advance 1 else (s.me.sput d lo).advance 1
    let e : LogEntry := { kind := 8, wave := s.me.num, seq := s.me.seq, src := 0, data := if sr = .clock then [lo, (v >>> 32).setWidth 32] else [lo] }
    ∃ t, exec (.rdsr d sr) s = .next t ∧ (∀ k, t.elem k = s.elem k) ∧
      let gone : Nat → Prop := fun n => ((t.job? j.id).map (·.resolved)) = some true ∧ (t.block s.me.blk).logging = false ∧
        t.abr.get 0 n = s.abr.get 0 n + 1
      (s.logSize < s.logUsed + 32 → gone 2 ∧ t.wave s.cur = w) ∧
      (s.logUsed + 32 ≤ s.logSize → Config.loggerOverrun s.tick = true → gone 3 ∧ t.wave s.cur = w) ∧
      (s.logUsed + 32 ≤ s.logSize → Config.loggerOverrun s.tick = false →
        t.wave s.cur = { w with seq := s.me.seq + 1 } ∧ (s.logPlace j.id 32 = none → gone 2) ∧
        ∀ a, s.logPlace j.id 32 = some a →
          let place := s.logBase + a
          ((t.job? j.id).map (·.log)) = some (j.log ++ [{ e with place := some a }]) ∧
          a + 32 ≤ s.logSize ∧ (∀ x, x < place ∨ place + 32 ≤ x → t.byte x = s.byte x) ∧
          (place + 32 ≤ memTop →
            leNat (t.bytes place 16) = s.me.seq % 2 ^ 32 + 2 ^ 32 * (4 * e.data.length) + 2 ^ 52 * (s.me.num % 16) + 2 ^ 56 * 8 ∧
            leNat (t.bytes (place + 16) 16) = if sr = .clock then v.toNat else lo.toNat))

/-! ### Barriers, events, tasks, hints, locks, audit instructions -/

/-- BAR and BARA arrive at the current generation with their entry mask and what the wave must see performed; BAR then waits, and BARA
goes on. BARW gives 0 where the wave has not arrived, waits while the generation of its arrival is open, and else gives that
generation's status (R33, R123, R214; 0 where it never arrived is the model's choice, log entry 24). -/
def Obligations.BarrierFormsComplete : Prop :=
  ∀ (s : State), s.ready [] [] → (s.block? s.me.blk).isSome = true →
    (s.me.arrived ≠ some (s.block s.me.blk).gen → ∀ mask,
      let here : State → Prop := fun t =>
        let ids := s.idsOf s.cur 0xCF ++ ((s.bayCmds (coreOf s.cur)).filter (fun c => c.parties.contains s.cur)).map (·.id)
        (t.block s.me.blk).arrivals.get none s.me.num = some { mask := mask, ids := ids } ∧
        (t.wave s.cur).arrived = some (s.block s.me.blk).gen ∧ (∀ a, t.byte a = s.byte a) ∧ ∀ k, t.elem k = s.elem k
      (∃ t, exec (.bara mask) s = .next t ∧ here t ∧ (t.wave s.cur).pc = s.me.pc + 4 ∧ (t.wave s.cur).wait = s.me.wait) ∧
      ∀ d, s.ready [] [d] → ∃ t, exec (.bar d mask) s = .next t ∧ here t ∧ (t.wave s.cur).pc = s.me.pc ∧
        (t.wave s.cur).wait = .barrier d) ∧
    ∀ d, s.ready [] [d] →
      (s.me.arrived = none → exec (.barw d) s = .next (s.gives ((s.me.sput d 0).advance 1))) ∧
      (∀ g, s.me.arrived = some g → g ≠ (s.block s.me.blk).gen →
        let bad := match (s.block s.me.blk).abandoned with | some a => decide (a ≤ g) | none => false
        exec (.barw d) s = .next (s.gives { (s.me.sput d (if bad then 1 else 0)).advance 1 with abn := bad })) ∧
      (s.me.arrived = some (s.block s.me.blk).gen → ∃ t, exec (.barw d) s = .next t ∧ (t.wave s.cur).wait = .barrier d)

/-- LAUNCH with an aligned header address that translates for reading sends a request with the wave's context and queue, which is to
follow the wave's earlier writes, and waits for its status in s(sb + 3) (R125). TASK with an entry of the image, in a launch of one role of one wave without common slots or bays, enqueues one task for each active
lane in lane order, with v(r) to v(r + 15) as its record; s(sb + 2) gets 0 and s(sb + 3) the first number; any other TASK enqueues none and leaves s(sb + 3): status 3 where its
entry is no role entry of the image, else 2 in a launch of another shape, else 1 where its core's store of 4,096 lacks room, 0 with no
active lane (R30, R31, R126); that s(sb + 3) stays as it is with no active lane is the model's choice (log entry 87). -/
def Obligations.LaunchAndTaskForms : Prop :=
  (∀ (s : State) (sb pa : Nat), s.ready [] [sb, sb + 1, sb + 2, sb + 3] → s.runOf s.cur = .original → s.me.refused = false →
      (s.me.sget (sb + 2)).toNat < 16 → (s.me.pair sb).toNat % 256 = 0 → (s.me.pair sb).toNat < 2 ^ 57 →
      (s.translate (s.cur / 128) (s.launch s.me.lid).ctx (s.me.pair sb).toNat { rd := true }).1 = .pa pa →
      ∃ t r, exec (.launch sb) s = .next t ∧ t.launchReqs = s.launchReqs ++ [r] ∧ r.addr = some pa ∧
        r.queue = (s.me.sget (sb + 2)).toNat ∧ r.ctx = (s.launch s.me.lid).ctx ∧ r.source = .wave s.cur ∧ r.ids = s.idsOf s.cur 0x22 ∧
        (t.wave s.cur).wait = .launch r.id (sb + 3) ∧ (t.wave s.cur).pc = s.me.pc ∧ ∀ a, t.byte a = s.byte a) ∧
  (∀ (s : State) (sb r : Nat), s.ready ((List.range 16).map (r + ·)) [sb, sb + 1, sb + 2, sb + 3] → s.unlogged →
      s.clear ((List.range 16).map (fun j => (r + j, s.me.activeMask))) [] → s.clean ((List.range 16).map (fun j => (r + j, s.me.activeMask))) →
      s.me.activeMask ≠ 0 → ((s.me.sput (sb + 2) 0).sput (sb + 3) (BitVec.ofNat 32 (s.launch s.me.lid).tasks)).present ≠ 0 →
      s.taskStatus s.cur (s.me.pair sb) (lanesOf s.me.activeMask).length = 0 →
      ∃ t new, exec (.task sb r) s = .next t ∧ (t.core (s.cur / 128)).tasks = (s.core (s.cur / 128)).tasks ++ new ∧
        new.map (·.args) = (lanesOf s.me.activeMask).map (fun l => (List.range 16).map (fun j => s.vget s.cur (r + j) l)) ∧
        new.map (·.number) = (List.range (lanesOf s.me.activeMask).length).map (fun i => BitVec.ofNat 64 ((s.launch s.me.lid).tasks + i)) ∧
        (∀ x ∈ new, x.lid = s.me.lid ∧ x.entry = s.me.pair sb) ∧
        t.wave s.cur = ((s.me.sput (sb + 2) 0).sput (sb + 3) (BitVec.ofNat 32 (s.launch s.me.lid).tasks)).advance 1 ∧
        ∀ a, t.byte a = s.byte a) ∧
  (∀ (s : State) (sb r : Nat), s.ready ((List.range 16).map (r + ·)) [sb, sb + 1, sb + 2, sb + 3] → s.unlogged →
      s.clear ((List.range 16).map (fun j => (r + j, s.me.activeMask))) [] → s.clean ((List.range 16).map (fun j => (r + j, s.me.activeMask))) →
      let n := (lanesOf s.me.activeMask).length
      let h := (s.launch s.me.lid).hdr
      let known : Prop := ∃ i, s.imageOf? s.me.lid = some i ∧ ∃ x ∈ i.roles, (s.me.pair sb) = BitVec.ofNat 64 (i.base + x.entry)
      let single : Prop := h.csl = 0 ∧ h.bays = 0 ∧ ∃ x, h.roles = [x] ∧ x.waves = 1 ∧ (s.me.pair sb) = BitVec.ofNat 64 (h.img + x.entry)
      let room : Prop := (s.core (s.cur / 128)).tasks.length + n ≤ 4096
      let st : Nat → Prop := fun x => s.taskStatus s.cur (s.me.pair sb) n = x
      let w : Nat → Wave := fun x => s.me.sput (sb + 2) (BitVec.ofNat 32 x)
      (n = 0 → st 0) ∧ (n ≠ 0 → (¬known → st 3) ∧ (known → (¬single → st 2) ∧ (single → (¬room → st 1) ∧ (room → st 0)))) ∧
      ∀ x, st x → x ≠ 0 ∨ n = 0 → (w x).present ≠ 0 → ∃ t, exec (.task sb r) s = .next t ∧ t.wave s.cur = (w x).advance 1 ∧
        (t.core (s.cur / 128)).tasks = (s.core (s.cur / 128)).tasks ∧ ∀ a, t.byte a = s.byte a)

/-- YIELD and NAP move the wave to the pending set, NAP for its cycles; WAITF goes on when every named flag is zero and closes their
registers in native mode, and in interlocked mode when nothing is outstanding; ADRD gives the audit bits or ARATE; ADMIX folds its
lanes into the digest of an audited wave only, in program order with its other outputs (R77, R127, R128, R130, R295). FENCE goes on at once and holds the wave's later accesses of its successor classes until what is outstanding of its predecessor classes
is performed; what it still waited for before stays in force (R177). -/
def Obligations.HintsAndFenceComplete : Prop :=
  (∀ (s : State), s.ready [] [] →
      (∃ t, exec .yield s = .next t ∧ s.becomes t { s.me.advance 1 with active := false, readySince := s.clock }) ∧
      (∀ n, 0 < n → ∃ t, exec (.nap n) s = .next t ∧ (t.wave s.cur).pc = s.me.pc + 4 ∧ (t.wave s.cur).active = false ∧
        (t.wave s.cur).wait = .nap (s.clock + BitVec.ofNat 64 n) ∧ s.onlyMe t) ∧
      (∀ mask : BitVec 12, s.nativeOf s.cur = true → (∀ f < 12, mask.getLsbD f = true → s.me.flags.get 0 f = 0) →
        (∀ x ∈ s.me.due, if x.closed then s.me.hnd = true else ¬(x.flag < 12 ∧ mask.getLsbD x.flag = true)) →
        ∃ t, exec (.waitf mask) s = .next t ∧ s.becomes t { s.me.advance 1 with
          opens := s.me.opens.filter (fun o => !(decide (o.flag < 12) && mask.getLsbD o.flag)) }) ∧
      (∀ mask, s.nativeOf s.cur = false → s.longOut s.cur = false → ∃ t, exec (.waitf mask) s = .next t ∧ s.becomes t (s.me.advance 1)) ∧
      (∀ d sel, s.ready [] [d] → s.unlogged → exec (.adrd d sel) s = .next (s.gives ((s.me.sput d (if sel = 0 then (if (s.block s.me.blk).selected then 1 else 0)
          else BitVec.ofNat 32 (s.launch (s.block s.me.blk).lid).hdr.arate)).advance 1))) ∧
      (∀ a tag, s.ready [a] [] → s.clear [(a, s.me.activeMask)] [] → s.clean [(a, s.me.activeMask)] →
        (s.audited s.cur = true → ∀ o ∈ s.ops, o.party = s.cur → o.out = false) → ∃ t, exec (.admix a tag) s = .next t ∧ t.wave s.cur =
          (if (s.block s.me.blk).logging = false ∧ s.runOf s.cur = .original then s.me.advance 1
           else { s.me.advance 1 with digest := (lanesOf s.me.activeMask).foldl (fun r l =>
             crcRecord r (BitVec.ofNat 64 (0xFF00000000000000 + 256 * tag + l)) ((s.vget s.cur a l).setWidth 64)) s.me.digest }) ∧
          ∀ x, t.byte x = s.byte x)) ∧
  (∀ (s : State) (pred succ : BitVec 8) (sc : Scope), s.me.status = .running →
      ∃ t, exec (.fence pred succ sc) s = .next t ∧ s.onlyMe t ∧ (t.wave s.cur).pc = s.me.pc + 4 ∧
        ∀ cls : BitVec 8, t.fenced s.cur cls =
          (s.fenced s.cur cls || (succ &&& cls != 0 && (s.idsOf s.cur pred).any s.outstanding)))

/-- ILOCK locks the lines of a range of the launch's code pages where they fit into 128, and gives 0, else 1 or 2 and locks none; IUNLK
unlocks those lines and gives 0 (R129). -/
def Obligations.CodeLocksComplete : Prop :=
  ∀ (s : State) (sb : Nat), s.ready [] [sb, sb + 1, sb + 2, sb + 3] → s.unlogged →
    let a := (s.me.pair sb).toNat
    let n := (s.me.sget (sb + 2)).toNat
    let old := (s.core (s.cur / 128)).locks
    let new := ((linesOf a n).filter (fun x => !old.contains (s.me.lid, x))).map (fun x => (s.me.lid, x))
    let out := outsideCode (s.imageOf? s.me.lid) a n
    let w := s.me.sput (sb + 3) (if out then 2 else if 128 < old.length + new.length then 1 else 0)
    let v := s.me.sput (sb + 3) (if out then 2 else 0)
    (w.present ≠ 0 → ∃ t, exec (.ilock sb) s = .next t ∧ t.wave s.cur = w.advance 1 ∧
      (t.core (s.cur / 128)).locks = (if out ∨ 128 < old.length + new.length then old else old ++ new) ∧ s.sameStorage t) ∧
    (v.present ≠ 0 → ∃ t, exec (.iunlk sb) s = .next t ∧ t.wave s.cur = v.advance 1 ∧
      (t.core (s.cur / 128)).locks = (if out then old else old.filter (fun x => !(x.1 == s.me.lid && (linesOf a n).contains x.2))) ∧
      s.sameStorage t)

/-! ### Scalar forms -/

/-- A scalar form that ignores TYPE writes its result to s(d) in one lane-independent operation, sets no flag and goes to the next
word; nothing else changes, s63 discards the write, and the wave ends where the write leaves no lane (R24, R134, R136). A scalar form
that computes in the scalar type writes its result and ORs its conditions into flg; where md enables one of them it then traps with
cause 0x0004 at the next word, its lanes those active at issue (R97, R100, R134, R135). A form whose write leaves no lane ends its
wave (R24); that it then takes no trap is the model's choice (log entry 85). -/
def Obligations.ScalarFormsComplete : Prop :=
  (∀ (s : State) (i : Instr) (r : ScalarResult), scalarPlain s.me i = some r → s.ready [] r.names →
      exec i s = .next (s.gives ((s.me.sput r.d r.value).advance r.words))) ∧
  ∀ (s : State) (i : Instr) (r : ScalarResult), scalarTyped s.me i = some r → s.ready [] r.names →
    let w := { (s.me.sput r.d r.value).advance r.words with flg := s.me.flg ||| r.conds }
    (r.conds &&& s.me.enables = 0 ∨ w.present = 0 → exec i s = .next (s.gives w)) ∧
    (r.conds &&& s.me.enables ≠ 0 → w.present ≠ 0 → s.unlogged → (s.setWave s.cur w).canEnter →
      ∃ t, exec i s = .next t ∧ (s.setWave s.cur w).entered t
        { cause := 4, detail := topCond (r.conds &&& s.me.enables), lanes := s.me.activeMask, addr := w.pc, k := w.k,
          flags := (lanesOf s.me.activeMask).foldl (fun m l => m.set 0 l r.conds) [] })

/-- SADD, SSUB and SMUL of integers wrap modulo 2^32 and raise nothing without SAT (R89, R134, R139). In every integer type, scalar or
packed, a sum, difference or product outside the type's range wraps modulo 2^w without SAT, and with SAT clamps to the nearer end and
sets the saturation flag (R84, R85, R89). Element j of a packed word is bits w·j + w - 1 to w·j, and a form element by element gives
each element its result and joins the conditions (R85). -/
def Obligations.IntegerFormsComplete : Prop :=
  (∀ (s : State) (d a b : Nat), s.ready [] [d, a, b] → (typeOf s.me.md = .i32 ∨ typeOf s.me.md = .n32) → s.me.md.getLsbD 6 = false →
      exec (.sadd d a b) s = .next (s.gives ((s.me.sput d (s.me.sget a + s.me.sget b)).advance 1)) ∧
      exec (.ssub d a b) s = .next (s.gives ((s.me.sput d (s.me.sget a - s.me.sget b)).advance 1)) ∧
      exec (.smul d a b) s = .next (s.gives ((s.me.sput d (s.me.sget a * s.me.sget b)).advance 1))) ∧
  (∀ (md : Mode) (t : EType) (sg : Bool) (x y : Nat) (r : Nat × BitVec 6) (z : Int), kindOf t = .int sg → x < 2 ^ t.width → y < 2 ^ t.width →
      let val : Nat → Int := fun c => if sg = true ∧ 2 ^ (t.width - 1) ≤ c then (c : Int) - 2 ^ t.width else c
      let lo : Int := if sg then -2 ^ (t.width - 1) else 0
      let hi : Int := if sg then 2 ^ (t.width - 1) - 1 else 2 ^ t.width - 1
      ((r = addElem md t x y ∧ z = val x + val y) ∨ (r = subElem md t x y ∧ z = val x - val y) ∨
        (r = mulElem md t x y ∧ z = val x * val y)) →
      r.1 < 2 ^ t.width ∧
      (lo ≤ z ∧ z ≤ hi → val r.1 = z ∧ r.2 = 0) ∧
      (md.sat = true → (hi < z → val r.1 = hi ∧ r.2 = 0x20) ∧ (z < lo → val r.1 = lo ∧ r.2 = 0x20)) ∧
      (md.sat = false → (r.1 : Int) = z % 2 ^ t.width ∧ r.2 = 0)) ∧
  ∀ (t : EType) (f : Nat → Nat × BitVec 6), (∀ j < t.count, (f j).1 < 2 ^ t.width) →
    (∀ x : Word, ∀ j < t.count, part t x j = (x >>> (t.width * j)).toNat % 2 ^ t.width) ∧
    (∀ j < t.count, ((mapParts t f).1 >>> (t.width * j)).toNat % 2 ^ t.width = (f j).1) ∧
    ∀ c < 6, (mapParts t f).2.getLsbD c = true ↔ ∃ j < t.count, (f j).2.getLsbD c = true

/-- The float operations of an element on finite operands give the exact result rounded once by md's mode, with overflow, inexact,
underflow and flushed values as R88, R89 and R92 say, and an exact zero its sign as R332 says; a narrow format has one zero (R90). A NaN
gives the canonical NaN and raises invalid when signalling, as opposite infinities and 0 times an infinity do; an infinity gives an
infinity, in the third operand of a fused form too (R91). Minimum and maximum choose an operand's own bits, a NaN losing and -0 below +0 (R140); comparisons set all ones where
their relation holds, a NaN unordered (R144). VABS and VNEG change the sign bit only, but of a narrow zero or NaN. VDOT and VDOTA round
the exact sum of products and accumulator once into f32, or fit it to i32 (R95). -/
def Obligations.FloatArithmetic : Prop :=
  ∀ md : Mode, md.rnd < 4 →
    (∀ (t : EType) (f : Fmt) (nan : Nat), (t, f, nan) ∈ [(EType.f32, ⟨32, 23, 127, true⟩, 0x7FC00000), (.f16x2, ⟨16, 10, 15, true⟩, 0x7E00),
        (.b16x2, ⟨16, 7, 127, true⟩, 0x7FC0), (.t8x4, ⟨8, 3, 7, false⟩, 0x80), (.w8x4, ⟨8, 2, 15, false⟩, 0x80), (.t4x8, ⟨4, 1, 1, false⟩, 8)] →
      kindOf t = .flt f ∧ ∀ x y z : Nat, x < 2 ^ f.width → y < 2 ^ f.width → z < 2 ^ f.width →
        let fin : Nat → Prop := fun c => codeFin f c = true
        let tm := termOf f md
        let sig (l : List Nat) : BitVec 6 := if l.any (codeSig f) then fIV else 0
        let zeroTimesInf : Prop := (codeInf f x = true ∧ fin y ∧ readValue f md y = 0) ∨ (codeInf f y = true ∧ fin x ∧ readValue f md x = 0)
        (fin x → fin y → sumRounds f md [tm x, tm y] (addElem md t x y) ∧ sumRounds f md [tm x, termNeg (tm y)] (subElem md t x y) ∧
          sumRounds f md [termMul (tm x) (tm y)] (mulElem md t x y) ∧
          (fin z → sumRounds f md [termMul (tm x) (tm y), tm z] (fmaElem md t x y z))) ∧
        (codeNan f x = true ∨ codeNan f y = true → addElem md t x y = (nan, sig [x, y]) ∧ subElem md t x y = (nan, sig [x, y]) ∧
          mulElem md t x y = (nan, sig [x, y]) ∧ fmaElem md t x y z = (nan, sig [x, y, z])) ∧
        (zeroTimesInf → mulElem md t x y = (nan, fIV) ∧ fmaElem md t x y z = (nan, fIV)) ∧
        (codeNan f z = true → ¬zeroTimesInf → fmaElem md t x y z = (nan, sig [x, y, z])) ∧
        (codeInf f z = true → fin x → fin y → fmaElem md t x y z = (z, 0)) ∧
        ((codeInf f x = true ∨ codeInf f y = true) → codeNan f x = false → codeNan f y = false → codeNan f z = false → ¬zeroTimesInf →
          fmaElem md t x y z = if codeInf f z = true ∧ codeNeg f z ≠ (codeNeg f x != codeNeg f y) then (nan, fIV)
            else (infCode f (codeNeg f x != codeNeg f y), 0)) ∧
        (codeInf f x = true → fin y → addElem md t x y = (x, 0) ∧ subElem md t x y = (x, 0) ∧ addElem md t y x = (x, 0) ∧
          (readValue f md y ≠ 0 → mulElem md t x y = (infCode f (codeNeg f x != codeNeg f y), 0))) ∧
        (codeInf f x = true → codeInf f y = true → addElem md t x y = (if codeNeg f x = codeNeg f y then (x, 0) else (nan, fIV)) ∧
          subElem md t x y = (if codeNeg f x = codeNeg f y then (nan, fIV) else (x, 0)) ∧
          mulElem md t x y = (infCode f (codeNeg f x != codeNeg f y), 0)) ∧
        (∀ big : Bool, minmaxElem big md t x y =
          (if codeNan f x then (if codeNan f y then nan else readCode f md y) else if codeNan f y then readCode f md x
            else if readBelow f md x y then readCode f md (if big then y else x)
            else if readBelow f md y x then readCode f md (if big then x else y)
            else readCode f md (if codeNeg f x != big then x else y), sig [x, y])) ∧
        (∀ c : Cond,
          let lost := codeNan f x || codeNan f y
          let lt := readBelow f md x y
          let gt := readBelow f md y x
          let holds := match c with
            | .eq => !lost && !lt && !gt | .ne => lost || lt || gt | .lt => !lost && lt | .le => !lost && !gt
            | .gt => !lost && gt | .ge => !lost && !lt | .ord => !lost | .uno => lost
          cmpElem c md t x y = (if holds then 2 ^ f.width - 1 else 0, sig [x, y])) ∧
        (let keeps : Prop := f.ieee = false ∧ (x = 0 ∨ x = nan);
          (keeps → absElem md t x = (x, 0) ∧ negElem md t x = (x, 0)) ∧
          (¬keeps → absElem md t x = (x % 2 ^ (f.width - 1), 0) ∧
            negElem md t x = (x % 2 ^ (f.width - 1) + if codeNeg f x then 0 else 2 ^ (f.width - 1), 0)))) ∧
    (∀ (t : EType) (sg : Bool) (x y : Nat), kindOf t = .int sg → x < 2 ^ t.width → y < 2 ^ t.width →
      let val : Nat → Int := fun c => if sg = true ∧ 2 ^ (t.width - 1) ≤ c then (c : Int) - 2 ^ t.width else c
      (∀ big : Bool, minmaxElem big md t x y = (if (val x ≤ val y) ≠ (big = true) then x else y, 0)) ∧
      ∀ c : Cond,
        let holds : Bool := match c with
          | .eq => x = y | .ne => x ≠ y | .lt => val x < val y | .le => val x ≤ val y | .gt => val y < val x | .ge => val y ≤ val x
          | .ord => true | .uno => false
        cmpElem c md t x y = (if holds then 2 ^ t.width - 1 else 0, 0)) ∧
    ∀ (t : EType) (a b : Word) (acc : Option Word), t.count = 4 ∨ t.count = 8 →
      let el : Word → Nat → Nat := fun w j => (w >>> (t.width * j)).toNat % 2 ^ t.width
      let js := List.range t.count
      (∀ f, kindOf t = .flt f →
        let lost : Prop := (∃ j ∈ js, codeNan f (el a j) = true ∨ codeNan f (el b j) = true) ∨ ∃ c ∈ acc, codeNan f32 c.toNat = true
        (lost → dotLane md t a b acc = (0x7FC00000, if acc.any (fun c => codeSig f32 c.toNat) then fIV else 0)) ∧
        (¬lost → (∀ c ∈ acc, codeInf f32 c.toNat = true → dotLane md t a b acc = (c, 0)) ∧
          ((∀ c ∈ acc, codeInf f32 c.toNat = false) → let r := dotLane md t a b acc
            sumRounds f32 md (js.map (fun j => termMul (termOf f {} (el a j)) (termOf f {} (el b j))) ++
              acc.toList.map (fun c => termOf f32 md c.toNat)) (r.1.toNat, r.2)))) ∧
      ∀ sg, kindOf t = .int sg →
        let val : Nat → Int := fun c => if sg = true ∧ 2 ^ (t.width - 1) ≤ c then (c : Int) - 2 ^ t.width else c
        let z := (acc.map BitVec.toInt).getD 0 + (js.map (fun j => val (el a j) * val (el b j))).sum
        dotLane md t a b acc =
          if -2 ^ 31 ≤ z ∧ z < 2 ^ 31 then (BitVec.ofInt 32 z, 0)
          else if md.sat then (if z < 0 then 0x80000000 else 0x7FFFFFFF, fSAT) else (BitVec.ofInt 32 z, 0)

/-- VCVT rounds a float once into another format and an integer into a float; a NaN stays one, an infinity stays one or in a narrow
format becomes the largest number under SAT and else NaN with invalid; a float goes to an integer by md's rounding, where NaN and what
is out of range raise invalid and give the clamped value, or the top bit alone without SAT; a wider integer type keeps the value, a
narrower one wraps or clamps (R89, R93); one type to itself copies bits. That a float out of an integer's range raises invalid alone, SAT or
not, is the model's reading (log entry 89). The parts of a lane are those of R147. VSCL is one rounding of
x times 2^(c - 127), or NaN for c = 255. VRCP, VRSQ and VSQRT round the exact value once; VEX2, VLG2, VSIN and VCOS do so at the points where R151 calls them exact; all seven give the results of R151 on
special operands (R91, R92, R150, R151). -/
def Obligations.ConversionsAndSpecialFunctions : Prop :=
  ∀ md : Mode, md.rnd < 4 →
    (∀ (t u : EType) (f g : Fmt) (x : Nat), kindOf t = .flt f → kindOf u = .flt g → t ≠ u → x < 2 ^ f.width →
      let r := cvtElem md u t x
      (codeFin f x = true → sumRounds g md [termOf f md x] r) ∧
      (codeNan f x = true → r = (nanCode g, if codeSig f x then fIV else 0)) ∧
      (codeInf f x = true → r = if g.ieee then (infCode g (codeNeg f x), 0) else if md.sat then (largestCode g (codeNeg f x), fSAT)
        else (nanCode g, fIV))) ∧
    (∀ (t u : EType) (f : Fmt) (sg : Bool) (x : Nat), kindOf t = .flt f → f.ieee = true → kindOf u = .int sg → x < 2 ^ f.width →
      let r := cvtElem md u t x
      let lo : Int := if sg then -2 ^ (u.width - 1) else 0
      let hi : Int := if sg then 2 ^ (u.width - 1) - 1 else 2 ^ u.width - 1
      let beyond : Int → Prop := fun c => r = (if md.sat then (c % 2 ^ u.width).toNat else 2 ^ (u.width - 1), fIV)
      (codeNan f x = true → beyond 0) ∧ (codeInf f x = true → beyond (if codeNeg f x then lo else hi)) ∧
      (codeFin f x = true → ∃ n : Int, let v : ℝ := readValue f md x
        roundsTo (fun z => ∃ k : Int, z = k) (fun z => ∃ k : Int, z = 2 * k) md.rnd v n ∧ (n < lo → beyond lo) ∧ (hi < n → beyond hi) ∧
        (lo ≤ n → n ≤ hi → r.1 = (n % 2 ^ u.width).toNat ∧ ((n : ℝ) = v → r.2 = 0) ∧ ((n : ℝ) ≠ v → r.2 = fNX)))) ∧
    (∀ (t u : EType) (sg : Bool) (x : Nat), kindOf t = .int sg → x < 2 ^ t.width →
      let v : Int := if sg = true ∧ 2 ^ (t.width - 1) ≤ x then (x : Int) - 2 ^ t.width else x
      let r := cvtElem md u t x
      (∀ g, kindOf u = .flt g → (x = 0 → r = (0, 0)) ∧ (x ≠ 0 → rounded g md v r)) ∧
      ∀ sg', kindOf u = .int sg' →
        let lo : Int := if sg' then -2 ^ (u.width - 1) else 0
        let hi : Int := if sg' then 2 ^ (u.width - 1) - 1 else 2 ^ u.width - 1
        (t.width < u.width → r = ((v % 2 ^ u.width).toNat, 0)) ∧
        (u.width < t.width → r = if lo ≤ v ∧ v ≤ hi ∨ md.sat = false then ((v % 2 ^ u.width).toNat, 0)
          else (((if v < lo then lo else hi) % 2 ^ u.width).toNat, fSAT))) ∧
    (∀ (t : EType) (x : Nat), x < 2 ^ t.width → cvtElem md t t x = (x, 0)) ∧
    (∀ (t u : EType) (k : Nat) (x old : Word), k < max 1 (max t.count u.count / min t.count u.count) →
      let el : EType → Word → Nat → Nat := fun e w j => (w >>> (e.width * j)).toNat % 2 ^ e.width
      let r := cvtLane md u t k x old
      let m := min t.count u.count
      let one : Nat → Nat × BitVec 6 := fun j => cvtElem md u t (el t x (if u.count ≤ t.count then k * m + j else j))
      (∀ j < m, el u r.1 (if u.count ≤ t.count then j else k * m + j) = (one j).1) ∧
      (∀ j < u.count, t.count < u.count → (j < k * m ∨ k * m + m ≤ j) → el u r.1 j = el u old j) ∧
      ∀ c < 6, r.2.getLsbD c = true ↔ ∃ j < m, (one j).2.getLsbD c = true) ∧
    (∀ (f : Fmt) (c x : Nat), f ∈ [f32, f16, b16, t8, w8, t4] → x < 2 ^ f.width → c < 256 →
      let r := sclElem md f c x
      (c = 255 → r = (nanCode f, fIV)) ∧
      (c ≠ 255 → (codeFin f x = true → sumRounds f md [(codeNeg f x, readValue f md x * 2 ^ ((c : ℤ) - 127))] r) ∧
        (codeNan f x = true → r = (nanCode f, if codeSig f x then fIV else 0)) ∧ (codeInf f x = true → r = (x, 0)))) ∧
    ∀ (f : Fmt) (x : Nat), f ∈ [f32, f16, b16] → x < 2 ^ f.width →
      let v := readValue f md x
      let neg := codeNeg f x
      let of_ (g : Fmt → Mode → FVal → Nat × BitVec 6) : Nat × BitVec 6 := g f md (f.operand md x)
      let one : Nat := f.bias * 2 ^ f.frac
      let bad := (nanCode f, fIV)
      (codeNan f x = true → ∀ g ∈ [rcpElem, rsqElem, Fmt.sqrt, ex2Elem, lg2Elem, trigElem false, trigElem true],
        of_ g = (nanCode f, if codeSig f x then fIV else 0)) ∧
      (codeInf f x = true → of_ rcpElem = (zeroCode f neg, 0) ∧ of_ rsqElem = (if neg then bad else (0, 0)) ∧
        of_ Fmt.sqrt = (if neg then bad else (x, 0)) ∧ of_ ex2Elem = (if neg then 0 else x, 0) ∧ of_ lg2Elem = (if neg then bad else (x, 0)) ∧
        of_ (trigElem false) = bad ∧ of_ (trigElem true) = bad) ∧
      (codeFin f x = true → v = 0 → of_ rcpElem = (infCode f neg, fDZ) ∧ of_ rsqElem = (infCode f neg, fDZ) ∧
        of_ Fmt.sqrt = (zeroCode f neg, 0) ∧ of_ ex2Elem = (one, 0) ∧ of_ lg2Elem = (infCode f true, fDZ) ∧
        of_ (trigElem false) = (zeroCode f neg, 0) ∧ of_ (trigElem true) = (one, 0)) ∧
      (codeFin f x = true → v ≠ 0 →
        rounded f md (1 / v) (of_ rcpElem) ∧
        (v < 0 → of_ rsqElem = bad ∧ of_ Fmt.sqrt = bad ∧ of_ lg2Elem = bad) ∧
        (0 < v → rounded f md (1 / Real.sqrt v) (of_ rsqElem) ∧ rounded f md (Real.sqrt v) (of_ Fmt.sqrt)) ∧
        (∀ n : ℤ, v = n → rounded f md (2 ^ n) (of_ ex2Elem)) ∧
        (∀ n : ℤ, v = 2 ^ n → (n = 0 → of_ lg2Elem = (0, 0)) ∧ (n ≠ 0 → rounded f md n (of_ lg2Elem))) ∧
        ∀ n : ℤ, v = n / 4 →
          of_ (trigElem false) = (if n % 2 = 0 then zeroCode f neg else if n % 4 = 1 then one else one + 2 ^ (f.width - 1), 0) ∧
          of_ (trigElem true) = (if n % 2 = 1 then 0 else if n % 4 = 0 then one else one + 2 ^ (f.width - 1), 0))

/-! ### Vector forms -/

/-- A vector form that ignores TYPE writes its result to the active lanes of v(d); every other element, every byte of memory and every
other wave stay, no flag changes, and the wave goes to the next word (R23, R133, R137). An access to a row of a live adit is judged by its phase
stamp: the first of a phase takes the row, another party's read of a written row or write races, and so does the owner's write of a row that another
has read (R55); one that does not race marks its row, one that does leaves every row as it was. A vector form whose direct access races takes no effect
and traps with cause 0x0008, detail 0x00FF, and the conflicting lanes, or halts the context where there is no handler (R56, R115); that those are the
active lanes whose elements lie in a row that races is the model's reading (log entry 27). -/
def Obligations.VectorPlainForms : Prop :=
  (∀ (s : State) (p row : Nat) (write : Bool), s.runOf p = .original →
    let m := s.info row
    let got := s.raceRow p row write
    (m.exp = false → got = some m) ∧
    ∀ q n x, m.exp = true → s.aditAt? row = some (q, n, x) →
      let me : BitVec 13 := BitVec.ofNat 13 p
      (m.stp ≠ x.phase → got = some { m with stp := x.phase, pty := me, pw := write, fr := false }) ∧
      (m.stp = x.phase → m.pty = me →
        (write = false → got = some m) ∧ (write = true → got = if m.fr then none else some { m with pw := true })) ∧
      (m.stp = x.phase → m.pty ≠ me →
        (write = false → got = if m.pw then none else some { m with fr := true }) ∧ (write = true → got = none))) ∧
  (∀ (s : State) (p : Nat) (rows : List (Nat × Bool)), (rows.map (·.1)).Nodup →
    (∀ x ∈ rows, (s.markRows p rows).info x.1 = (s.raceRow p x.1 x.2).getD (s.info x.1)) ∧
    (∀ r, r ∉ rows.map (·.1) → (s.markRows p rows).info r = s.info r) ∧ ∀ k, (s.markRows p rows).elem k = s.elem k) ∧
  (∀ (s : State) (i : Instr) (r : VectorResult), (vectorPlain s i = some r ∨ vectorTyped s i = some r) → r.ok (typeOf s.me.md) = true →
    s.ready (r.d :: r.srcs) r.scals → s.runOf s.cur = .original → s.rowReasons s.cur (s.inActive r.srcs) (s.inActive [r.d]) = 0 →
    let races : Nat × Bool → Prop := fun x => x ∈ accesses s.cur (s.inActive r.srcs) (s.inActive [r.d]) ∧ s.raceRow s.cur x.1 x.2 = none
    let on : LaneMask → Prop := fun lanes => ∀ l < 96, lanes.getLsbD l = true ↔
      s.me.activeMask.getLsbD l = true ∧ ∃ v ∈ r.d :: r.srcs, ∃ x, races x ∧ x.1 = vrow s.cur v (l / 32)
    (∃ x, races x) →
      (s.canEnter → ∃ t lanes, exec i s = .next t ∧ on lanes ∧
        s.entered t { cause := 8, detail := 0xFF, lanes := lanes, addr := s.me.pc, k := s.me.k } ∧
        ∀ row, row ∉ (State.trapRows s.cur).map (·.1) → t.info row = s.info row) ∧
      (s.trapVector s.cur = 0 → ∃ t lanes, exec i s = .next t ∧ on lanes ∧ s.halted t 8 0xFF 0 lanes ∧
        (∀ k, t.elem k = s.elem k) ∧ ∀ row, t.info row = s.info row)) ∧
  ∀ (s : State) (i : Instr) (r : VectorResult), vectorPlain s i = some r → s.ready (r.d :: r.srcs) r.scals →
    s.clear (s.inActive r.srcs) (s.inActive [r.d]) → s.clean (s.inActive r.srcs) → s.me.present ≠ 0 →
    ∃ t, exec i s = .next t ∧ t.wave s.cur = s.me.advance r.words ∧ (∀ q, q ≠ s.cur → t.wave q = s.wave q) ∧
      (∀ l < 96, t.vget s.cur r.d l = if s.me.activeMask.getLsbD l then (r.lane l).1 else s.vget s.cur r.d l) ∧
      (∀ k, (∀ l < 96, s.me.activeMask.getLsbD l = true → k ≠ velem s.cur r.d l) → t.elem k = s.elem k ∧ t.poisoned k = s.poisoned k) ∧
      (∀ x ∈ accesses s.cur (s.inActive r.srcs) (s.inActive [r.d]), t.info x.1 = (s.raceRow s.cur x.1 x.2).getD (s.info x.1)) ∧
      ∀ a, t.byte a = s.byte a

/-- A vector form that computes in md's type writes the active lanes of v(d) and ORs the conditions of those lanes into flg; every
other element, every byte and every other wave stay. Where md enables a condition that a lane raised, the wave then traps with
cause 0x0004 at the next word, with the lanes that raised one (R97, R100, R133, R135). -/
def Obligations.VectorTypedForms : Prop :=
  ∀ (s : State) (i : Instr) (r : VectorResult), vectorTyped s i = some r → r.ok (typeOf s.me.md) = true → s.ready (r.d :: r.srcs) r.scals →
    s.clear (s.inActive r.srcs) (s.inActive [r.d]) → s.clean (s.inActive r.srcs) → s.me.present ≠ 0 →
    let conds := raised s.me.activeMask r.lane
    let wrote : State → Prop := fun u =>
      u.wave s.cur = { s.me.advance r.words with flg := s.me.flg ||| conds } ∧ (∀ q, q ≠ s.cur → u.wave q = s.wave q) ∧
      (∀ l < 96, u.vget s.cur r.d l = if s.me.activeMask.getLsbD l then (r.lane l).1 else s.vget s.cur r.d l) ∧
      (∀ k, (∀ l < 96, s.me.activeMask.getLsbD l = true → k ≠ velem s.cur r.d l) → u.elem k = s.elem k ∧ u.poisoned k = s.poisoned k) ∧
      ∀ a, u.byte a = s.byte a
    (conds &&& s.me.enables = 0 → ∃ t, exec i s = .next t ∧ wrote t) ∧
    (conds &&& s.me.enables ≠ 0 → s.runOf s.cur = .original →
      ∃ t u x, exec i s = .next t ∧ wrote u ∧ u.cur = s.cur ∧ t = u.trap s.cur x ∧ x.cause = 4 ∧ x.detail = topCond (conds &&& s.me.enables) ∧
        x.addr = s.me.pc + BitVec.ofNat 64 (4 * r.words) ∧
        (∀ l < 96, x.lanes.getLsbD l = (s.me.activeMask.getLsbD l && (r.lane l).2 &&& s.me.enables != 0)) ∧
        ∀ l < 96, s.me.activeMask.getLsbD l = true → x.flags.get 0 l = (r.lane l).2)

/-- A vector form, IF, a vote, VMATCH, VSHF, VSHOP, VSEGOP, NRST, RTE, TASK or ADMIX that consumes a poisoned element kills its wave: it writes no
scalar register, no vector element, no condition, and of memory, where no audit logs the block, the wave's stop record alone. Of an exchange the
elements that enter a result count (R50, R154, R158, R285); that VSEGOP's first head is one of them is the model's choice (log entry 138). -/
def Obligations.PoisonKills : Prop :=
  (∀ (s : State) (i : Instr) (r : VectorResult), (vectorPlain s i = some r ∨ vectorTyped s i = some r) → r.ok (typeOf s.me.md) = true →
    s.ready (r.d :: r.srcs) r.scals → s.clear (s.inActive r.srcs) (s.inActive [r.d]) → s.runOf s.cur = .original → ¬s.clean (s.inActive r.srcs) →
    ∃ t, exec i s = .next t ∧ s.kills t) ∧
  ∀ (s : State) (i : Instr) (f : ConsumingForm), consumesOf s i = some f → s.ready ((f.srcs ++ f.dsts).map (·.1)) f.scals →
    s.runOf s.cur = .original → s.clear f.srcs f.dsts → f.meets → (∃ r l, l < 96 ∧ f.used r l ∧ s.poisoned (velem s.cur r l) = true) →
    ∃ t, exec i s = .next t ∧ s.kills t

/-! ### Special functions and lane exchange -/

/-- A special function reads its source in the active lanes at issue, opens v(d), and is in flight with each lane's value and
conditions (R67, R77, R137, R150, R152). -/
def Obligations.SpecialFunctionsIssue : Prop :=
  ∀ (s : State) (i : Instr) (d a : Nat) (f : Word → Word × BitVec 6), specialOf s.me i = some (d, a, f) →
    (typeOf s.me.md = .f32 ∨ typeOf s.me.md = .f16x2 ∨ typeOf s.me.md = .b16x2) → s.ready [a, d] [] →
    s.clear (s.inActive [a]) (s.inActive [d]) → s.canIssue (.vec d false) →
    ∃ t o, exec i s = .next t ∧ s.issues t 1 o ∧ o.kind = .special ∧ o.dst = .vec d false ∧ o.enables = s.me.enables ∧
      o.lanes.map (fun x => (x.lane, x.done, x.value, x.poison)) = (lanesOf s.me.activeMask).map (fun l =>
        (l, true, (f (s.vget s.cur a l)).1.setWidth 64, s.poisoned (velem s.cur a l))) ∧
      (∀ l < 96, s.me.activeMask.getLsbD l = true → o.conds.get 0 l = (f (s.vget s.cur a l)).2) ∧ (∀ k, t.elem k = s.elem k)

/-- VSHF gives an active lane the element of its source lane where that lane exists and is active, else its own; VSHOP combines its own
with it; nothing but the active lanes of v(d) is written (R154). VSEGOP scans the active lanes in order: the first of them and each lane
whose bit 0 of v(b) is set begins a segment with its own element, any other combines with the lane before it; in mode 1 every lane gets
the value of the last lane of its segment (R155). The operations that combine are those of the vector forms: add, minimum, maximum in
md's type, and, or, exclusive or (R154). -/
def Obligations.LaneExchangeComplete : Prop :=
  (∀ (s : State) (i : Instr) (d a b k : Nat) (pat : Pat) (comb : Word → Word → Word × BitVec 6),
      ((i = .vshf d a b pat k ∧ comb = fun _ y => (y, 0)) ∨
        ∃ op, i = .vshop d a b op pat k ∧ comb = xopLane op (modeOf s.me.md) (typeOf s.me.md)) →
      let srcs : Regs := (a, allLanes) :: (if pat = .index then s.inActive [b] else [])
      s.ready (if pat = .index then [a, b, d] else [a, d]) [] → s.clear srcs (s.inActive [d]) → s.clean srcs → s.me.present ≠ 0 → s.me.enables = 0 →
      ∃ (t : State) (r : Nat → Word × BitVec 6), exec i s = .next t ∧
        (∀ l < 96, s.me.activeMask.getLsbD l = true → r l =
          (match (match pat with
              | .xor => some (l ^^^ k) | .up => if k ≤ l then some (l - k) else none | .down => some (l + k)
              | .index => some (s.vget s.cur b l).toNat : Option Nat) with
           | some x => if x < 96 ∧ s.me.activeMask.getLsbD x = true then comb (s.vget s.cur a l) (s.vget s.cur a x) else (s.vget s.cur a l, 0)
           | none => (s.vget s.cur a l, 0))) ∧
        (∀ l < 96, t.vget s.cur d l = if s.me.activeMask.getLsbD l then (r l).1 else s.vget s.cur d l) ∧
        t.wave s.cur = { s.me.advance 2 with flg := s.me.flg ||| raised s.me.activeMask r } ∧
        (∀ k, (∀ l < 96, k ≠ velem s.cur d l) → t.elem k = s.elem k) ∧ ∀ a, t.byte a = s.byte a) ∧
  (∀ (s : State) (d a b : Nat) (op : XOp) (total : Bool), s.ready [a, b, d] [] →
      s.clear ((a, allLanes) :: s.inActive [b]) (s.inActive [d]) → s.clean ((a, allLanes) :: s.inActive [b]) → s.me.present ≠ 0 → s.me.enables = 0 →
      let on : Nat → Prop := fun l => l < 96 ∧ s.me.activeMask.getLsbD l = true
      let next : Nat → Nat → Prop := fun l m => on l ∧ on m ∧ l < m ∧ ∀ x, l < x → x < m → ¬on x
      let head : Nat → Prop := fun l => (s.vget s.cur b l).getLsbD 0 = true
      ∃ (t : State) (sc : Nat → Word), exec (.vsegop d a b op total) s = .next t ∧
        (∀ l, on l → (head l ∨ ∀ x, x < l → ¬on x) → sc l = s.vget s.cur a l) ∧
        (∀ l m, next l m → ¬head m → sc m = (xopLane op (modeOf s.me.md) (typeOf s.me.md) (sc l) (s.vget s.cur a m)).1) ∧
        (∀ l, on l → total = false → t.vget s.cur d l = sc l) ∧
        (∀ l, on l → total = true → (∀ m, next l m → head m) → t.vget s.cur d l = sc l) ∧
        (∀ l m, next l m → total = true → ¬head m → t.vget s.cur d l = t.vget s.cur d m) ∧
        (∀ k, (∀ l, on l → k ≠ velem s.cur d l) → t.elem k = s.elem k) ∧ (∀ x, t.byte x = s.byte x) ∧
        (t.wave s.cur).pc = s.me.pc + 8) ∧
  ∀ (md : Mode) (t : EType) (x y : Word),
    let parts (f : Nat → Nat → Nat × BitVec 6) : Word × BitVec 6 := mapParts t (fun j => f (part t x j) (part t y j))
    xopLane .add md t x y = parts (addElem md t) ∧ xopLane .min md t x y = parts (minmaxElem false md t) ∧
    xopLane .max md t x y = parts (minmaxElem true md t) ∧ xopLane .and md t x y = (x &&& y, 0) ∧
    xopLane .or md t x y = (x ||| y, 0) ∧ xopLane .xor md t x y = (x ^^^ y, 0)

/-- The votes: VBAL writes the mask of the active lanes that pass the test, VANY and VALL whether some or all of them do, VFFS the lowest
of them or 96 (R108, R156). VMATCH writes for each active lane the mask of the active lanes whose key agrees with its own, 0 for every other lane; keys are bit
patterns, or under KEYV values, where a NaN agrees with nothing (R157). With no active lane it writes no element (R158). -/
def Obligations.VotesAndMatchComplete : Prop :=
  (∀ (s : State) (i : Instr) (d a : Nat) (cc : Cc) (w : Wave) (names : List Nat) (m : LaneMask),
      (∀ l < 96, m.getLsbD l = (s.me.activeMask.getLsbD l && ccTest cc (s.vget s.cur a l))) →
      ((i = .vbal d a cc ∧ names = [d, d + 1, d + 2] ∧
          w = ((s.me.sput d (m.setWidth 32)).sput (d + 1) ((m >>> 32).setWidth 32)).sput (d + 2) ((m >>> 64).setWidth 32)) ∨
       (i = .vany d a cc ∧ names = [d] ∧ w = s.me.sput d (if m = 0 then 0 else 1)) ∨
       (i = .vall d a cc ∧ names = [d] ∧ w = s.me.sput d (if m = s.me.activeMask then 1 else 0)) ∨
       (i = .vffs d a cc ∧ names = [d] ∧ w = s.me.sput d (BitVec.ofNat 32 (((List.range 96).find? (fun l => m.getLsbD l)).getD 96)))) →
      s.ready [a] names → s.clear [(a, allLanes)] [] → s.clean [(a, allLanes)] → w.present ≠ 0 →
      ∃ t, exec i s = .next t ∧ t.wave s.cur = w.advance 1 ∧ (∀ k, t.elem k = s.elem k) ∧ ∀ x, t.byte x = s.byte x) ∧
  (∀ (s : State) (d a : Nat), s.ready [a, d, d + 1, d + 2] [] →
      s.clear [(a, allLanes)] [(d, allLanes), (d + 1, allLanes), (d + 2, allLanes)] → s.clean [(a, allLanes)] →
      ∃ t, exec (.vmatch d a) s = .next t ∧ t.wave s.cur = s.me.advance 1 ∧ (s.me.activeMask = 0 → ∀ k, t.elem k = s.elem k) ∧
        (s.me.activeMask ≠ 0 → ∀ j < 3, ∀ l < 96, ∀ n < 32, (t.vget s.cur (d + j) l).getLsbD n =
          (s.me.activeMask.getLsbD l && s.me.activeMask.getLsbD (32 * j + n) &&
            keysEqual s.me.md (s.vget s.cur a l) (s.vget s.cur a (32 * j + n)))) ∧
        (∀ k, (∀ j < 3, ∀ l < 96, k ≠ velem s.cur (d + j) l) → t.elem k = s.elem k) ∧ ∀ x, t.byte x = s.byte x) ∧
  (∀ (md : BitVec 16) (x y : Word),
      let t := typeOf md
      let el : Word → Nat → Nat := fun w j => (w >>> (t.width * j)).toNat % 2 ^ t.width
      let agree : Fmt → Nat → Nat → Prop := fun f a b => codeNan f a = false ∧ codeNan f b = false ∧
        readBelow f (modeOf md) a b = false ∧ readBelow f (modeOf md) b a = false
      (md.getLsbD 13 = false → (keysEqual md x y = true ↔ x = y)) ∧
      (md.getLsbD 13 = true → (∀ sg, kindOf t = .int sg → (keysEqual md x y = true ↔ x = y)) ∧
        ∀ f, kindOf t = .flt f → (keysEqual md x y = true ↔ ∀ j < t.count, agree f (el x j) (el y j))))

/-! ### Indexed access, adits and common slots -/

/-- An indexed form whose checks of R161 pass is issued: in the own slot it reads or writes at once; through a handle of an exporter on
the same core, and to the ceiling, it is in flight with an access for each active lane that is performed later (for the handle the model's
reading, log entry 94); through a handle of another core the wave waits for the target's acceptance (log entry 7) (R160 to R164). Where
a check fails nothing is accessed; the first that applies, in this order: a handle that is not Attached traps with cause 0x0005, an index
outside the space with 0x0006 and the lanes outside, a write without permission with 0x0007, a ceiling bay that is not granted halts
the context with 0x0014 and its lanes, a target row that races traps with 0x0008 and its lanes; the detail is the handle, or 0x00FF for the
own slot and the ceiling (R115, R161). Poison in what the form consumes kills the wave (R50, R285). That in the own slot an XATM lane which
reads poison leaves its element, while the other lanes write, is the model's choice (log entry 127); two lanes of one own-slot form on one element are
not spoken of here (log entry 34). -/
def Obligations.IndexedFormsComplete : Prop :=
  ∀ (s : State) (i : Instr) (f : IndexedForm), indexedOf s i = some f →
    let m := s.me.activeMask
    let dregs := s.inActive (State.regsOfDest f.dst).1
    let row0 := (spaceOf s s.cur f.sp).1
    let target := ((lanesOf m).map (fun l => row0 + (f.idx l).toNat / 32)).dedup
    let h : Handle := s.me.handles.get {} (handleOf f.sp)
    let writes : Prop := f.kind ≠ .xget
    let far : Prop := (∃ n, f.sp = .handle n) ∧ coreOf h.exporter ≠ coreOf s.cur
    s.ready (f.srcs ++ f.copied ++ (State.regsOfDest f.dst).1 ++ (if f.sp = .slot then
      ((lanesOf m).filter (fun l => decide (0 ≤ f.idx l) && decide (f.idx l < 24576))).map (fun l => (f.idx l).toNat / 96) else [])) f.scals →
    s.unlogged → s.fenced s.cur (if f.kind = .xget then 0x04 else 0x08) = false → s.canIssue f.dst → (∀ n, f.sp = .handle n → n < 16) →
    s.clear (s.inActive (f.srcs ++ f.copied)) dregs → (f.sp = .slot → writes → s.writesOut s.cur = false) → m ≠ 0 →
    let free : Prop := ∀ r ∈ target, s.copyTouch s.cur r = false ∧
      (f.sp = .slot → s.boundTouch s.cur r = false ∧ s.handleTouch s.cur r = false) ∧ (¬far → s.rowHeld r = false)
    let races : Nat → Prop := fun r => r ∈ target ∧ ¬far ∧ s.raceRow s.cur r (decide (f.kind ≠ .xget)) = none
    let stale : Prop := (∃ n, f.sp = .handle n) ∧ h.state ≠ .attached
    let beyond : Nat → Prop := fun l => l < 96 ∧ m.getLsbD l = true ∧ (f.idx l < 0 ∨ ((spaceOf s s.cur f.sp).2 : Int) ≤ f.idx l)
    let barred : Prop := (∃ n, f.sp = .handle n) ∧ writes ∧ h.xch = false ∧ h.exporter ≠ s.cur
    let ungranted : Nat → Prop := fun l => l < 96 ∧ m.getLsbD l = true ∧ f.sp = .ceil ∧
      (s.core (s.cur / 128)).grants.get none ((f.idx l).toNat / 1048576) ≠ some s.me.lid
    let passes : Prop := ¬stale ∧ (∀ l, ¬beyond l) ∧ ¬barred ∧ ∀ l, ¬ungranted l
    let detail : Nat := match f.sp with | .handle n => n | _ => 0xFF
    let traps : Nat → (Nat → Prop) → Prop := fun cause on => s.canEnter → ∃ t lanes, exec i s = .next t ∧
      (∀ l < 96, lanes.getLsbD l = true ↔ on l) ∧
      s.entered t { cause := cause, detail := detail, lanes := lanes, addr := s.me.pc, k := s.me.k }
    (stale → traps 5 (fun l => m.getLsbD l = true)) ∧
    (¬stale → (∃ l, beyond l) → traps 6 beyond) ∧
    (¬stale → (∀ l, ¬beyond l) → barred → traps 7 (fun l => m.getLsbD l = true)) ∧
    (¬stale → (∀ l, ¬beyond l) → ¬barred → (∃ l, ungranted l) → ∃ t lanes, exec i s = .next t ∧
      (∀ l < 96, lanes.getLsbD l = true ↔ ungranted l) ∧ s.halted t 0x14 0 0 lanes) ∧
    (passes → free → (∃ r, races r) → (∀ r, races r → ∀ x ∈ accesses s.cur (s.inActive (f.srcs ++ f.copied)) dregs, x.1 ≠ r) →
      traps 8 (fun l => m.getLsbD l = true ∧ races (row0 + (f.idx l).toNat / 32))) ∧
    (passes → free → (∀ r, ¬races r) → ¬s.clean (s.inActive f.srcs) → ∃ t, exec i s = .next t ∧ s.kills t) ∧
    (passes → free → (∀ r, ¬races r) → s.clean (s.inActive f.srcs) →
      (f.sp = .slot → (∀ l l', l < 96 → l' < 96 → m.getLsbD l = true → m.getLsbD l' = true → f.idx l = f.idx l' → l = l') →
        ∃ t o, exec i s = .next t ∧ s.issues t f.words o ∧ o.kind = f.kind ∧ o.dst = f.dst ∧
          (f.kind ≠ .xput → o.lanes.map (fun a => (a.lane, a.value, a.poison)) = (lanesOf m).map (fun l =>
            (l, (s.elem (32 * row0 + (f.idx l).toNat)).setWidth 64, s.poisoned (32 * row0 + (f.idx l).toNat)))) ∧
          (∀ l < 96, m.getLsbD l = true → t.elem (32 * row0 + (f.idx l).toNat) =
            let old := s.elem (32 * row0 + (f.idx l).toNat)
            match f.kind with
            | .xput => f.data l
            | .xatm op => if s.poisoned (32 * row0 + (f.idx l).toNat) then old
                else BitVec.ofNat 32 (atom 32 op old.toNat (f.data l).toNat (f.cmp l).toNat)
            | _ => old) ∧
          (f.kind = .xput → ∀ l < 96, m.getLsbD l = true → t.poisoned (32 * row0 + (f.idx l).toNat) = f.mark l) ∧
          ∀ k, (∀ l < 96, m.getLsbD l = true → k ≠ 32 * row0 + (f.idx l).toNat) → t.elem k = s.elem k) ∧
      (f.sp ≠ .slot → ¬far →
        ∃ t o, exec i s = .next t ∧ s.issues t f.words o ∧ o.kind = f.kind ∧ o.dst = f.dst ∧
          o.lanes.map (fun a => (a.lane, a.loc, a.data, a.cmp, a.mark, a.done)) = (lanesOf m).map (fun l =>
            (l, row0 * 32 + (f.idx l).toNat, (f.data l).setWidth 64, (f.cmp l).setWidth 64, f.mark l, false)) ∧ ∀ k, t.elem k = s.elem k) ∧
      (far → ∃ t r, exec i s = .next t ∧ t.remotes = s.remotes ++ [r] ∧ r.op.kind = f.kind ∧ r.op.dst = f.dst ∧ r.op.party = s.cur ∧
          r.op.lanes.map (fun a => (a.lane, a.loc, a.data)) = (lanesOf m).map (fun l =>
            (l, row0 * 32 + (f.idx l).toNat, (f.data l).setWidth 64)) ∧
          (t.wave s.cur).wait = .remote r.id ∧ (t.wave s.cur).pc = s.me.pc ∧ ∀ k, t.elem k = s.elem k))

/-- XEXP on a Free entry with free rows of the own slot, or of common slots that one claim brought in together, makes it Live with its audience,
mode and rows, its phase one higher, and every row exported with its marks clear, at once (log entry 23, the model's choice); s(sb + 2) gets 0.
Status 1 says that the entry is not Free, else 3 that the range is not in its space, else 2 that it overlaps an adit (R166; one that drains too: log
entry 130, the model's choice), and nothing else changes. It waits while the entry's last scrub is
unfinished, for no advance overtakes a scrub (log entry 114, the model's choice of how). XDET detaches a handle; XATT waits for the exporter's core; XREV of a Live entry
lets it drain and waits, of another gives 1 (R52, R53, R57, R166 to R169). -/
def Obligations.AditFormsComplete : Prop :=
  ∀ (s : State),
    (∀ sb entry aud xch cmn, s.ready [] [sb, sb + 1, sb + 2] →
      let first := (s.me.sget sb).toNat
      let n := (s.me.sget (sb + 1)).toNat
      let e : AditEntry := s.me.adits.get {} entry
      -- the slot of a common index, plus one, and the claim that brought it in
      let held : Nat → Nat × Nat := fun c => (s.block s.me.blk).common.get (0, 0) c
      let inside : Prop := 0 < n ∧ if cmn = true then first + n ≤ 12288 ∧ (held (first / 768)).1 ≠ 0 ∧
          (∀ c, first / 768 ≤ c → c ≤ (first + n - 1) / 768 → held c = ((held (first / 768)).1 + (c - first / 768), (held (first / 768)).2))
        else first + n ≤ 768
      let row0 := if cmn = true then 768 * ((held (first / 768)).1 - 1) + first % 768 else 768 * slotOf s.cur + first
      let row : Nat → Nat := fun j => rowKey (coreOf s.cur) (row0 + j)
      let overlaps : Prop := ∃ j < n, (s.info (row j)).exp = true
      let fails : Word → Prop := fun v => exec (.xexp sb entry aud xch cmn) s = .next (s.gives ((s.me.sput (sb + 2) v).advance 1))
      (e.state ≠ .free → fails 1) ∧ (e.state = .free → ¬inside → fails 3) ∧ (e.state = .free → inside → overlaps → fails 2) ∧
      (e.state = .free → inside → ¬overlaps → (s.me.sput (sb + 2) 0).present ≠ 0 →
        (e.scrub = true → ∃ t, exec (.xexp sb entry aud xch cmn) s = .next t ∧ (t.wave s.cur).pc = s.me.pc ∧
          (t.wave s.cur).adits = s.me.adits ∧ s.onlyMe t) ∧
        (e.scrub = false → ∃ t, exec (.xexp sb entry aud xch cmn) s = .next t ∧
          let live : AditEntry := { state := .live, aud := aud, xch := xch, first := row0, rows := n, phase := e.phase + 1, scrub := true }
          t.wave s.cur = { (s.me.sput (sb + 2) 0).advance 1 with adits := s.me.adits.set {} entry live } ∧
          (∀ j < n, let i := t.info (row j)
            i.exp = true ∧ i.pw = false ∧ i.fr = false ∧ i.stp = e.phase) ∧
          (∀ k, t.elem k = s.elem k) ∧ ∀ a, t.byte a = s.byte a))) ∧
    (∀ h, s.me.status = .running → ∃ t, exec (.xdet h) s = .next t ∧ s.becomes t { s.me.advance 1 with handles := s.me.handles.set {} h {} }) ∧
    (∀ sb h adr, s.ready [] [sb, sb + 1, sb + 2] → ∃ t, exec (.xatt sb h adr) s = .next t ∧ (t.wave s.cur).wait = .xatt sb h adr ∧
      (t.wave s.cur).pc = s.me.pc ∧ s.onlyMe t) ∧
    ∀ d entry, s.ready [] [d] →
      ((s.me.adits.get {} entry).state ≠ .live → exec (.xrev d entry) s = .next (s.gives ((s.me.sput d 1).advance 1))) ∧
      ((s.me.adits.get {} entry).state = .live → ∃ t, exec (.xrev d entry) s = .next t ∧ (t.wave s.cur).wait = .xrev entry d ∧
        ((t.wave s.cur).adits.get {} entry).state = .draining ∧
        ∀ q n, ((s.wave q).handles.get {} n).state = .attached → ((s.wave q).handles.get {} n).exporter = s.cur →
          ((s.wave q).handles.get {} n).entry = entry → ((t.wave q).handles.get {} n).state = .stale)

/-- XALLOC claims a run of free slots as common slots, zeroed, and gives 0 and the first index; XFREE gives them up and gives 0; XPRB
gives the state of an entry or a handle (R41, R58, R170, R171). XALLOC fails with 3 on a count outside 1 to 16, else with 2 where the block
would hold more than 16 or has no run of indices, else with 1 where its core has no run of free slots, writes all ones to s(d + 1) and
claims nothing; XFREE with 1 on such a count or an index that the block does not hold, else with 2 where a row lies in an adit, and gives
up nothing (R170). XCH and AUD of a Free entry or a Detached handle read 0: the model's choice (log entry 102). -/
def Obligations.CommonSlotFormsComplete : Prop :=
  ∀ (s : State), s.unlogged → (s.block? s.me.blk).isSome = true →
    (∀ d a i c, s.ready [] [d, d + 1, a] → s.allocStatus s.me.blk (s.me.sget a).toNat = (0, i, c) →
      let w := (s.me.sput d 0).sput (d + 1) (BitVec.ofNat 32 i)
      w.present ≠ 0 → ∃ t, exec (.xalloc d a) s = .next t ∧ t.wave s.cur = w.advance 1 ∧
        (∀ j < (s.me.sget a).toNat, ((t.block s.me.blk).common.get (0, 0) (i + j)).1 = c + j + 1) ∧
        (∀ r e, e < 32 → rowKey (s.block s.me.blk).core (768 * c) ≤ r → r < rowKey (s.block s.me.blk).core (768 * (c + (s.me.sget a).toNat)) →
          t.elem (elemKey r e) = 0 ∧ t.info r = {}) ∧ ∀ x, t.byte x = s.byte x) ∧
    (∀ d a b, s.ready [] [d, a, b] → s.freeStatus s.me.blk (s.me.sget a).toNat (s.me.sget b).toNat = 0 → (s.me.sput d 0).present ≠ 0 →
      ∃ t, exec (.xfree d a b) s = .next t ∧ t.wave s.cur = (s.me.sput d 0).advance 1 ∧
        (∀ j, (t.block s.me.blk).common.get (0, 0) j = if (s.me.sget a).toNat ≤ j ∧ j < (s.me.sget a).toNat + (s.me.sget b).toNat
          then (0, 0) else (s.block s.me.blk).common.get (0, 0) j) ∧ s.sameStorage t) ∧
    (let b := s.block s.me.blk
      let holds : Nat → Prop := fun i => (b.common.get (0, 0) i).1 ≠ 0
      let run : Nat → Nat → Prop := fun c n => c + n ≤ 128 ∧ ∀ j < n, s.slotUsed b.core (c + j) = false
      let fit : Nat → Nat → Prop := fun i n => i + n ≤ 16 ∧ ∀ j < n, ¬holds (i + j)
      ∀ n, (n = 0 ∨ 16 < n → (s.allocStatus s.me.blk n).1 = 3) ∧
        (0 < n ∧ n ≤ 16 → (16 < b.common.length + n ∨ (∀ i, ¬fit i n) → (s.allocStatus s.me.blk n).1 = 2) ∧
          (b.common.length + n ≤ 16 → (∃ i, fit i n) → ((∀ c, ¬run c n) → (s.allocStatus s.me.blk n).1 = 1) ∧
            ((∃ c, run c n) → ∃ i c, s.allocStatus s.me.blk n = (0, i, c) ∧ fit i n ∧ run c n ∧ (∀ j < i, ¬fit j n) ∧ ∀ j < c, ¬run j n))) ∧
        (s.rows.wf {} = true → ∀ a, let st := s.freeStatus s.me.blk a n
          let bad : Prop := n = 0 ∨ 16 < n ∨ ∃ j < n, ¬holds (a + j)
          let out : Prop := ∃ j < n, ∃ r, 768 * ((b.common.get (0, 0) (a + j)).1 - 1) ≤ r ∧ r < 768 * (b.common.get (0, 0) (a + j)).1 ∧
            (s.info (rowKey b.core r)).exp = true
          (bad → st = 1) ∧ (¬bad → (out → st = 2) ∧ (¬out → st = 0)))) ∧
    (∀ d a, s.ready [] [d, d + 1, a] → let st := (s.allocStatus s.me.blk (s.me.sget a).toNat).1
      st ≠ 0 → exec (.xalloc d a) s = .next (s.gives (((s.me.sput d (BitVec.ofNat 32 st)).sput (d + 1) 0xFFFFFFFF).advance 1))) ∧
    (∀ d a b, s.ready [] [d, a, b] → let st := s.freeStatus s.me.blk (s.me.sget a).toNat (s.me.sget b).toNat
      st ≠ 0 → exec (.xfree d a b) s = .next (s.gives ((s.me.sput d (BitVec.ofNat 32 st)).advance 1))) ∧
    ∀ d own n, s.ready [] [d, d + 1] →
      let x : AditEntry := s.me.adits.get {} n
      let h : Handle := s.me.handles.get {} n
      let v := if own then (match x.state with | .free => 0 | .live => 1 | .draining => 2) else (match h.state with | .detached => 0 | .attached => 1 | .stale => 2)
      let on : Nat := (if (if own then x.xch else h.xch) then 4 else 0) + 8 * (match (if own then x.aud else h.aud) with | .block => 0 | .core => 1 | .partition => 2)
      exec (.xprb d own n) s = .next (s.gives (((s.me.sput d (BitVec.ofNat 32
          (v + (if v = 0 then 0 else on) + if own then 256 * x.phase.toNat else 0))).sput (d + 1)
        (BitVec.ofNat 32 (if v = 0 then 0 else 32 * (if own then x.rows else h.rows)))).advance 1))

/-! ### Device memory -/

/-- A load, store or atomic whose addresses are aligned, inside the virtual space and translated with the permissions it needs is issued:
one access for each active lane, or one for a scalar form, at base + offset · size + imm3 · size, with its operand; no memory changes before it is performed (R72, R172 to R175). Poison in its registers kills the wave instead (R50, R158, R285). While writes of the wave through a handle or to the ceiling are under
way it waits: the model's choice (log entry 116). -/
def Obligations.MemoryFormsIssue : Prop :=
  ∀ (s : State) (i : Instr) (f : MemoryForm) (pas : List Nat), memoryOf s i = some f →
    s.ready (f.srcs ++ (State.regsOfDest f.dst).1) f.scals → s.unlogged →
    s.fenced s.cur (match f.kind with | .load => 1 | .store => 2 | _ => 3) = false → s.canIssue f.dst →
    s.clear (s.inActive f.srcs) (s.inActive (State.regsOfDest f.dst).1) →
    (f.accesses ≠ [] → s.writesOut s.cur = false) →
    (s.locate s.cur f.size { rd := f.kind != .store, wr := f.kind.writesMem } (f.accesses.map (fun x => (x.1, x.2.1)))).1 = .at_ pas →
    (¬s.clean (s.inActive f.srcs) → ∃ t, exec i s = .next t ∧ s.kills t) ∧
    (s.clean (s.inActive f.srcs) → ∃ t o, exec i s = .next t ∧ s.issues t f.words o ∧ o.kind = f.kind ∧ o.size = f.size ∧ o.dst = f.dst ∧
      o.lanes.map (fun a => (a.lane, a.va, a.loc, a.data, a.done)) = (f.accesses.zip pas).map (fun x => (x.1.1, x.1.2.1, x.2, x.1.2.2, false)) ∧
      (f.kind = .amoc → o.lanes.map (·.cmp) = (f.accesses.zip pas).map (fun x => f.cmp x.1.1)) ∧ ∀ k, t.elem k = s.elem k)

/-- STORE_PERFORMED writes the bytes of one lane of a store, little-endian, at the address that lane was translated to, and no other
byte (R174, R210); of an XPUT through a handle or to the ceiling it writes every lane of the lane's row together, a later lane over an
earlier one (R162, R205), once no write of the row is pending and the wave's earlier accesses of the kind are done (R47, R212). The
lanes leave the operation, and with the last the operation ends and the flag that counts it falls (R68). A load of one lane of 1, 2, 4
or 8 bytes that the port holds no queued store before reads its bytes from memory, little-endian and zero-extended, into its vector
register, register pair, scalar or scalar pair; an integer atomic of one lane returns what it read and leaves its operation's value
there, a compare-and-swap of memory its operand where what it read is the compared value (R163, R174, R175, R216). An XGET or XATM
through a handle or to the ceiling reads its lanes' elements when it completes, and XATM leaves its operation's values there (R162,
R163). The integer atomics: add modulo 2^w, minima and maxima, and, or, xor, exchange, and compare and swap (R163). An operation that
would empty a wave that missed waits for its missed form: the model's choice (log entry 117). -/
def Obligations.AccessesPerformed : Prop :=
  (∀ (s : State) (o : Op) (a : LaneAcc), s.ops.find? (fun x => x.id == o.id) = some o → o.kind = .store → o.dst = .none →
      o.lanes.find? (fun x => x.lane == a.lane && !x.done) = some a → s.laneReady o a = true → a.loc + o.size ≤ 0x6000000000 → o.size ≤ 8 →
      ∃ t, exec (.storePerformed o.id a.lane) s = .next t ∧
        (∀ x, t.byte x = if a.loc ≤ x ∧ x < a.loc + o.size then a.data.extractLsb' (8 * (x - a.loc)) 8 else s.byte x) ∧
        (∀ k, t.elem k = s.elem k) ∧
        ((∀ x ∈ o.lanes, x.lane = a.lane) → t.ops = s.ops.filter (fun x => x.id != o.id) ∧
          (o.flag < 12 → (t.wave o.party).flags.get 0 o.flag = (s.wave o.party).flags.get 0 o.flag - 1)) ∧
        ((∃ x ∈ o.lanes, x.lane ≠ a.lane) → ∃ y, t.ops.find? (fun x => x.id == o.id) = some y ∧
          y.lanes = o.lanes.filter (fun x => x.lane != a.lane))) ∧
  (∀ (s : State) (o : Op) (a : LaneAcc), s.ops.find? (fun x => x.id == o.id) = some o → o.kind = .xput → o.dst = .none → o.rows = [] →
      (o.lanes.map (·.lane)).Pairwise (· < ·) → (∀ x ∈ o.lanes, x.done = false) → a ∈ o.lanes → s.rowPending (a.loc / 32) = false →
      s.accessBefore o.party o.id = false → (∀ c ∈ s.copies, c.party = o.party → c.id < o.id → c.handle < 16 → c.kind = .cprr) →
      let last : Nat → Option LaneAcc := fun k => (o.lanes.filter (fun x => x.loc == k && k / 32 == a.loc / 32)).getLast?
      ∃ t, exec (.storePerformed o.id a.lane) s = .next t ∧ (∀ x, t.byte x = s.byte x) ∧
        (∀ k, t.elem k = ((last k).map (fun x => x.data.setWidth 32)).getD (s.elem k) ∧
          t.poisoned k = ((last k).map (·.mark)).getD (s.poisoned k)) ∧
        ((∀ x ∈ o.lanes, x.loc / 32 = a.loc / 32) → t.ops = s.ops.filter (fun x => x.id != o.id) ∧
          (o.flag < 12 → (t.wave o.party).flags.get 0 o.flag = (s.wave o.party).flags.get 0 o.flag - 1)) ∧
        ((∃ x ∈ o.lanes, x.loc / 32 ≠ a.loc / 32) → ∃ y, t.ops.find? (fun x => x.id == o.id) = some y ∧
          y.lanes = o.lanes.filter (fun x => x.loc / 32 != a.loc / 32))) ∧
  (∀ (s : State) (o : Op) (d : Nat), s.ops.find? (fun x => x.id == o.id) = some o → (o.kind = .xget ∨ ∃ op, o.kind = .xatm op) →
      o.dst = .vec d false → o.rows = State.destRows o.party o.dst → (o.lanes.map (·.lane)).Pairwise (· < ·) → (o.lanes.map (·.loc)).Nodup →
      o.out = false → o.seq = none → o.conds = [] → (s.wave o.party).present ≠ 0 → s.accessBefore o.party o.id = false →
      (∀ c ∈ s.copies, c.party = o.party → c.id < o.id → c.handle < 16 → c.kind = .cprr) →
      (∀ x ∈ o.lanes, x.lane < 96 ∧ x.done = false ∧ x.poison = false ∧ x.loc / 32 ∉ o.rows ∧ s.rowPending (x.loc / 32) = false ∧
        s.poisoned x.loc = false) →
      ∃ t, exec (.returningOperationComplete o.id) s = .next t ∧ (∀ x, t.byte x = s.byte x) ∧
        (∀ x ∈ o.lanes, t.vget o.party d x.lane = s.elem x.loc ∧ t.elem x.loc =
          match o.kind with
          | .xatm op => BitVec.ofNat 32 (atom 32 op (s.elem x.loc).toNat x.data.toNat x.cmp.toNat)
          | _ => s.elem x.loc) ∧
        ∀ k, (∀ x ∈ o.lanes, k ≠ x.loc ∧ k ≠ velem o.party d x.lane) → t.elem k = s.elem k) ∧
  (∀ (s : State) (o : Op) (a : LaneAcc), s.ops.find? (fun x => x.id == o.id) = some o → o.lanes = [a] → a.done = false → a.lane < 96 →
      o.size ∈ [1, 2, 4, 8] → s.memReady o a = true → o.out = false → o.seq = none → o.conds = [] →
      s.loadPoison a.loc o.size = false → a.loc + o.size ≤ 0x6000000000 →
      let old := leNat (s.bytes a.loc o.size)
      let w := s.wave o.party
      let v := match o.dst with
        | .scal d pair => if pair then w.putPair d (BitVec.ofNat 64 old) else w.sput d (BitVec.ofNat 32 old)
        | _ => w
      v.present ≠ 0 → o.dst ≠ .none → (w.unfinished = true → ∀ d pair, o.dst = .scal d pair → d < 59 ∨ 63 ≤ d) →
      let got : State → Prop := fun t => exec (.returningOperationComplete o.id) s = .next t ∧ (∀ r, (t.wave o.party).sget r = v.sget r) ∧
        ∀ d pair, o.dst = .vec d pair → t.vget o.party d a.lane = BitVec.ofNat 32 old ∧
          (pair = true → t.vget o.party (d + 1) a.lane = BitVec.ofNat 32 (old / 2 ^ 32))
      let leaves : State → Nat → Prop := fun t n => leNat (t.bytes a.loc o.size) = n % 2 ^ (8 * o.size) ∧
        ∀ x, (x < a.loc ∨ a.loc + o.size ≤ x) → t.byte x = s.byte x
      (o.kind = .load → s.queued o = [] → ∃ t, got t ∧ ∀ x, t.byte x = s.byte x) ∧
      (∀ op, o.kind = .amo op → ∃ t, got t ∧ leaves t (atom (8 * o.size) op old a.data.toNat 0)) ∧
      (o.kind = .amoc → ∃ t, got t ∧ leaves t (if old = a.cmp.toNat then a.data.toNat else old))) ∧
  (∀ (w : Nat) (x y c : BitVec w), w = 32 ∨ w = 64 →
      atom w 0 x.toNat y.toNat c.toNat = (x + y).toNat ∧
      atom w 1 x.toNat y.toNat c.toNat = (if x.toInt ≤ y.toInt then x else y).toNat ∧
      atom w 2 x.toNat y.toNat c.toNat = (if x.toInt ≤ y.toInt then y else x).toNat ∧
      atom w 3 x.toNat y.toNat c.toNat = (if x ≤ y then x else y).toNat ∧
      atom w 4 x.toNat y.toNat c.toNat = (if x ≤ y then y else x).toNat ∧
      atom w 5 x.toNat y.toNat c.toNat = (x &&& y).toNat ∧ atom w 6 x.toNat y.toNat c.toNat = (x ||| y).toNat ∧
      atom w 7 x.toNat y.toNat c.toNat = (x ^^^ y).toNat ∧ atom w 8 x.toNat y.toNat c.toNat = y.toNat ∧
      atom w 9 x.toNat y.toNat c.toNat = (if x = c then y else x).toNat)

/-! ### Returning operations -/

/-- The completion of a returning operation whose lanes are done and carry no poison writes its destination and nothing else of the
elements, ORs its conditions into flg, ends its rows' pending marks, takes one from its flag, and in interlocked mode closes its
registers; in native mode they stay open until a wait names the flag (R46, R68, R77, R99). One that writes s59 to s62 of a
wave that missed waits for its missed form: the model's choice (log entry 117). -/
def Obligations.ReturningOperationWrites : Prop :=
  ∀ (s : State) (o : Op), s.ops.find? (fun x => x.id == o.id) = some o → o.dst ≠ .none → (∀ a ∈ o.lanes, a.done = true ∧ a.poison = false) →
    o.out = false → o.seq = none → (o.lanes.map (·.lane)).Nodup → (∀ a ∈ o.lanes, a.lane < 96) →
    let w := s.wave o.party
    let v := match o.dst, o.lanes with
      | .scal d pair, a :: _ => if pair then w.putPair d a.value else w.sput d (a.value.setWidth 32)
      | _, _ => w
    v.present ≠ 0 → (w.unfinished = true → ∀ d pair, o.dst = .scal d pair → d < 59 ∨ 63 ≤ d) →
    ∃ t, exec (.returningOperationComplete o.id) s = .next t ∧ t.ops = s.ops.filter (fun x => x.id != o.id) ∧
      (∀ r, (t.wave o.party).sget r = v.sget r) ∧ (t.wave o.party).flg = w.flg ||| orFlags o.conds ∧
      (o.flag < 12 → (t.wave o.party).flags.get 0 o.flag = w.flags.get 0 o.flag - 1) ∧
      (t.wave o.party).opens = (if s.nativeOf o.party then w.opens else w.opens.filter (fun x => x.op != o.id)) ∧
      (∀ r ∈ o.rows, (s.info r).owner = o.id → (t.info r).pnd = false) ∧
      (∀ d pair, o.dst = .vec d pair → ∀ a ∈ o.lanes, t.elem (velem o.party d a.lane) = a.value.setWidth 32 ∧
        (pair = true → t.elem (velem o.party (d + 1) a.lane) = (a.value >>> 32).setWidth 32)) ∧
      (∀ k, (∀ d pair, o.dst = .vec d pair → ∀ a ∈ o.lanes, k ≠ velem o.party d a.lane ∧ (pair = true → k ≠ velem o.party (d + 1) a.lane)) →
        t.elem k = s.elem k) ∧ ∀ x, t.byte x = s.byte x

/-! ### Copy engines and tags -/

/-- CPIN, CPOUT and CPRR on an Idle or Done tag whose ranges pass their checks are issued: the tag is Busy, and the command moves whole rows,
CPIN from memory at the handle's base plus the offset, CPOUT to it, CPRR to rows of an adit; CPOUT and CPRR capture their rows at
issue, CPIN's destination rows are pending, and CPRR's where the adit is of the same core, another core's once it takes them
(R178 to R183). GATH and SCAT whose checks pass are issued with one element for each active lane: at base + offset + index · size in memory, or at the
index plus the base element in an adit; SCAT captures its elements at issue (R178 to R183). Poison in their
index register kills the wave (R50, R285). That a captured row may be read before an
earlier access of the wave through a handle has reached it is the model's choice (log entry 94). -/
def Obligations.CopyAndGatherCommandsIssue : Prop :=
  (∀ (s : State) (sb tag : Nat), s.ready [] [sb, sb + 1, sb + 2, sb + 3] → s.unlogged →
      let b := s.block s.me.blk
      let x (i : Nat) : Nat := (s.me.sget (sb + i)).toNat
      let issued : State → CopyCmd → Prop := fun t c =>
        t.copies = s.copies ++ [c] ∧ c.id = s.nextId ∧ c.party = s.cur ∧ c.tag = b.tags.getD tag 0 ∧
        (t.core (coreOf s.cur)).tags.get .idle (b.tags.getD tag 0) = .busy ∧ t.wave s.cur = s.me.advance 1 ∧
        (∀ k, t.elem k = s.elem k) ∧ (∀ a, t.byte a = s.byte a) ∧ ∀ r ∈ c.rows, (t.info r).pnd = true ∧ (t.info r).owner = c.id
      tag < b.tags.length → (s.tagOf s.cur tag = .idle ∨ s.tagOf s.cur tag = .done) →
      (∀ sp e, s.pinned s.cur (x 0) = some e → x 1 + 128 * x 3 ≤ e.len → x 1 % 4 = 0 → s.rowCode s.cur sp (x 2) (x 3) = 0 →
        s.fenced s.cur 0x30 = false →
        let row := s.firstRow s.cur sp (x 2) (x 3)
        (e.rd = true → (∀ i < x 3, s.markHeld s.cur (row + i) = false) →
          ∃ t c, exec (.cpin sb tag sp) s = .next t ∧ issued t c ∧ c.kind = .cpin ∧ c.rows = (List.range (x 3)).map (row + ·) ∧
          c.items.map (fun i => (i.src, i.dst, i.n)) =
            (List.range (x 3)).map (fun i => (some (.mem (e.base + x 1 + 128 * i)), .row (row + i), 128))) ∧
        (e.wr = true → s.codeLocked (e.base + x 1) (128 * x 3) = false → (∀ i < x 3, s.rowHeld (row + i) = false) →
          s.racing s.cur ((List.range (x 3)).map (fun i => (row + i, false))) = [] →
          ∃ t c, exec (.cpout sb tag sp) s = .next t ∧ issued t c ∧ c.kind = .cpout ∧
            c.items.map (fun i => (i.src, i.dst, i.n, i.data, i.poison)) = (List.range (x 3)).map (fun i =>
              (none, .mem (e.base + x 1 + 128 * i), 128, s.rowWords (row + i), s.rowPoison (row + i))))) ∧
      ∀ common, let sp := if common then CpSpace.common else CpSpace.slot
        let h : Handle := s.me.handles.get {} (x 0)
        x 0 < 16 → h.state = .attached → (h.xch = true ∨ h.exporter = s.cur) → x 1 + x 3 ≤ h.rows → s.rowCode s.cur sp (x 2) (x 3) = 0 →
        s.fenced s.cur 0x18 = false →
        let row := s.firstRow s.cur sp (x 2) (x 3)
        let dst := rowKey (coreOf h.exporter) (h.first + x 1)
        (∀ i < x 3, s.rowHeld (row + i) = false ∧ s.handleTouch s.cur (dst + i) = false ∧
          (coreOf h.exporter = coreOf s.cur → s.rowHeld (dst + i) = false)) →
        s.racing s.cur ((List.range (x 3)).map (fun i => (row + i, false))) = [] →
        ∃ t c, exec (.cprr sb tag common) s = .next t ∧ issued t c ∧ c.kind = .cprr ∧
          c.rows = (if coreOf h.exporter = coreOf s.cur then (List.range (x 3)).map (dst + ·) else []) ∧
          c.items.map (fun i => (i.src, i.dst, i.n, i.data)) =
            (List.range (x 3)).map (fun i => (none, .row (dst + i), 128, s.rowWords (row + i)))) ∧
  (∀ (s : State) (sb tag vi sz : Nat) (adit : Bool), s.ready [vi] [sb, sb + 1, sb + 2] → s.unlogged →
      let b := s.block s.me.blk
      let m := s.me.activeMask
      let v := (s.me.sget (sb + 2)).toNat
      let h : Handle := s.me.handles.get {} (s.me.sget sb).toNat
      let base := ((s.pinned s.cur (s.me.sget sb).toNat).map (·.base)).getD 0
      let place (l : Nat) : Loc :=
        if adit then .elem (32 * rowKey (coreOf h.exporter) h.first + ((s.me.sget (sb + 1)).toInt + (s.vget s.cur vi l).toInt).toNat)
        else .mem (base + ((s.me.sget (sb + 1)).toNat + (s.vget s.cur vi l).toNat * 2 ^ sz))
      let issued : State → CopyCmd → Prop := fun t c =>
        t.copies = s.copies ++ [c] ∧ c.engine = .gather ∧ c.party = s.cur ∧ c.tag = b.tags.getD tag 0 ∧
        (t.core (coreOf s.cur)).tags.get .idle (b.tags.getD tag 0) = .busy ∧ t.wave s.cur = s.me.advance 1 ∧
        (∀ k, t.elem k = s.elem k) ∧ ∀ a, t.byte a = s.byte a
      tag < b.tags.length → (s.tagOf s.cur tag = .idle ∨ s.tagOf s.cur tag = .done) → m ≠ 0 → sz < 4 → (adit = true → sz = 2) →
      s.clear (s.inActive [vi]) [] →
      let clean : Prop := s.clean (s.inActive [vi])
      (s.gatherCode s.cur sb adit sz vi false = 0 → s.fenced s.cur (if adit then 0x34 else 0x30) = false →
        (∀ r ∈ State.destRows s.cur (.vec v (sz == 3)), s.markHeld s.cur r = false) →
        (∀ l ∈ lanesOf m, match place l with | .elem k => s.handleTouch s.cur (k / 32) = false | _ => True) →
        (¬clean → ∃ t, exec (.gath sb tag adit sz vi) s = .next t ∧ s.kills t) ∧
        (clean → ∃ t c, exec (.gath sb tag adit sz vi) s = .next t ∧ issued t c ∧ c.kind = .gath ∧
          c.rows = State.destRows s.cur (.vec v (sz == 3)) ∧
          c.items.map (fun i => (i.src, i.dst, i.n, i.lane)) = (lanesOf m).map (fun l => (some (place l), .elem (velem s.cur v l), 2 ^ sz, l)))) ∧
      (s.gatherCode s.cur sb adit sz vi true = 0 → s.fenced s.cur (if adit then 0x18 else 0x30) = false →
        (∀ l ∈ lanesOf m, match place l with
          | .mem a => s.codeLocked a (2 ^ sz) = false
          | .elem k => s.handleTouch s.cur (k / 32) = false ∧ (coreOf h.exporter = coreOf s.cur → s.rowHeld (k / 32) = false)
          | _ => True) →
        (∀ r ∈ rowsOf s.cur (s.inActive (if sz = 3 then [v, v + 1] else [v])), s.rowHeld r = false ∧ s.raceRow s.cur r false ≠ none) →
        (¬clean → ∃ t, exec (.scat sb tag adit sz vi) s = .next t ∧ s.kills t) ∧
        (clean → ∃ t c, exec (.scat sb tag adit sz vi) s = .next t ∧ issued t c ∧ c.kind = .scat ∧
          c.items.map (fun i => (i.src, i.dst, i.n, i.data)) = (lanesOf m).map (fun l =>
            (none, place l, 2 ^ sz, if sz = 3 then [s.vget s.cur v l, s.vget s.cur (v + 1) l] else [s.vget s.cur v l])))))

/-- A command on a tag that the block does not have halts the context with 0x001B, one on a tag in Error with 0x001A. A command whose checks
fail puts its tag in Error with the lowest code that applies, and the wave goes on; nothing is transferred: 1 a memory handle that is
not valid, 2 a range outside it, 3 a permission that is missing, 4 a ceiling bay that is not granted, 5 an adit handle, its bounds or its
permission, 6 a row range, register or offset outside R181's limits, 8 a source row that races, with nothing transferred (R37, R54, R178,
R181, R182). -/
def Obligations.CopyErrorsGoToTag : Prop :=
  ∀ (s : State) (i : Instr) (sb tag : Nat) (vecs scals : List Nat) (cls : BitVec 8) (bad : Nat → Prop) (sources : List Nat),
    let b := s.block s.me.blk
    let x (i : Nat) : Nat := (s.me.sget (sb + i)).toNat
    let m := s.me.activeMask
    let h : Handle := s.me.handles.get {} (x 0)
    let range : CpSpace → Prop := fun sp => 0 < x 3 ∧ (match sp with
      | .slot => x 2 + x 3 ≤ 768
      | .common => (commonRow b (x 2) (x 3)).isSome = true
      | .ceil => x 2 + x 3 ≤ 98304)
    let ungranted : CpSpace → Prop := fun sp => sp = .ceil ∧ 0 < x 3 ∧ ∃ y < 3, x 2 < 32768 * (y + 1) ∧ 32768 * y < x 2 + x 3 ∧
      (s.core (coreOf s.cur)).grants.get none y ≠ some s.me.lid
    let ofMem : CpSpace → Bool → Nat → Prop := fun sp write code => match code with
      | 1 => s.pinned s.cur (x 0) = none
      | 2 => ∃ e, s.pinned s.cur (x 0) = some e ∧ e.len < x 1 + 128 * x 3
      | 3 => ∃ e, s.pinned s.cur (x 0) = some e ∧ (if write then e.wr else e.rd) = false
      | 4 => ungranted sp
      | 6 => ¬range sp ∨ x 1 % 4 ≠ 0
      | 8 => write = true ∧ s.racing s.cur (sources.map (fun r => (r, false))) ≠ []
      | _ => False
    let ofLanes : Bool → Bool → Nat → Nat → Nat → Prop := fun adit write sz vi code =>
      let off (l : Nat) : Nat := x 1 + (s.vget s.cur vi l).toNat * 2 ^ sz
      let idx (l : Nat) : Int := (s.me.sget (sb + 1)).toInt + (s.vget s.cur vi l).toInt
      match code with
      | 1 => adit = false ∧ s.pinned s.cur (x 0) = none
      | 2 => adit = false ∧ ∃ e, s.pinned s.cur (x 0) = some e ∧ ∃ l ∈ lanesOf m, e.len < off l + 2 ^ sz
      | 3 => adit = false ∧ ∃ e, s.pinned s.cur (x 0) = some e ∧ (if write then e.wr else e.rd) = false
      | 5 => adit = true ∧ x 0 < 16 ∧ (h.state ≠ .attached ∨ (∃ l ∈ lanesOf m, idx l < 0 ∨ (32 * h.rows : Int) ≤ idx l) ∨
          (write = true ∧ h.xch = false ∧ h.exporter ≠ s.cur))
      | 6 => (adit = true ∧ 16 ≤ x 0) ∨ (adit = false ∧ x 1 % 2 ^ sz ≠ 0) ∨ (if sz = 3 then 254 else 255) < x 2
      | 8 => write = true ∧ s.racing s.cur (sources.map (fun r => (r, false))) ≠ []
      | _ => False
    ((∃ sp, i = .cpin sb tag sp ∧ vecs = [] ∧ scals = [0, 1, 2, 3] ∧ cls = 0x30 ∧ bad = ofMem sp false ∧ sources = []) ∨
     (∃ sp, i = .cpout sb tag sp ∧ vecs = [] ∧ scals = [0, 1, 2, 3] ∧ cls = 0x30 ∧ bad = ofMem sp true ∧
        sources = (List.range (x 3)).map (s.firstRow s.cur sp (x 2) (x 3) + ·) ∧
        ∀ e, s.pinned s.cur (x 0) = some e → s.codeLocked (e.base + x 1) (128 * x 3) = false) ∨
     (∃ common, let sp := if common then CpSpace.common else CpSpace.slot
        i = .cprr sb tag common ∧ vecs = [] ∧ scals = [0, 1, 2, 3] ∧ cls = 0x18 ∧
        sources = (List.range (x 3)).map (s.firstRow s.cur sp (x 2) (x 3) + ·) ∧
        (∀ j < x 3, let r := rowKey (coreOf h.exporter) (h.first + x 1 + j)
          s.handleTouch s.cur r = false ∧ (coreOf h.exporter = coreOf s.cur → s.rowHeld r = false)) ∧
        bad = fun code => match code with
          | 5 => x 0 < 16 ∧ (h.state ≠ .attached ∨ (0 < x 3 ∧ h.rows < x 1 + x 3) ∨ (h.xch = false ∧ h.exporter ≠ s.cur))
          | 6 => 16 ≤ x 0 ∨ ¬range sp
          | 8 => s.racing s.cur (sources.map (fun r => (r, false))) ≠ []
          | _ => False) ∨
     (∃ adit sz vi, i = .gath sb tag adit sz vi ∧ vecs = [vi] ∧ scals = [0, 1, 2] ∧ cls = (if adit then 0x34 else 0x30) ∧
        bad = ofLanes adit false sz vi ∧ sources = [] ∧ sz < 4) ∨
     (∃ adit sz vi, i = .scat sb tag adit sz vi ∧ vecs = [vi] ∧ scals = [0, 1, 2] ∧ cls = (if adit then 0x18 else 0x30) ∧
        bad = ofLanes adit true sz vi ∧ sources = rowsOf s.cur (s.inActive (if sz = 3 then [x 2, x 2 + 1] else [x 2])) ∧ sz < 4 ∧
        (adit = false → ∀ e l, s.pinned s.cur (x 0) = some e → l ∈ lanesOf m →
          s.codeLocked (e.base + (x 1 + (s.vget s.cur vi l).toNat * 2 ^ sz)) (2 ^ sz) = false) ∧
        (adit = true → ∀ l ∈ lanesOf m,
          let r := (32 * rowKey (coreOf h.exporter) h.first + ((s.me.sget (sb + 1)).toInt + (s.vget s.cur vi l).toInt).toNat) / 32
          s.handleTouch s.cur r = false ∧ (coreOf h.exporter = coreOf s.cur → s.rowHeld r = false)))) →
    s.ready vecs (scals.map (sb + ·)) → s.unlogged →
    (b.tags.length ≤ tag → ∃ t, exec i s = .next t ∧ s.halted t 0x1B tag 0 0) ∧
    (∀ c, tag < b.tags.length → s.tagOf s.cur tag = .error c → ∃ t, exec i s = .next t ∧ s.halted t 0x1A (256 * tag + c) 0 0) ∧
    (tag < b.tags.length → (s.tagOf s.cur tag = .idle ∨ s.tagOf s.cur tag = .done) → s.fenced s.cur cls = false →
      s.clear (s.inActive vecs) [] → s.clean (s.inActive vecs) → (∀ r ∈ sources, s.rowHeld r = false) →
      ∀ code, bad code → (∀ c < code, ¬bad c) →
        ∃ t, exec i s = .next t ∧ t.wave s.cur = s.me.advance 1 ∧ (t.core (coreOf s.cur)).tags.get .idle (b.tags.getD tag 0) = .error code ∧
          t.copies = s.copies ∧ (∀ k, t.elem k = s.elem k ∧ t.poisoned k = s.poisoned k) ∧ ∀ a, t.byte a = s.byte a)

/-- An engine that moves one row of a CPIN writes the 32 words of memory at its source to the row and no other element; one that moves a
row of a CPOUT writes the row's bytes to memory and no other byte; one of a CPRR writes the captured words, with their poison, to the
adit's row. An element of a GATH is read from memory, zero-extended, 8 bytes into two registers, or from the adit; one of a SCAT goes to
its bytes of memory or to its element. A row of a WRECV or WLATE gets its values. With the last item the tag is Done, in Error with code 7
where poison was carried (R46, R50, R183, R245). A row that races ends the command with code 8 and is not written (R56, R182). A write to a
remote package is done when it is acknowledged; a transfer whose retransmissions fail puts its tag in Error with code 9 (R182, R324). -/
def Obligations.EnginesTransfer : Prop :=
  (∀ (s : State) (c : CopyCmd) (n : Nat) (i : CopyItem), s.copies.find? (fun x => x.id == c.id) = some c → c.items[n]? = some i →
      s.itemReady c n i = true → c.code = 0 → (s.block (s.wave c.party).blk).logging = false →
      let last : Prop := ∀ (j : Nat) y, c.items[j]? = some y → j ≠ n → y.done = true
      let moves : (State → Prop) → Prop := fun what => ∃ t, exec (.engineRowDelivery c.id n) s = .next t ∧ what t ∧
        (last → t.copies = s.copies.filter (fun x => x.id != c.id) ∧
          (c.kind ≠ .intake → (t.core c.core).tags.get .idle c.tag = if i.src = none ∧ i.poison.any id then .error 7 else .done))
      let only : State → (Nat → Prop) → Prop := fun t at_ => (∀ k, ¬at_ k → t.elem k = s.elem k) ∧ ∀ a, t.byte a = s.byte a
      (s.racing c.party (State.itemAccesses c n i) ≠ [] → c.kind ≠ .intake → ∃ t, exec (.engineRowDelivery c.id n) s = .next t ∧
        (t.core c.core).tags.get .idle c.tag = .error 8 ∧ t.copies = s.copies.filter (fun x => x.id != c.id) ∧ only t (fun _ => False)) ∧
      (s.racing c.party (State.itemAccesses c n i) = [] →
        (∀ pa r, c.kind = .cpin → i.src = some (.mem pa) → i.dst = .row r → i.n = 128 → pa + 128 ≤ 0x6000000000 → s.loadPoison pa 128 = false →
          moves fun t => (∀ e < 32, t.elem (elemKey r e) = BitVec.ofNat 32 (leNat (s.bytes (pa + 4 * e) 4)) ∧ t.poisoned (elemKey r e) = false) ∧
            only t (fun k => ∃ e < 32, k = elemKey r e)) ∧
        (∀ r, c.kind = .cprr → i.src = none → i.dst = .row r → i.data.length = 32 →
          moves fun t => (∀ e < 32, t.elem (elemKey r e) = i.data.getD e 0 ∧ t.poisoned (elemKey r e) = i.poison.getD e false) ∧
            only t (fun k => ∃ e < 32, k = elemKey r e)) ∧
        (∀ pa e, c.kind = .gath → i.src = some (.mem pa) → i.dst = .elem e → i.n ∈ [1, 2, 4, 8] → pa + i.n ≤ 0x6000000000 →
          s.loadPoison pa i.n = false →
          moves fun t => t.elem e = BitVec.ofNat 32 (leNat (s.bytes pa (min 4 i.n))) ∧
            (i.n = 8 → t.elem (e + 96) = BitVec.ofNat 32 (leNat (s.bytes (pa + 4) 4))) ∧ only t (fun k => k = e ∨ (i.n = 8 ∧ k = e + 96))) ∧
        (∀ k e, c.kind = .gath → i.src = some (.elem k) → i.dst = .elem e → i.n = 4 → s.poisoned k = false →
          moves fun t => t.elem e = s.elem k ∧ only t (fun x => x = e)) ∧
        (∀ e, c.kind = .scat → i.src = none → i.dst = .elem e → i.data.length = 1 →
          moves fun t => t.elem e = i.data.getD 0 0 ∧ t.poisoned e = i.poison.getD 0 false ∧ only t (fun x => x = e)) ∧
        (∀ r es, c.kind = .intake → i.src = none → i.dst = .puts r es → (es.map (·.1)).Nodup →
          moves fun t => (∀ e ∈ es, t.elem e.1 = e.2) ∧ only t (fun k => ∃ e ∈ es, k = e.1)) ∧
        (∀ pa, c.kind = .cpout ∨ c.kind = .scat → i.src = none → i.dst = .mem pa → pa + i.n ≤ 0x6000000000 → i.n ≤ 4 * i.data.length →
          moves fun t => (∀ j < i.n, t.byte (pa + j) = (i.data.getD (j / 4) 0).extractLsb' (8 * (j % 4)) 8) ∧
            (∀ a, (a < pa ∨ pa + i.n ≤ a) → t.byte a = s.byte a) ∧ ∀ k, t.elem k = s.elem k))) ∧
  (∀ (s : State) (c : CopyCmd) (n : Nat) (i : CopyItem), s.copies.find? (fun x => x.id == c.id) = some c → c.items[n]? = some i →
      (s.copies.map (·.id)).Nodup → i.sent = true → i.done = false → c.kind = .cpout ∨ c.kind = .scat →
      ((∃ (j : Nat) (y : CopyItem), c.items[j]? = some y ∧ j ≠ n ∧ y.done = false) → ∃ t y, exec (.remoteWriteAck c.id n) s = .next t ∧
        t.copies.find? (fun x => x.id == c.id) = some y ∧ ((y.items[n]?).map (·.done)) = some true ∧
        (∀ k, t.elem k = s.elem k) ∧ ∀ a, t.byte a = s.byte a) ∧
      ∃ t, exec (.remoteRetransmissionFailure c.id) s = .next t ∧ (t.core c.core).tags.get .idle c.tag = .error 9 ∧
        t.copies = s.copies.filter (fun x => x.id != c.id) ∧ (∀ k, t.elem k = s.elem k) ∧ ∀ a, t.byte a = s.byte a)

/-- TWALL waits while a named tag is Busy, then halts the context with 0x001A, the tag and its code as detail, where one is in Error, and goes on
else; TWANY waits while every named tag is Busy, then gives the lowest that is not, or halts so where that is in Error; it gives 64 where none is
named. The tags keep their states. TFFR gives the
lowest in Done or Error, or 64; TCLR makes every named tag that is not Busy Idle; TSTAT gives the tags in Done, Error or Busy, or the
lowest in Error with its code (R184, R185). -/
def Obligations.TagFormsComplete : Prop :=
  ∀ (s : State) (a : Nat), s.unlogged →
    let b := s.block s.me.blk
    let named : Nat → Prop := fun i => i < b.tags.length ∧ (s.me.pair a).getLsbD i = true
    let bad : Nat → Prop := fun i => ∃ c, s.tagOf s.cur i = .error c
    let waits : State → Prop := fun t => (t.wave s.cur).pc = s.me.pc ∧ (t.wave s.cur).k = s.me.k ∧ (t.wave s.cur).reasons = 0x20 ∧
      (t.wave s.cur).active = false ∧ s.onlyMe t
    let stops : State → Nat → Nat → Prop := fun t i c => s.halted t 0x1A (256 * i + c) 0 0 ∧ ∀ j, t.tagOf s.cur j = s.tagOf s.cur j
    (s.ready [] [a, a + 1] → (∀ i, named i → s.tagOf s.cur i ≠ .busy ∧ ¬bad i) → ∃ t, exec (.twall a) s = .next t ∧ s.becomes t (s.me.advance 1)) ∧
    (s.ready [] [a, a + 1] → (∃ i, named i ∧ s.tagOf s.cur i = .busy) → ∃ t, exec (.twall a) s = .next t ∧ waits t) ∧
    (s.ready [] [a, a + 1] → (∀ i, named i → s.tagOf s.cur i ≠ .busy) → ∀ i c, named i → s.tagOf s.cur i = .error c → (∀ j < i, named j → ¬bad j) →
      ∃ t, exec (.twall a) s = .next t ∧ stops t i c) ∧
    (∀ d, s.ready [] [d, a, a + 1] →
      ((∃ i, named i) → (∀ i, named i → s.tagOf s.cur i = .busy) → ∃ t, exec (.twany d a) s = .next t ∧ waits t) ∧
      (∀ i c, named i → s.tagOf s.cur i = .error c → (∀ j < i, named j → s.tagOf s.cur j = .busy) → ∃ t, exec (.twany d a) s = .next t ∧ stops t i c) ∧
      ((∀ i, ¬named i) → exec (.twany d a) s = .next (s.gives ((s.me.sput d 64).advance 1))) ∧
      (∀ i, named i → s.tagOf s.cur i ≠ .busy → ¬bad i → (∀ j < i, named j → s.tagOf s.cur j = .busy) →
        exec (.twany d a) s = .next (s.gives ((s.me.sput d (BitVec.ofNat 32 i)).advance 1))) ∧
      (∀ i, named i → (s.tagOf s.cur i = .done ∨ bad i) → (∀ j < i, named j → s.tagOf s.cur j ≠ .done ∧ ¬bad j) →
        exec (.tffr d a) s = .next (s.gives ((s.me.sput d (BitVec.ofNat 32 i)).advance 1))) ∧
      ((∀ i, named i → s.tagOf s.cur i ≠ .done ∧ ¬bad i) → exec (.tffr d a) s = .next (s.gives ((s.me.sput d 64).advance 1)))) ∧
    (s.ready [] [a, a + 1] → b.tags.Nodup → (∀ t ∈ b.tags, t < 64) → ∃ t, exec (.tclr a) s = .next t ∧ t.wave s.cur = s.me.advance 1 ∧
      (∀ i, named i → t.tagOf s.cur i = if s.tagOf s.cur i = .busy then .busy else .idle) ∧
      (∀ i < b.tags.length, ¬named i → t.tagOf s.cur i = s.tagOf s.cur i) ∧ s.sameStorage t) ∧
    (∀ d, s.ready [] [d, d + 1] →
      let gives : Nat → Prop := fun v => exec (.tstat d 3) s = .next (s.gives (((s.me.sput d (BitVec.ofNat 32 v)).sput (d + 1) 0).advance 1))
      ((∀ i < b.tags.length, ¬bad i) → gives 0) ∧
      ∀ i c, i < b.tags.length → i < 64 → c < 256 → s.tagOf s.cur i = .error c → (∀ j < i, ¬bad j) → gives (256 * i + c)) ∧
    ∀ d sel, s.ready [] [d, d + 1] → b.tags.length ≤ 64 → sel < 3 → ∃ v : DWord,
      exec (.tstat d sel) s = .next (s.gives (((s.me.sput d (v.setWidth 32)).sput (d + 1) ((v >>> 32).setWidth 32)).advance 1)) ∧
      ∀ i < 64, v.getLsbD i = true ↔ (i < b.tags.length ∧
        (if sel = 0 then s.tagOf s.cur i = .done else if sel = 1 then bad i else s.tagOf s.cur i = .busy))

/-! ### Matrix bays -/

/-- GANG sets the gang of two to six waves of the block that include the wave, with a bay that the block holds, and gives 0; else it clears
the gang and gives 1 or 2. MWL, MDRN and MZER join the bay's queue of 8; MDRN captures its scales and md, and its destination rows are
pending. An MMA joins a rendezvous of its gang and waits, or goes on with abandoned status where a listed wave has ended. MHINT
ramps a bay up. MSTAT gives the latches and the ramp, or the counters, once the commands queued before it are done. Each form on a bay
that the block does not hold halts the context with 0x0014, MWL and MDRN with 0x001E on an operand out of range, and an MMA without a gang
with 0x001C (R189, R194 to R204). -/
def Obligations.BayFormsComplete : Prop :=
  ∀ (s : State) (bay : Nat), s.ready [] [] → s.unlogged →
    let c := coreOf s.cur
    let y := s.bay c bay
    let blk := s.block s.me.blk
    let joined : State → BayWork → Prop := fun t work =>
      (∃ x, (t.bay c bay).queue = y.queue ++ [x] ∧ x.work = work ∧ x.party = s.cur ∧ x.id = s.nextId ∧ x.started = false ∧
        x.pc = s.me.pc ∧ x.k = s.me.k) ∧
      t.wave s.cur = s.me.advance 1 ∧ (∀ k, t.elem k = s.elem k) ∧ ∀ a, t.byte a = s.byte a
    (∀ d a, s.ready [] [d, a] →
      let v := s.me.sget a
      let ms := (List.range 16).filter (fun i => v.getLsbD i)
      let st : Nat := if ms.length < 2 ∨ 6 < ms.length ∨ ms.any (fun i => decide (blk.n ≤ i)) ∨ s.me.num ∉ ms then 1
        else if bitsOf v.toNat 17 16 = 3 ∨ bitsOf v.toNat 17 16 ∉ blk.bays ∨ bitsOf v.toNat 31 24 ≠ 0 then 2 else 0
      exec (.gang d a) s = .next (s.gives { (s.me.sput d (BitVec.ofNat 32 st)).advance 1 with gng := if st = 0 then v else 0 })) ∧
    (bay ∈ blk.bays → y.queue.length < 8 → (∀ x ∈ y.queue, x.id ≠ s.nextId) →
      (∀ lat a fmt, s.ready [] [a] → s.fenced s.cur 0x40 = false → (s.me.sget a).toNat < 256 → (fmt = .b16 → (s.me.sget a).toNat ≤ 254) →
        ∃ t, exec (.mwl bay lat a fmt) s = .next t ∧ joined t (.mwl lat (s.me.sget a).toNat fmt 0)) ∧
      (∀ row count, ∃ t, exec (.mzer bay row count) s = .next t ∧ joined t (.mzer row count)) ∧
      ∀ sb out i32acc clr common, s.ready [] [sb, sb + 1, sb + 2, sb + 3] → s.fenced s.cur 0x80 = false →
        let x (i : Nat) : Nat := (s.me.sget (sb + i)).toNat
        let sp := if common then CpSpace.common else CpSpace.slot
        let n := (out.width * x 1 + 7) / 8
        let row := s.firstRow s.cur sp (x 2) n
        0 < x 1 → x 0 + x 1 ≤ 64 → x 3 ≤ 255 → s.rowCode s.cur sp (x 2) n = 0 → s.clear [(x 3, maskOf (fun l => decide (l < 48)))] [] →
        (∀ j < n, s.markHeld s.cur (row + j) = false ∧ s.boundTouch s.cur (row + j) = false) →
        ∃ t, exec (.mdrn sb bay out i32acc clr common) s = .next t ∧
          joined t (.mdrn (x 0) (x 1) out i32acc clr s.me.md ((List.range 48).map (fun l => s.vget s.cur (x 3) l))
            ((List.range 48).map (fun l => s.poisoned (velem s.cur (x 3) l))) row n) ∧
          ∀ j < n, (t.info (row + j)).pnd = true ∧ (t.info (row + j)).owner = s.nextId) ∧
    (bay ∈ blk.bays → (∀ cycles, ∃ t, exec (.mhint bay cycles) s = .next t ∧ t.wave s.cur = s.me.advance 1 ∧ s.sameStorage t ∧
        (t.bay c bay).hintEnd = s.clock + BitVec.ofNat 64 cycles ∧ (t.bay c bay).queue = y.queue ∧
        (t.bay c bay).ramp = (if y.ramp = .warm then (if cycles = 0 ∧ y.streams = false ∧ y.mmaWaits = false then .down else .warm) else .up)) ∧
      ∀ d sel clr, s.ready [] [d, d + 1] → (s.me.awaits = none ∧ y.queue = [] ∨
          ∃ ids, s.me.awaits = some ids ∧ ∀ x ∈ ids, s.outstanding x = false) →
        let l (n : Nat) : Latch := y.latches.get {} n
        let w := (s.me.sput d (if sel then BitVec.ofNat 32 (latchCode (l 0).state + 4 * latchCode (l 1).state + 16 * fmtCode (l 0).fmt +
            256 * fmtCode (l 1).fmt + 4096 * rampCode y.ramp) else y.bsat)).sput (d + 1)
          (if sel then BitVec.ofNat 32 ((l 0).tile + 256 * (l 1).tile) else y.bnan)
        w.present ≠ 0 → ∃ t, exec (.mstat d bay sel clr) s = .next t ∧ t.wave s.cur = w.advance 1 ∧ s.sameStorage t ∧
          (t.bay c bay).bsat = (if clr then 0 else y.bsat) ∧ (t.bay c bay).bnan = if clr then 0 else y.bnan) ∧
    (bay ∉ blk.bays → ∀ i names, s.ready [] names →
      ((∃ lat a fmt, i = .mwl bay lat a fmt ∧ names = [a]) ∨ (∃ row count, i = .mzer bay row count ∧ names = []) ∨
        (∃ sb out acc clr common, i = .mdrn sb bay out acc clr common ∧ names = [sb, sb + 1, sb + 2, sb + 3]) ∨
        (∃ cycles, i = .mhint bay cycles ∧ names = []) ∨ ∃ d sel clr, i = .mstat d bay sel clr ∧ names = [d, d + 1]) →
      ∃ t, exec i s = .next t ∧ s.halted t 0x14 0 0 0) ∧
    (bay ∈ blk.bays → ∀ i names, s.ready [] names →
      ((∃ lat a fmt, i = .mwl bay lat a fmt ∧ names = [a] ∧ s.fenced s.cur 0x40 = false ∧
          (256 ≤ (s.me.sget a).toNat ∨ (fmt = .b16 ∧ 254 < (s.me.sget a).toNat))) ∨
        ∃ sb out acc clr common, i = .mdrn sb bay out acc clr common ∧ names = [sb, sb + 1, sb + 2, sb + 3] ∧ s.fenced s.cur 0x80 = false ∧
          let x (i : Nat) : Nat := (s.me.sget (sb + i)).toNat
          (x 1 = 0 ∨ 64 < x 0 + x 1 ∨ 255 < x 3 ∨
            s.rowCode s.cur (if common then .common else .slot) (x 2) ((out.width * x 1 + 7) / 8) ≠ 0)) →
      ∃ t, exec i s = .next t ∧ s.halted t 0x1E 0 0 0) ∧
    ((∀ i < 16, s.me.gng.getLsbD i = false) → ∀ f count lat, ∃ t, exec (.mma f count lat) s = .next t ∧ s.halted t 0x1C 0 0 0) ∧
    (s.fenced s.cur 0x40 = false → (s.block? s.me.blk).isSome = true → ∀ f count lat,
      (∃ i < 16, s.me.gng.getLsbD i = true) →
      let live : Prop := ∀ i < 16, s.me.gng.getLsbD i = true → blk.ends.get .live i = .live
      (live → ∃ t, exec (.mma f count lat) s = .next t ∧ (t.wave s.cur).wait = .rendezvous ∧ (t.wave s.cur).pc = s.me.pc ∧
        let m : Member := { party := s.cur, pc := s.me.pc, k := s.me.k, vf := f, count := count, lat := lat, typ := typeOf s.me.md, gng := s.me.gng }
        ∃ r ∈ (t.block s.me.blk).rends, (s.me.num, m) ∈ r.members) ∧
      (¬live → ∃ t, exec (.mma f count lat) s = .next t ∧ s.becomes t { s.me.advance 1 with abn := true }))

/-- The steps of a bay: a command starts once no earlier one holds what it needs (an MWL takes its latch, an MMA the weights, an MZER zeroes
its rows); LATCH_READY reads the tile into the latch; MMA_RETIRE reads a member's last row and lets its wave go on; ACCUMULATION_WRITE
adds an A-row's products to the 128 elements of an accumulator row. An MDRN reads one accumulator row at a time, drains it and with CLR
zeroes it; DRAIN_ROW_WRITE, once the rows that feed a destination row are read, writes it and clears its mark, or on a race writes nothing and
halts the context with cause 0x0027, detail 1, at the command's word and the row, the rows not yet read left as they are (R94, R96, R191,
R194, R197 to R202, R333). That an MZER takes all its rows at its start, that an MDRN counts the 0xFF codes of its columns there, and how
far it reads ahead are the model's choices (log entry 28). -/
def Obligations.BayStepsComplete : Prop :=
  ∀ (s : State) (c b : Nat) (x : BayCmd),
    let y := s.bay c b
    let acc (i n : Nat) : Nat := elemKey (bayRow c b (4 * i + n / 32)) (n % 32)
    let inAcc : Nat → Nat → Nat → Prop := fun row count k => ∃ i n, row ≤ i ∧ i < row + count ∧ n < 128 ∧ k = acc i n
    (∀ pre post, y.queue = pre ++ x :: post → pre.length < 8 → (∀ e ∈ pre, e.id ≠ x.id ∧ holds e x = false) → x.started = false →
      s.lineAt (s.wave x.party).lid c = false →
      (∀ lat tile fmt col, x.work = .mwl lat tile fmt col → ∃ t, exec (.bayCommandStart c b x.id) s = .next t ∧ s.sameStorage t ∧
        (t.bay c b).latches.get {} lat = { state := .loading, tile := tile, fmt := fmt }) ∧
      (∀ ms lat row total, x.work = .mma ms lat row total → ∃ t, exec (.bayCommandStart c b x.id) s = .next t ∧ s.sameStorage t ∧
        ∃ z ∈ (t.bay c b).queue, z.id = x.id ∧ z.started = true ∧ z.work = x.work ∧ z.weights = y.latches.get {} lat) ∧
      (∀ row count, x.work = .mzer row count → ∃ t, exec (.bayCommandStart c b x.id) s = .next t ∧
        (∀ k, inAcc row count k → t.elem k = 0 ∧ t.poisoned k = false) ∧ (∀ k, ¬inAcc row count k → t.elem k = s.elem k) ∧
        (t.bay c b).queue = pre ++ post.filter (fun e => e.id != x.id) ∧ ∀ a, t.byte a = s.byte a) ∧
      (∀ i n out i32acc clr md scales bad dst rows, x.work = .mdrn i n out i32acc clr md scales bad dst rows →
        ∃ t, exec (.bayCommandStart c b x.id) s = .next t ∧ { x with started := true } ∈ (t.bay c b).queue ∧ s.sameStorage t ∧
          (t.bay c b).bsat = y.bsat ∧ (t.bay c b).bnan.toNat =
            min 0xFFFFFFFF (y.bnan.toNat + (List.range 128).countP (fun j => (State.scaleCode scales bad 0 j).1 == 255)))) ∧
    (∀ lat tile fmt, s.loadingCmd c b = some x → x.work = .mwl lat tile fmt 0 → x.served = [] → x.seq = none →
      s.lineAt (s.wave x.party).lid c = false → (∀ col < 128, ∀ r ∈ State.tileRows c b tile col fmt, s.rowHeld r = false) →
      ∃ t, exec (.latchReady c b lat) s = .next t ∧ s.sameStorage t ∧ ((t.bay c b).latches.get {} lat).state = .ready ∧
        (∀ col < 128, ((t.bay c b).latches.get {} lat).cols.get [] col = (State.tileRows c b tile col fmt).flatMap s.rowWords) ∧
        (t.bay c b).queue = y.queue.filter (fun e => e.id != x.id)) ∧
    (∀ pre m post lat row0 total, s.streaming c b = some x → x.work = .mma (pre ++ m :: post) lat row0 total →
      (∀ e ∈ pre, e.read = 3 * e.count) → m.read + fmtRows x.weights.fmt = 3 * m.count → y.ramp = .warm →
      s.lineAt (s.wave x.party).lid c = false →
      let rows := (List.range (fmtRows x.weights.fmt)).map (fun u => slotRow m.party (3 * m.vf + m.read + u))
      (∀ r ∈ rows, s.rowBlocked m.party r = false) → s.racing m.party (rows.map (fun r => (r, false))) = [] →
      (s.wave m.party).status = .running → (s.wave m.party).wait = .stream →
      ∃ t, exec (.mmaRetire c b) s = .next t ∧ (∀ k, t.elem k = s.elem k) ∧ (∀ a, t.byte a = s.byte a) ∧
        t.wave m.party = { (s.wave m.party).advance 1 with wait := .none, readySince := s.clock } ∧
        ∃ z ∈ (t.bay c b).queue, z.id = x.id ∧ ∃ a : ARow, z.accs = x.accs ++ [a] ∧ a.words = rows.flatMap s.rowWords ∧ a.typ = m.typ ∧
          a.row = row0 + ((pre.map (·.read)).sum + m.read) / fmtRows x.weights.fmt) ∧
    (∀ a rest, y.queue.find? (fun e => !e.accs.isEmpty && !e.raced) = some x → x.accs = a :: rest →
      ∃ t, exec (.accumulationWrite c b) s = .next t ∧
        (∀ n < 128, t.elem (acc a.row n) =
          (chainStep a.typ (fmtElements x.weights.fmt) a.words (x.weights.cols.get [] n) (s.elem (acc a.row n))).1) ∧
        (∀ k, ¬inAcc a.row 1 k → t.elem k = s.elem k) ∧ ∀ z, t.byte z = s.byte z) ∧
    (∀ i n out i32acc clr md scales bad dst rows, s.drainingCmd c b = some x → x.work = .mdrn i n out i32acc clr md scales bad dst rows →
      x.accRead < n → (x.accRead - 6) * out.width / 8 ≤ x.written → out.width ∈ [4, 8, 16, 32] → s.lineAt (s.wave x.party).lid c = false →
      let one : Nat → Nat × Bool × Bool := fun j => s.drained c b (i + x.accRead) j out i32acc md scales bad
      ∃ t, s.attempt (.drainRead c b) = .next t ∧
        (∀ k, inAcc (i + x.accRead) 1 k → t.elem k = if clr then 0 else s.elem k) ∧ (∀ k, ¬inAcc (i + x.accRead) 1 k → t.elem k = s.elem k) ∧
        (∀ a, t.byte a = s.byte a) ∧
        (t.bay c b).bsat.toNat = min 0xFFFFFFFF (y.bsat.toNat + (List.range 128).countP (fun j => (one j).2.1)) ∧
        (t.bay c b).bnan.toNat = min 0xFFFFFFFF (y.bnan.toNat + if (State.scaleCode scales bad 32 (i + x.accRead)).1 = 255 then 1 else 0) ∧
        ∃ z ∈ (t.bay c b).queue, z.id = x.id ∧ z.accRead = x.accRead + 1 ∧ z.written = x.written ∧
          z.output.length = x.output.length + 4 * out.width ∧ z.output.take x.output.length = x.output ∧
          ∀ j < 128, let v := z.output.getD (x.output.length + j / out.count) (0, false)
            (v.1 >>> (out.width * (j % out.count))).toNat % 2 ^ out.width = (one j).1 % 2 ^ out.width ∧
            ((one j).2.2 = true → v.2 = true)) ∧
    ∀ i n out i32acc clr md scales bad dst rows u z, s.drainingCmd c b = some x → x.work = .mdrn i n out i32acc clr md scales bad dst rows →
      s.readAccs c b (feeders n x.written out - x.accRead) = some u → u.drainingCmd c b = some z →
      let key := dst + x.written
      (u.racing z.party [(key, true)] ≠ [] → ∀ l, u.launch? (u.wave z.party).lid = some l → l.halt = none →
        ∃ t h, exec (.drainRowWrite c b) s = .next t ∧ (∀ k, t.elem k = u.elem k) ∧ (∀ a, t.byte a = u.byte a) ∧
          (t.launch l.lid).halt = some h ∧ h.cause = 0x27 ∧ h.detail = 1 ∧ h.pc = resumeWord z.pc z.k ∧
          h.addr = BitVec.ofNat 64 (key % 197376)) ∧
      (u.racing z.party [(key, true)] = [] →
      ∃ t, exec (.drainRowWrite c b) s = .next t ∧ (∀ e < 32, t.elem (elemKey key e) = ((z.output[e]?).map (·.1)).getD 0) ∧
        (∀ k, (∀ e < 32, k ≠ elemKey key e) → t.elem k = u.elem k) ∧
        ((u.info key).owner = z.id → (t.info key).pnd = false) ∧ (∀ a, t.byte a = u.byte a) ∧
        (x.written + 1 ≠ rows → { z with written := z.written + 1, output := z.output.drop 32 } ∈ (t.bay c b).queue))

/-- A cold bay that a queued MMA or MHINT wakes is warm when its ramp ends; a warm bay with nothing to stream and its hint over ramps down after
64 cycles, for 32, and is then cold. With the last listed wave a rendezvous ends: the checks pass and the MMA joins the bay's queue, its
waves waiting for their rows. A rendezvous of 2^20 resident cycles halts the context with 0x001D (R34, R198, R203). -/
def Obligations.RampsAndRendezvous : Prop :=
  ∀ (s : State) (c b : Nat),
    let y := s.bay c b
    (y.ramp = .up → y.rampEnd.toNat ≤ s.clock.toNat → ∃ t, exec (.rampUpEnd c b) s = .next t ∧ s.sameStorage t ∧
      t.bay c b = { y with ramp := .warm, lastStream := s.clock }) ∧
    (y.ramp = .warm → y.lastStream.toNat + 64 ≤ s.clock.toNat → y.hintEnd.toNat ≤ s.clock.toNat → y.streams = false → y.mmaWaits = false →
      ∃ t, exec (.rampDownStart c b) s = .next t ∧ s.sameStorage t ∧
        t.bay c b = { y with ramp := .down, rampStart := s.clock, rampEnd := s.clock + 32 }) ∧
    (y.ramp = .down → y.rampEnd.toNat ≤ s.clock.toNat → ∃ t, exec (.rampDownEnd c b) s = .next t ∧ s.sameStorage t ∧
      t.bay c b = { y with ramp := .cold }) ∧
    ∀ blk r i first rest, (s.block blk).rends.find? (fun x => x.n == r.n) = some r → r.members = (i, first) :: rest →
      (s.launch (s.block blk).lid).prog = .resident →
      (2 ^ 20 ≤ r.spent + (s.clock - r.since).toNat → s.runOf first.party = .original →
        ∃ t, exec (.gangTimeout blk r.n) s = .next t ∧ (t.wave first.party).status = .halted ∧
          (t.wave first.party).stop = some (0x1D, 0, 0, 0)) ∧
      let listed := gangMembers first.gng
      let ms := listed.filterMap (fun i => (r.members.find? (fun x => x.1 == i)).map (·.2))
      let core := (s.block blk).core
      let bay := bitsOf first.gng.toNat 17 16
      let z := s.bay core bay
      let fmt := z.fmtFor first.lat
      let row0 := bitsOf first.gng.toNat 23 18
      let total := (ms.map (fun m => 3 * m.count)).sum / fmtRows fmt
      ms.length = listed.length → z.latchEmpty first.lat = false → row0 + total ≤ 64 →
      (∀ m ∈ ms, m.gng = first.gng ∧ m.lat = first.lat ∧ fmtAccepts fmt m.typ = true ∧ (fmtRows fmt = 2 → m.count % 2 = 0)) →
      ∃ t x, exec (.gangRendezvousComplete blk r.n) s = .next t ∧ s.sameStorage t ∧ (t.bay core bay).queue = z.queue ++ [x] ∧
        x.work = .mma ms first.lat row0 total ∧ (∀ m ∈ ms, (t.wave m.party).wait = .stream ∧ (t.wave m.party).pc = (s.wave m.party).pc) ∧
        (t.block blk).rends = (s.block blk).rends.filter (fun x => x.n != r.n)

/-! ### Geodes -/

/-- PBIND binds an unbound geode of the block to v(r) with D from its register; PINIT, PMUL, PDIV, PRSC and POUT on a bound geode of the wave
join the unit's queue of 16 with the factors, scalar and mask captured and their target's rows pending, PINIT held only by a fence of
engine writes, the others of engine reads or writes too (R211); PDESC gives the
descriptor's words and PUNB unbinds once no command of the geode is left. Each of these forms on a geode that is not the block's, not
bound or not the wave's, and a PBIND of a bound geode or with D over 95, halts the context with 0x0020 (R251 to R261). -/
def Obligations.GeodeFormsComplete : Prop :=
  ∀ (s : State) (g : Nat), s.ready [] [] → s.runOf s.cur = .original →
    let c := coreOf s.cur
    let blk := s.block s.me.blk
    let n := s.geodeOf s.cur g
    let x := s.geode c n
    let queue := (s.core c).geodeQ
    let target (v : Nat) : List Nat := (List.range 3).map (fun b => vrow s.cur v b)
    let room : BitVec 8 → Nat → Prop := fun cls v => s.fenced s.cur cls = false ∧ queue.length < 16 ∧ ∀ r ∈ target v, s.rowHeld r = false ∧ s.readTouch s.cur r = false
    let joined : State → GeodeWork → Nat → Prop := fun t work v =>
      (∃ z, (t.core c).geodeQ = queue ++ [z] ∧ z.work = work ∧ z.g = n ∧ z.party = s.cur ∧ z.id = s.nextId ∧ z.rows = target v ∧ z.raced = false) ∧
      (∀ r ∈ target v, (t.info r).pnd = true ∧ (t.info r).owner = s.nextId) ∧ t.wave s.cur = s.me.advance 1 ∧
      (∀ k, t.elem k = s.elem k) ∧ ∀ a, t.byte a = s.byte a
    (g < blk.geodes.length → x.bnd = false → ∀ r a, s.ready [] [a] → (s.me.sget a).toNat % 128 ≤ 95 →
      ∃ t, exec (.pbind g r a) s = .next t ∧ t.wave s.cur = s.me.advance 1 ∧ s.sameStorage t ∧
        t.geode c n = { wave := s.me.num, vreg := r, bnd := true, dcap := (s.me.sget a).toNat % 128, party := s.cur }) ∧
    (g < blk.geodes.length → x.bnd = true → x.party = s.cur →
      (room 0x80 x.vreg → ∃ t, exec (.pinit g) s = .next t ∧ joined t .init x.vreg) ∧
      (room 0xC0 x.vreg → ∃ t, exec (.prsc g) s = .next t ∧ joined t .rsc x.vreg) ∧
      (∀ a b, room 0xC0 x.vreg → (∀ r ∈ accesses s.cur (s.inActive [a, b]) [], s.rowHeld r.1 = false) →
        s.racing s.cur (accesses s.cur (s.inActive [a, b]) []) = [] →
        let fs : List (Word × Word × Bool) := (lanesOf s.me.activeMask).map (fun l =>
          (s.vget s.cur a l, s.vget s.cur b l, s.poisoned (velem s.cur a l) || s.poisoned (velem s.cur b l)))
        (∃ t, exec (.pmul g a b) s = .next t ∧ joined t (.mul fs) x.vreg) ∧ ∃ t, exec (.pdiv g a b) s = .next t ∧ joined t (.div fs) x.vreg) ∧
      (∀ d a, room 0xC0 d → s.ready [] [a] → typeOf s.me.md = .f32 →
        ∃ t, exec (.pout d g a) s = .next t ∧ joined t (.out d (s.me.sget a) s.me.md s.me.activeMask) d) ∧
      ((∀ q ∈ queue, q.g ≠ n) →
        (∀ d, s.ready [] [d, d + 1, d + 2, d + 3] → exec (.pdesc d g) s = .next (s.gives
          (((((s.me.sput d (BitVec.ofNat 32 (x.dcap + 2 ^ 7 + (if x.ill then 2 ^ 8 else 0) + (if x.dz then 2 ^ 9 else 0) +
            (if x.nf then 2 ^ 10 else 0) + (if x.eov then 2 ^ 11 else 0) + (if x.emp then 2 ^ 12 else 0) + 2 ^ 16 * x.vreg + 2 ^ 24 * x.wave))).sput
            (d + 1) x.n).sput (d + 2) x.exp).sput (d + 3) 0).advance 1))) ∧
        ∃ t, exec (.punb g) s = .next t ∧ t.wave s.cur = s.me.advance 1 ∧ s.sameStorage t ∧ t.geode c n = {})) ∧
    (∀ i names, s.ready [] names →
      ((¬(g < blk.geodes.length ∧ x.bnd = true ∧ x.party = s.cur) ∧
        ((names = [] ∧ (i = .pinit g ∨ i = .prsc g ∨ i = .punb g ∨ ∃ a b, i = .pmul g a b ∨ i = .pdiv g a b)) ∨
         (∃ d a, i = .pout d g a ∧ names = [a]) ∨ ∃ d, i = .pdesc d g ∧ names = [d, d + 1, d + 2, d + 3])) ∨
       ∃ r a, i = .pbind g r a ∧ names = [a] ∧ ¬(g < blk.geodes.length ∧ x.bnd = false ∧ (s.me.sget a).toNat % 128 ≤ 95)) →
      ∃ t, exec i s = .next t ∧ s.halted t 0x20 g 0 0)

/-- The geode unit performs the command at the head of its queue: PINIT writes 1 and zeros to all lanes and clears the descriptor's words,
PMUL and PDIV take their factors in order into c_0 to c_D, PRSC normalises, POUT writes the scaled coefficients; the command's rows clear
(R252, R255 to R259). -/
def Obligations.GeodeCommandsComplete : Prop :=
  ∀ (s : State) (c : Nat) (z : GeodeCmd) (rest : List GeodeCmd), (s.core c).geodeQ = z :: rest → z.raced = false → s.lineAt z.lid c = false →
    let x := s.geode c z.g
    let w (l : Nat) : Word := s.vget x.party x.vreg l
    let q : Poly := { g := x, cs := (List.range (x.dcap + 1)).map (fun l => (w l).toNat) }
    s.racing z.party (s.geodeRows z x) = [] → (∀ a ∈ s.geodeRows z x, s.geodeWaits c a.1 = false) → (s.wave z.party).status = .running → x.dcap < 96 →
    ∃ t, exec (.geodeCommandComplete c) s = .next t ∧ (t.core c).geodeQ = rest ∧ (∀ a, t.byte a = s.byte a) ∧
      (∀ r ∈ z.rows, (s.info r).owner = z.id → (t.info r).pnd = false) ∧
      let reworked : Poly → Prop := fun y => t.geode c z.g = y.g ∧ (∀ l ≤ x.dcap, t.vget x.party x.vreg l = BitVec.ofNat 32 (y.cs.getD l 0)) ∧
        ∀ k, (∀ l ≤ x.dcap, k ≠ velem x.party x.vreg l) → t.elem k = s.elem k
      (z.work = .init → t.geode c z.g = { x with n := 0, exp := 0, emp := false, eov := false, nf := false, dz := false, ill := false } ∧
        (∀ l < 96, t.vget x.party x.vreg l = if l = 0 then 0x3F800000 else 0) ∧
        ∀ k, (∀ l < 96, k ≠ velem x.party x.vreg l) → t.elem k = s.elem k) ∧
      (∀ fs, fs ≠ [] → z.work = .mul fs → reworked (fs.foldl (fun y f => y.times f.1 f.2.1) q)) ∧
      (∀ fs, fs ≠ [] → z.work = .div fs → reworked (fs.foldl (fun y f => y.over f.1 f.2.1) q)) ∧
      (z.work = .rsc → reworked q.normalise) ∧
      ∀ d k md m, z.work = .out d k md m → t.geode c z.g = x ∧
        (∀ l < 96, m.getLsbD l = true → t.vget x.party d l =
          if l ≤ x.dcap then BitVec.ofNat 32 (outElem md (w l).toNat (x.exp.toInt + k.toInt)) else 0) ∧
        ∀ k, (∀ l < 96, m.getLsbD l = true → k ≠ velem x.party d l) → t.elem k = s.elem k

/-- One chain step, eight groups of 16 or for T4 sixteen (R193, R199), sums each group's exact products, rounds the sum, and adds it to the accumulator, both to nearest even in f32, with
NaN, infinities and zeros by their rules; of INT8 it adds exact sums modulo 2^32 and counts each that wraps (R94, R332). A drained
element is the accumulator times 2^(r + c - 254), r and c its row's and column's scale codes, rounded once into the output format, or
NaN (R96). A product takes every factor into the coefficients, a quotient takes one out, each sum and quotient rounded to nearest even,
then rescaled, with n, the exponent and the notes EMP, EOV, NF, DZ and ILL (R256, R257). Normalising moves the largest coefficient into
[1, 2) (R258), its input finite; an element of POUT is its coefficient times 2^(E + k) in md's rounding (R259). -/
def Obligations.ChainAndGeodeArithmetic : Prop :=
  (∀ (ta tw : EType) (a w : List Word) (acc : Word) (G : Nat), G = 8 ∨ G = 16 → a.length * ta.count = 16 * G → w.length * tw.count = 16 * G →
      let el : EType → List Word → Nat → Nat := fun t ws k => (ws.getD (k / t.count) 0 >>> (t.width * (k % t.count))).toNat % 2 ^ t.width
      let r := chainStep ta tw a w acc
      (∀ fa fw, kindOf ta = .flt fa → kindOf tw = .flt fw → ∃ g accs : Nat → Nat, accs 0 = acc.toNat ∧ r.1.toNat = accs G ∧ r.2 = 0 ∧
        ∀ j < G, sumsTo f32 {} ((List.range 16).map (fun i =>
            (addendOf fa (el ta a (16 * j + i))).mul (addendOf fw (el tw w (16 * j + i))))) (g j) ∧
          sumsTo f32 {} [addendOf f32 (accs j), addendOf f32 (g j)] (accs (j + 1))) ∧
      ∀ sa sw, kindOf ta = .int sa → kindOf tw = .int sw →
        let val : Bool → EType → Nat → Int := fun sg t c => if sg = true ∧ 2 ^ (t.width - 1) ≤ c then (c : Int) - 2 ^ t.width else c
        ∃ accs : Nat → Int, accs 0 = acc.toInt ∧ r.1.toInt = accs G ∧
          let sum : Nat → Int := fun j => accs j + ((List.range 16).map (fun i =>
            val sa ta (el ta a (16 * j + i)) * val sw tw (el tw w (16 * j + i)))).sum
          (∀ j < G, accs (j + 1) % 2 ^ 32 = sum j % 2 ^ 32 ∧ -2 ^ 31 ≤ accs (j + 1) ∧ accs (j + 1) < 2 ^ 31) ∧
          r.2 = (List.range G).countP (fun j => accs (j + 1) ≠ sum j)) ∧
  (∀ (s : State) (c b i n : Nat) (out : EType) (i32acc : Bool) (md : BitVec 16) (scales : List Word) (bad : List Bool),
      let acc := s.elem (elemKey (bayRow c b (4 * i + n / 32)) (n % 32))
      let code : Nat → Nat → Nat := fun first k => (scales.getD (first + k / 4) 0 >>> (8 * (k % 4))).toNat % 256
      let p : ℤ := (code 32 i : ℤ) + code 0 n - 254
      let lost : Prop := code 32 i = 255 ∨ code 0 n = 255 ∨ (i32acc = false ∧ codeNan f32 acc.toNat = true)
      let inf : Prop := i32acc = false ∧ codeInf f32 acc.toNat = true
      let a : ℚ := if i32acc then (acc.toInt : ℚ) else codeValue f32 acc.toNat
      let neg : Bool := if i32acc then decide (acc.toInt < 0) else codeNeg f32 acc.toNat
      let r := s.drained c b i n out i32acc md scales bad
      (∀ f, kindOf out = .flt f → (lost → r.1 = nanCode f) ∧
        (¬lost → (inf → r.1 = if f.ieee then infCode f neg else if (modeOf md).sat then largestCode f neg else nanCode f) ∧
          (¬inf → ∃ fl, sumRounds f (modeOf md) [(neg, a * 2 ^ p)] (r.1, fl) ∧ r.2.1 = (fl &&& (fOF ||| fSAT) != 0)))) ∧
      ∀ sg, kindOf out = .int sg →
        let lo : Int := if sg then -2 ^ (out.width - 1) else 0
        let hi : Int := if sg then 2 ^ (out.width - 1) - 1 else 2 ^ out.width - 1
        let fits : Int → Prop := fun z => r.1 = (z % 2 ^ out.width).toNat
        let beyond : Int → Prop := fun z =>
          if i32acc = true ∨ (modeOf md).sat = true then fits (if (modeOf md).sat then (if z < lo then lo else hi) else z)
          else r.1 = 2 ^ (out.width - 1)
        (lost → r.1 = 2 ^ (out.width - 1)) ∧
        (¬lost → (inf → beyond (if neg then lo - 1 else hi + 1)) ∧
          (¬inf → ∃ z : Int, roundsTo (fun y => ∃ k : Int, y = k) (fun y => ∃ k : Int, y = 2 * k) (modeOf md).rnd (a * 2 ^ p : ℚ) z ∧
            (lo ≤ z ∧ z ≤ hi → fits z ∧ r.2.1 = false) ∧ (z < lo ∨ hi < z → beyond z ∧ r.2.1 = true)))) ∧
  (∀ (q : Poly) (x y : Word),
      let co : Poly → Nat → Nat := fun q i => q.cs.getD i 0
      let A := addendOf f32 x.toNat
      let B := addendOf f32 y.toNat
      let big : ℤ → Nat → Prop := fun e c => (2 : ℚ) ^ e ≤ |codeValue f32 c|
      let moved : Poly → Poly → ℤ → Prop := fun q t k =>
        let e := q.g.exp.toInt - k
        let sat := if e < -2 ^ 31 then -2 ^ 31 else if 2 ^ 31 - 1 < e then 2 ^ 31 - 1 else e
        t.g = { q.g with exp := BitVec.ofInt 32 sat, eov := q.g.eov || e != sat } ∧ t.cs.length = q.cs.length ∧
          ∀ i < q.cs.length, scaledBy k (co q i) (co t i)
      let finite : Poly → Prop := fun q => ∀ c ∈ q.cs, codeFin f32 c = true
      let rescaled : Poly → Poly → Prop := fun q t =>
        (¬finite q → t = { q with g := { q.g with nf := true } }) ∧
        (finite q → ((∃ c ∈ q.cs, big 64 c) → moved q t (-64)) ∧
          ((∀ c ∈ q.cs, ¬big 64 c) → (((∃ c ∈ q.cs, codeValue f32 c ≠ 0) ∧ ∀ c ∈ q.cs, ¬big (-64) c) → moved q t 64) ∧
            ((∀ c ∈ q.cs, codeValue f32 c = 0) ∨ (∃ c ∈ q.cs, big (-64) c) → t = q)))
      (∀ c ∈ q.cs, c < 2 ^ 32) →
      (∃ cs : List Nat, cs.length = q.cs.length ∧ (∀ i < cs.length, sumsTo f32 {} (A.mul (addendOf f32 (co q i)) ::
            if i = 0 then [] else [B.mul (addendOf f32 (co q (i - 1)))]) (cs.getD i 0)) ∧
        let full : Bool := q.g.n.toNat = 2 ^ 32 - 1
        rescaled { g := { q.g with n := if full then q.g.n else q.g.n + 1, eov := q.g.eov || full }, cs := cs } (q.times x y)) ∧
      (q.g.n = 0 → q.over x y = { q with g := { q.g with emp := true } }) ∧
      (q.g.n ≠ 0 → ∃ t c : Nat → Nat,
        let zero : Bool := codeFin f32 x.toNat && decide (codeValue f32 x.toNat = 0)
        let ill : Bool := !codeNan f32 x.toNat && !codeNan f32 y.toNat && readBelow f32 {} (x.toNat % 2 ^ 31) (y.toNat % 2 ^ 31)
        (zero = true → ∀ i, c i = nanCode f32) ∧
        (zero = false → ∀ i < q.cs.length, t 0 = co q 0 ∧
          (0 < i → sumsTo f32 {} [addendOf f32 (co q i), (B.mul (addendOf f32 (c (i - 1)))).neg] (t i)) ∧
          sumsTo f32 {} [(addendOf f32 (t i)).div A] (c i)) ∧
        rescaled { g := { q.g with n := q.g.n - 1, ill := q.g.ill || ill, dz := q.g.dz || zero, nf := q.g.nf || zero },
                   cs := (List.range q.cs.length).map (fun i => if (q.g.n - 1).toNat < i then 0 else c i) } (q.over x y)) ∧
      (q.g.nf = true ∨ (∀ c ∈ q.cs, codeFin f32 c = true ∧ codeValue f32 c = 0) → q.normalise = q) ∧
      (q.g.nf = false → finite q → (∃ c ∈ q.cs, codeValue f32 c ≠ 0) →
        ∃ k : ℤ, (∃ c ∈ q.cs, big k c) ∧ (∀ c ∈ q.cs, ¬big (k + 1) c) ∧ moved q q.normalise (-k))) ∧
  ∀ (md : BitVec 16) (c : Nat) (e : Int), c < 2 ^ 32 →
    (codeNan f32 c = true → outElem md c e = nanCode f32) ∧ (codeInf f32 c = true → outElem md c e = c) ∧
    (codeFin f32 c = true → ∃ fl, sumRounds f32 { (modeOf md) with ftz := false } [(codeNeg f32 c, codeValue f32 c * 2 ^ e)] (outElem md c e, fl))

/-! ### Streams -/

/-- WEMIT, WMADV and WMIDL on a device source of the launch send their records, advance or idle declaration to the watermark unit and wait;
WPUB and WAMD by a serving block send their group; a WEMIT with no active lane gives 0; poison in a record kills the wave (R50, R249, R285). WMRD gives W, the source's mark, the discards or
the refusals. WREL releases a taken or published window and gives 0, else 1. Each form on a control scalar with reserved bits, on a source
or stream that it may not name, or on a binding that the block does not serve halts the context with 0x0021 (R241 to R249). That WMRD asks for an
existing source only with sel 1 and for a binding only with sel 2 is the model's reading (log entry 39). -/
def Obligations.StreamFormsComplete : Prop :=
  ∀ (s : State) (a d : Nat), s.unlogged →
    let h := (s.launch s.me.lid).hdr
    let v := (s.me.sget a).toNat
    let st := v % 64
    let src := v / 256 % 16
    let x : Source := (s.stream st).srcs.get {} src
    let legal : Prop := v / 64 % 4 = 0 ∧ v / 2 ^ 14 = 0
    let own : Prop := legal ∧ x.kind = .device s.me.lid ∧ ¬(h.out = true ∧ h.ostr = st ∧ h.osrc = src)
    let readable : Nat → Prop := fun sel =>
      ((∃ z ∈ (s.stream st).srcs, z.2.kind = .device s.me.lid) ∨ (∃ b ∈ h.binds, b.strm = st) ∨ (h.out = true ∧ h.ostr = st)) ∧
      (sel = 1 → x.kind ≠ .none) ∧ (sel = 2 → v / 2 ^ 12 % 4 < h.binds.length)
    let serves : Nat → Prop := fun b => h.std = true ∧ b < h.binds.length ∧ (s.block s.me.blk).index.toNat = (h.binds.getD b {}).sblk
    let regs (r : Nat) : List Nat := (List.range 16).map (r + ·)
    let recs (r : Nat) : List (List Word) := (lanesOf s.me.activeMask).map (fun l => (regs r).map (fun j => s.vget s.cur j l))
    let ready (r : Nat) : Prop := s.ready [] [a, d] ∧ s.clear (s.inActive (regs r)) [] ∧ s.clean (s.inActive (regs r))
    let poisoned (r : Nat) : Prop := s.ready [] [a, d] ∧ s.clear (s.inActive (regs r)) [] ∧ ¬s.clean (s.inActive (regs r))
    let asked : State → UWork → Prop := fun t work =>
      (∃ u, t.unitQ = s.unitQ ++ [u] ∧ u.id = s.nextId ∧ u.work = work ∧ u.source = .wave s.cur) ∧
      (t.wave s.cur).wait = .unit s.nextId d ∧ (t.wave s.cur).pc = s.me.pc ∧ (∀ k, t.elem k = s.elem k) ∧ ∀ a, t.byte a = s.byte a
    (own → ∀ q, s.ready [] [d, a, q, q + 1] → ∃ t, exec (.wmadv d a q) s = .next t ∧ asked t (.advance st src (s.me.pair q))) ∧
    (own → s.ready [] [d, a] → ∃ t, exec (.wmidl d a) s = .next t ∧ asked t (.idle st src)) ∧
    (s.fenced s.cur 0x30 = false →
      (∀ r, own → ready r → s.me.activeMask ≠ 0 → ∃ t, exec (.wemit r a d) s = .next t ∧ asked t (.records st src (recs r) 0)) ∧
      (∀ r, own → ready r → s.me.activeMask = 0 →
        exec (.wemit r a d) s = .next (s.gives { (s.me.sput d 0).advance 1 with wait := .none, readySince := s.clock })) ∧
      (∀ r, own → poisoned r → ∃ t, exec (.wemit r a d) s = .next t ∧ s.kills t) ∧
      (∀ r b amend, serves b → poisoned r → ∃ t, exec (if amend = true then .wamd r a d b else .wpub r a d b) s = .next t ∧ s.kills t) ∧
      ∀ r b, serves b → ready r → (∃ t, exec (.wpub r a d b) s = .next t ∧ asked t (.publish s.me.lid b v false (recs r))) ∧
        ∃ t, exec (.wamd r a d b) s = .next t ∧ asked t (.publish s.me.lid b v true (recs r))) ∧
    (∀ sel, legal → readable sel → s.ready [] [d, d + 1, a] →
      let m : DWord := match sel with
        | 0 => (s.stream st).w
        | 1 => (x.ws &&& 0x7FFFFFFFFFFFFFFF) ||| (if x.idle && !x.ws.getLsbD 63 then 0x8000000000000000 else 0)
        | 2 => BitVec.ofNat 64 (s.binding s.me.lid (v / 2 ^ 12 % 4)).disc
        | _ => BitVec.ofNat 64 (s.stream st).refusals
      exec (.wmrd d a sel) s = .next (s.gives (((s.me.sput d (m.setWidth 32)).sput (d + 1) ((m >>> 32).setWidth 32)).advance 1))) ∧
    (∀ b, serves b → s.ready [] [d, a] →
      let held : Prop := (s.binding s.me.lid b).windows.get .none v = .taken ∨ ∃ r, (s.binding s.me.lid b).windows.get .none v = .published r
      (held → (s.me.sput d 0).present ≠ 0 → ∃ t, exec (.wrel d a b) s = .next t ∧ t.wave s.cur = (s.me.sput d 0).advance 1 ∧
        ((t.binding s.me.lid b).windows.get .none v = .released ∨ (t.binding s.me.lid b).windows.get .none v = .none)) ∧
      (¬held → exec (.wrel d a b) s = .next (s.gives ((s.me.sput d 1).advance 1)))) ∧
    ∀ i vecs scals, s.ready vecs scals →
      (((¬own ∧ ((∃ r, i = .wemit r a d ∧ vecs = [] ∧ scals = [a, d]) ∨ (∃ q, i = .wmadv d a q ∧ vecs = [] ∧ scals = [d, a, q, q + 1]) ∨
          (i = .wmidl d a ∧ vecs = [] ∧ scals = [d, a]))) ∨
        ∃ sel, i = .wmrd d a sel ∧ vecs = [] ∧ scals = [d, d + 1, a] ∧ ¬(legal ∧ readable sel)) →
        ∃ t, exec i s = .next t ∧ s.halted t 0x21 (v / 2 ^ 12 % 4) 0 0) ∧
      ∀ b, ¬serves b →
        ((∃ r, (i = .wpub r a d b ∨ i = .wamd r a d b) ∧ vecs = [] ∧ scals = [a, d]) ∨ (i = .wrel d a b ∧ vecs = [] ∧ scals = [d, a]) ∨
         (∃ r w wait, (i = .wrecv r w d b wait ∨ i = .wlate r w d b wait) ∧ vecs = regs r ++ [w, w + 1] ∧ scals = [d]) ∨
         ∃ wait, i = .wnext d b wait ∧ vecs = [] ∧ scals = [d, d + 1]) →
        ∃ t, exec i s = .next t ∧ s.halted t 0x21 b 0 0

/-- WRECV and WLATE take from their queue as many available records as lanes are active, in lane order, and give their number to s(d); all rows
of v(r) to v(r + 15), v(w) and v(w + 1) are pending until they are written: the record to v(r) to v(r + 15), its first window to v(w), its
window mask to v(w + 1) (0 in the lanes left). That the number is in s(d) at issue is the model's choice (log entry 38). With WAIT they
hold while there is neither a record nor a notice and the binding lasts; without an active lane they take nothing, and where a row races
they give 0, write no row and leave the records queued. WNEXT takes the first notice that may be returned, its window Taken, status 0;
status 2 where the binding is over, 1 where nothing is there (R237, R240, R245, R246, R263). -/
def Obligations.IntakeFormsComplete : Prop :=
  ∀ (s : State) (bnd d : Nat) (wait : Bool), s.unlogged →
    let h := (s.launch s.me.lid).hdr
    let b := s.binding s.me.lid bnd
    h.std = true → bnd < h.binds.length → (s.block s.me.blk).index.toNat = (h.binds.getD bnd {}).sblk →
    (∀ r w late, let regs := (List.range 16).map (r + ·) ++ [w, w + 1]
      let lanes := lanesOf s.me.activeMask
      let es := (s.takeable b late).take lanes.length
      let v := s.me.sput d (BitVec.ofNat 32 es.length)
      let i : Instr := if late then .wlate r w d bnd wait else .wrecv r w d bnd wait
      s.ready [] [d] → s.fenced s.cur 0x20 = false → (w + 1 < r ∨ r + 15 < w) →
      (∀ z ∈ regs, ∀ i < 3, s.rowHeld (vrow s.cur z i) = false) →
      (wait = true → lanes ≠ [] → es = [] → b.notice ≠ none ∨ s.bindingOver b = true) →
      (lanes = [] ∨ s.racing s.cur (accesses s.cur [] (s.inActive regs)) ≠ [] → exec i s = .next (s.gives ((s.me.sput d 0).advance 2))) ∧
      (lanes ≠ [] → s.racing s.cur (accesses s.cur [] (s.inActive regs)) = [] → v.present ≠ 0 →
        ∃ t c, exec i s = .next t ∧ t.wave s.cur = v.advance 2 ∧ (∀ k, t.elem k = s.elem k) ∧ (∀ a, t.byte a = s.byte a) ∧
          t.copies = s.copies ++ [c] ∧ c.id = s.nextId ∧ c.kind = .intake ∧ c.party = s.cur ∧
          (∀ z ∈ regs, ∀ i < 3, vrow s.cur z i ∈ c.rows) ∧ (∀ r ∈ c.rows, (t.info r).pnd = true ∧ (t.info r).owner = c.id) ∧
          (let puts := c.items.flatMap (fun x => match x.dst with | .puts _ es => es | _ => [])
           (puts.map (·.1)).Nodup ∧
           (∀ (i : Nat) (e : QEntry) (l : Nat), es[i]? = some e → lanes[i]? = some l →
             (∀ j < 16, (velem s.cur (r + j) l, e.words.getD j 0) ∈ puts) ∧ (velem s.cur w l, BitVec.ofNat 32 e.j0) ∈ puts ∧
             (velem s.cur (w + 1) l, e.mask.setWidth 32) ∈ puts) ∧
           (∀ (i l : Nat), es.length ≤ i → lanes[i]? = some l → (velem s.cur (w + 1) l, 0) ∈ puts) ∧
           ∀ x ∈ puts, ∃ (i l : Nat), lanes[i]? = some l ∧
             (x.1 = velem s.cur (w + 1) l ∨ (i < es.length ∧ (x.1 = velem s.cur w l ∨ ∃ j < 16, x.1 = velem s.cur (r + j) l)))) ∧
          (t.binding s.me.lid bnd).onTime = (if late then b.onTime else b.onTime.drop es.length) ∧
          (t.binding s.me.lid bnd).late = if late then b.late.drop es.length else b.late)) ∧
    (s.ready [] [d, d + 1] →
      (∀ n, b.notice = some n → let v := (s.me.sput d (BitVec.ofNat 32 n.j)).sput (d + 1) 0
        v.present ≠ 0 → ∃ t, exec (.wnext d bnd wait) s = .next t ∧ t.wave s.cur = v.advance 1 ∧ s.sameStorage t ∧
          (t.binding s.me.lid bnd).windows.get .none n.j = .taken ∧ (t.binding s.me.lid bnd).notices = b.notices.tail) ∧
      (b.notice = none → s.bindingOver b = true → exec (.wnext d bnd wait) s = .next (s.gives (((s.me.sput d 0).sput (d + 1) 2).advance 1))) ∧
      (b.notice = none → s.bindingOver b = false → wait = false →
        exec (.wnext d bnd wait) s = .next (s.gives (((s.me.sput d 0).sput (d + 1) 1).advance 1))))

/-- The watermark unit takes an advance, a record or an idle declaration, answers its wave, and gives W the larger of its old value and the
least mark of the sources that are not idle; a stream whose sources are all closed has W = 2^64 - 1. A publication finds its window None or
Released (3), else in no state for it (1), else revised 255 times (2), or it makes it Published, revision 0 or one higher; without an output
that is all, and with one the records, stamped with the window's end and the revision, join the queues of the output stream or refuse the whole
(4), and the output source then advances to the least W and pending window end. The windows of a record are those whose span holds its time; for each, the record is dropped and counted, on time or late, and joins the two queues with the lowest window
and the mask of its path, or is refused whole. Open windows that W reaches fire in ascending order with a notice each; published and
released ones past their lateness free their slots. An idle timeout makes its source idle. A port's record and advance reach the unit in
order when the source is the port's, and have no effect else (R229 to R232, R234 to R236, R239, R242, R243, R247). That the timeouts of the bindings
act beside the table's is the model's choice (log entry 97). -/
def Obligations.UnitEntriesComplete : Prop :=
  (∀ (words : List Word) (e rev : Nat), words.length = 16 → let r := State.stamped words e rev
    r.length = 16 ∧ r.getD 1 0 ++ r.getD 0 0 = BitVec.ofNat 64 e ∧
    (r.getD 3 0).toNat = (words.getD 3 0).toNat % 2 ^ 24 + 2 ^ 24 * (rev % 256) ∧
    ∀ n, n ≠ 0 → n ≠ 1 → n ≠ 3 → r.getD n 0 = words.getD n 0) ∧
  (∀ (s : State) (i : Nat) (u : UReq) (p d lid bnd j : Nat) (amend : Bool) (recs : List (List Word)), (s.launches.map (·.lid)).Nodup →
    s.unitQ[i]? = some u → (∀ x ∈ s.unitQ.take i, State.sameSource x.source u.source = false) → u.source = .wave p →
    (s.wave p).wait = .unit u.id d → (s.wave p).status = .running → (s.block (s.wave p).blk).logging = false → s.runOf p = .original →
    (s.wave p).lasts d → u.work = .publish lid bnd j amend recs →
    let l := s.launch lid
    let b := s.binding lid bnd
    let was := b.windows.get .none j
    let ends : BindDesc → Nat → Nat := fun d j => d.org + j * d.slide + (d.q + 1) * d.slide
    let answered : State → Nat → Prop := fun t v => t.unitQ = s.unitQ.filter (fun x => x.id != u.id) ∧ s.resumed t p d 2 (BitVec.ofNat 32 v)
    let refused : Nat → Prop := fun v => ∃ t, exec (.watermarkUnitEntry i) s = .next t ∧ answered t v ∧ t.launches = s.launches ∧ t.streams = s.streams
    (was = .none ∨ was = .released → refused 3) ∧
    (was ≠ .none → was ≠ .released → (if amend then ∀ r, was ≠ .published r else was ≠ .taken) → refused 1) ∧
    (amend = true → was = .published 255 → refused 2) ∧
    ∀ rev, (if amend then ∃ r, was = .published r ∧ r ≠ 255 ∧ rev = r + 1 else was = .taken ∧ rev = 0) →
      (lid, bnd) ∈ s.bindingsOf b.desc.strm → l.binds.wf {} = true → (∀ x ∈ l.binds, x.2.windows.wf .none = true) →
      let published : State → Prop := fun t => (t.binding lid bnd).windows.get .none j =
        if ends b.desc j + b.desc.late ≤ (s.stream b.desc.strm).w.toNat then .none else .published rev
      let sent := recs.map (fun r => State.stamped r (ends b.desc j) rev)
      ((∀ x ∈ s.launches, x.hdr.out = false) → ∃ t, exec (.watermarkUnitEntry i) s = .next t ∧ answered t 0 ∧ published t ∧ t.streams = s.streams ∧
        (t.binding lid bnd).onTime = b.onTime ∧ (t.binding lid bnd).late = b.late) ∧
      (l.hdr.out = true → (∀ e, s.offerAll l.hdr.ostr sent = .error e → refused 4) ∧
        ∀ v, s.offerAll l.hdr.ostr sent = .ok v → (∀ x ∈ s.launches, x.hdr.out = true → x.lid = lid) → (∀ x ∈ l.binds, x.2.desc.strm ≠ l.hdr.ostr) →
          ∃ t, exec (.watermarkUnitEntry i) s = .next t ∧ answered t 0 ∧ published t ∧
            (∀ x ∈ s.bindingsOf l.hdr.ostr, (t.binding x.1 x.2).onTime = (v.binding x.1 x.2).onTime ∧
              (t.binding x.1 x.2).late = (v.binding x.1 x.2).late ∧ (t.binding x.1 x.2).disc = (v.binding x.1 x.2).disc) ∧
            let o : Source := (t.stream l.hdr.ostr).srcs.get {} l.hdr.osrc
            (recs ≠ [] → o.idle = false) ∧
            (amend = false → (∀ x ∈ l.binds, x.2.desc.slide ≠ 0) → o.idle = false ∧ (t.launch lid).wo.toNat ≤ o.ws.toNat ∧
              let bounds : Nat → Prop := fun m => ∀ x ∈ l.binds, m ≤ (s.stream x.2.desc.strm).w.toNat ∧ ∀ n,
                (t.binding lid x.1).windows.get .none n = .fired ∨ (t.binding lid x.1).windows.get .none n = .taken → m ≤ ends x.2.desc n
              ∃ m, bounds m ∧ (∀ m', bounds m' → m' ≤ m) ∧ (t.launch lid).wo.toNat = max l.wo.toNat m))) ∧
  ∀ (s : State) (st src : Nat), (∀ l ∈ s.launches, l.hdr.out = false) → (s.launches.map (·.lid)).Nodup →
    let o : Source := (s.stream st).srcs.get {} src
    let W := (s.stream st).w.toNat
    let marked : State → Prop := fun t => let T := t.stream st
      let closed : Prop := T.srcs ≠ [] ∧ ∀ x ∈ T.srcs, x.2.ws = BitVec.allOnes 64
      (∀ i, i ≠ src → T.srcs.get {} i = (s.stream st).srcs.get {} i) ∧ (closed → T.w = BitVec.allOnes 64) ∧
      (¬closed → (∀ x ∈ T.srcs, x.2.idle = true) → T.w.toNat = W) ∧
      (¬closed → (∃ x ∈ T.srcs, x.2.idle = false) → W ≤ T.w.toNat ∧ (∃ x ∈ T.srcs, x.2.idle = false ∧ x.2.ws.toNat ≤ T.w.toNat) ∧
        (T.w.toNat = W ∨ ∀ x ∈ T.srcs, x.2.idle = false → T.w.toNat ≤ x.2.ws.toNat))
    let ends : BindDesc → Nat → Nat := fun d j => d.org + j * d.slide + (d.q + 1) * d.slide
    let settled : State → Nat → Nat → (Nat → Window) → Prop := fun t lid bnd was =>
      let b := s.binding lid bnd
      let fires : Nat → Prop := fun j => was j = .opened ∧ ends b.desc j ≤ (t.stream st).w.toNat
      let frees : Nat → Prop := fun j => ((∃ r, was j = .published r) ∨ was j = .released) ∧ ends b.desc j + b.desc.late ≤ (t.stream st).w.toNat
      ((s.launch lid).binds.wf {} = true → b.windows.wf .none = true →
        (∃ ns, (t.binding lid bnd).notices = b.notices ++ ns ∧ (ns.map (·.j)).Pairwise (· < ·) ∧ ∀ j, j ∈ ns.map (·.j) ↔ fires j) ∧
        ∀ j, let now := (t.binding lid bnd).windows.get .none j
          (fires j → now = .fired) ∧ (frees j → now = .none) ∧ (¬fires j → ¬frees j → now = was j))
    let advanced : State → DWord → Prop := fun t x =>
      let n : Source := (t.stream st).srcs.get {} src
      n.ws.toNat = max (max o.ws.toNat x.toNat) (if o.idle then W else 0) ∧ n.idle = false ∧ n.last = s.clock ∧ marked t ∧
      ∀ lid bnd, (lid, bnd) ∈ s.bindingsOf st → settled t lid bnd (fun j => (s.binding lid bnd).windows.get .none j)
    (o.kind ≠ .none → ∀ (i : Nat) (u : UReq) (p d : Nat), s.unitQ[i]? = some u → (∀ x ∈ s.unitQ.take i, State.sameSource x.source u.source = false) →
      u.source = .wave p → (s.wave p).wait = .unit u.id d → (s.wave p).status = .running → (s.block (s.wave p).blk).logging = false →
      s.runOf p = .original → (s.wave p).lasts d →
      let answered : State → Nat → Prop := fun t v => t.unitQ = s.unitQ.filter (fun x => x.id != u.id) ∧ s.resumed t p d 1 (BitVec.ofNat 32 v)
      (∀ x, u.work = .advance st src x → ∃ t, exec (.watermarkUnitEntry i) s = .next t ∧
        answered t (if o.idle = true ∨ (o.ws.toNat < x.toNat) then 0 else 1) ∧ advanced t x) ∧
      (u.work = .idle st src → ∃ t, exec (.watermarkUnitEntry i) s = .next t ∧ answered t (if o.idle then 1 else 0) ∧
        ((t.stream st).srcs.get {} src).idle = true ∧ marked t) ∧
      ∀ rec, u.work = .records st src [rec] 0 →
        (∀ e, s.offer st rec = .error e → ∃ t, exec (.watermarkUnitEntry i) s = .next t ∧ answered t (256 * e)) ∧
        ∀ lid bnd, s.bindingsOf st = [(lid, bnd)] → (s.launch lid).binds.wf {} = true →
          let b := s.binding lid bnd
          let time := (rec.getD 1 0 ++ rec.getD 0 0).toNat
          let js := b.desc.windowsAt time
          let cap := 2 ^ (b.desc.qcap + 8)
          let on (j : Nat) : Prop := j ∈ js ∧ b.path W j = .onTime
          let late (j : Nat) : Prop := j ∈ js ∧ b.path W j = .late
          let joins : List QEntry → List QEntry → (Nat → Prop) → Prop := fun old new c =>
            ((∀ j, ¬c j) → new = old) ∧
            ((∃ j, c j) → ∃ e, new = old ++ [e] ∧ e.words = rec ∧ c e.j0 ∧ (∀ j, c j → e.j0 ≤ j) ∧ ∀ n < 4, e.mask.getLsbD n = true ↔ c (e.j0 + n))
          ((∃ j, on j) → b.onTime.length < cap) → ((∃ j, late j) → b.late.length < cap) →
          s.slotsUsed + (js.filter (fun j => b.path W j == .onTime && b.windows.get .none j == .none)).length ≤ 4096 →
          ∃ t, exec (.watermarkUnitEntry i) s = .next t ∧ answered t 1 ∧ marked t ∧
            joins b.onTime (t.binding lid bnd).onTime on ∧ joins b.late (t.binding lid bnd).late late ∧
            (t.binding lid bnd).disc = b.disc + (js.filter (fun j => b.path W j == .dropped)).length + (if time < b.desc.org then 1 else 0) ∧
            settled t lid bnd (fun j => if j ∈ js ∧ b.path W j = .onTime then .opened else b.windows.get .none j)) ∧
    (∀ (d : BindDesc) (time j : Nat), d.slide ≠ 0 → (j ∈ d.windowsAt time ↔
      d.org ≤ time ∧ (time - d.org) / d.slide ≤ j + d.q ∧ j ≤ (time - d.org) / d.slide ∧ j < 2 ^ 32)) ∧
    (∀ (b : Binding) (w j : Nat), let was := b.windows.get .none j
      let gone : Prop := ends b.desc j + b.desc.late ≤ w ∨ was = .released
      (gone → b.path w j = .dropped) ∧ (¬gone → was = .none ∨ was = .opened → b.path w j = .onTime) ∧
      (¬gone → was ≠ .none → was ≠ .opened → b.path w j = .late)) ∧
    ((s.stream st).opened = true → o.kind ≠ .none → o.idle = false →
      (∃ n ∈ s.idleTimeouts st, n ≤ (s.clock - o.last).toNat) → ∃ t, exec (.idleTimeout st src) s = .next t ∧
        ((t.stream st).srcs.get {} src).idle = true ∧ marked t ∧ (∀ k, t.elem k = s.elem k) ∧ ∀ a, t.byte a = s.byte a) ∧
    ∀ port rec x, let fed : Prop := o.kind = .port port ∧ (s.ports.get {} port).up = true
      (fed → rec.length = 16 → ∃ t u, exec (.scaleOutRecord port st src rec) s = .next t ∧ t.unitQ = s.unitQ ++ [u] ∧
        u.work = .records st src [rec] 0 ∧ u.source = .port port) ∧
      (fed → (∀ u ∈ s.unitQ, u.source ≠ .port port) → ∃ t, exec (.portSourceAdvance port st src x) s = .next t ∧ advanced t x) ∧
      (¬fed → exec (.scaleOutRecord port st src rec) s = .next s ∧ exec (.portSourceAdvance port st src x) s = .next s)

/-! ### Steps of the scheduler and of a block -/

/-- A wave at a header issues the clause that memory holds at the translation of its address once the flags that the header names are zero,
and stays there while one is not; a clause that does not decode halts the context with cause 0x0010 and the error's detail at the word at
fault (R63, R75). A word at an address beyond 57 bits misses (R113; log entry 131: the model's reading). A flag wait of 16 cycles and a NAP end; a pending wave of more than 256 cycles displaces an active
one; a slot with nothing in flight is released, and with the last slot its ended block (R25, R63, R64, R69, R127, R271). That a due trap whose wait
another trap has met is taken at a later wait outside the handler is the model's choice (log entries 25, 86). -/
def Obligations.SchedulerSteps : Prop :=
  ∀ (s : State) (p : Nat), let w := s.wave p
    (w.mayIssue = true → w.k = 0 → w.trap = none → w.stopReq = false → ∀ hdr body u h, s.fetchClause p w.pc = (.ok hdr body, u) →
      decodeHeader hdr = .ok h →
      (∃ pa, (s.translate (coreOf p) (s.launch w.lid).ctx w.pc.toNat { ex := true }).1 = .pa pa ∧ hdr = BitVec.ofNat 32 (s.load pa 4)) ∧
      body.length = h.len ∧
      let zero : Prop := ∀ f < 12, h.wait.getLsbD f = true → w.flags.get 0 f = 0
      (u.nativeOf p = false ∨ (zero ∧ ∀ x ∈ w.due, if x.closed then w.hnd = true else ¬(x.flag < 12 ∧ h.wait.getLsbD x.flag = true)) →
        ∃ t, exec (.clauseIssue p) s = .next t ∧ (t.wave p).hdr = hdr ∧ (t.wave p).body = body ∧ (t.wave p).k = 1 ∧
          (t.wave p).pc = w.pc + 4 ∧ (∀ k, t.elem k = s.elem k) ∧ ∀ a, t.byte a = s.byte a) ∧
      (u.nativeOf p = true → ¬zero → ∃ t, exec (.clauseIssue p) s = .next t ∧ (t.wave p).pc = w.pc ∧ (t.wave p).k = 0 ∧
        (∀ k, t.elem k = s.elem k) ∧ ∀ a, t.byte a = s.byte a)) ∧
    (w.mayIssue = true → w.k = 0 → w.trap = none → w.stopReq = false → 2 ^ 57 ≤ w.pc.toNat → ∃ t, exec (.clauseIssue p) s = .next t ∧
      (t.wave p).pc = w.pc ∧ (t.wave p).k = 0 ∧ (t.wave p).missed = [w.pc.toNat / 65536] ∧
      (∃ m ∈ (t.core (coreOf p)).misses, m.lid = w.lid ∧ m.va / 65536 = w.pc.toNat / 65536) ∧
      (∀ k, t.elem k = s.elem k) ∧ ∀ a, t.byte a = s.byte a) ∧
    (w.mayIssue = true → w.k = 0 → w.trap = none → w.stopReq = false → s.runOf p = .original → w.pc.toNat < 2 ^ 57 →
      ∀ pa, s.translate (coreOf p) (s.launch w.lid).ctx w.pc.toNat { ex := true } = (.pa pa, s) →
      let hdr : Word := BitVec.ofNat 32 (s.load pa 4)
      let fails : DWord → Nat → DecodeErr → Prop := fun a k e => ∃ t, exec (.clauseIssue p) s = .next t ∧ (t.wave p).status = .halted ∧
        (t.wave p).stop = some (0x10, e.code, 0, 0) ∧ (t.wave p).pc = a ∧ (t.wave p).k = k ∧ ∀ k, t.elem k = s.elem k
      (∀ e, decodeHeader hdr = .error e → fails w.pc 0 e) ∧
      ∀ h body u, decodeHeader hdr = .ok h → s.fetchWords p h.len 1 (w.pc + 4) = (.ok body, u) → u.runOf p = .original →
        (∀ k, u.elem k = s.elem k) → (u.wave p).stopReq = false →
        ∀ k e, decodeClause (u.nativeOf p) hdr body = .error (k, e) → fails (w.pc + BitVec.ofNat 64 (4 * k)) k e) ∧
    (∀ since, w.status = .running → w.active = true → w.flagWaitSince = some since → 16 ≤ (s.clock - since).toNat →
      exec (.flagWaitDemotion p) s = .next (s.setWave p { w with active := false })) ∧
    (∀ till, w.wait = .nap till → till.toNat ≤ s.clock.toNat →
      exec (.napExpiry p) s = .next (s.setWave p { w with wait := .none, reasons := 0, readySince := s.clock })) ∧
    (∀ c q x y, s.oldestPending c q = some x → s.busiest ((s.pipeWaves c q).filter (fun x => x.2.active && !x.2.displaced)) = some y →
      x.1 ≠ y.1 → 256 < (s.clock - x.2.readySince).toNat → 8 ≤ s.activeCount c q →
      ∃ t, exec (.ageingDisplacement c q) s = .next t ∧ (t.wave x.1).active = true ∧ (t.wave y.1).active = false) ∧
    (∀ c, (∃ x ∈ (s.core c).tasks, x.due = false ∧ 2048 ≤ (s.clock - x.since).toNat) → ∃ t, exec (.taskWaitTimeout c) s = .next t ∧
      (t.core c).tasks = (s.core c).tasks.map (fun x => if 2048 ≤ (s.clock - x.since).toNat then { x with due := true } else x)) ∧
    ((w.status = .ended ∨ w.status = .killed) → s.waveQuiet p = true →
      let b := s.block w.blk
      let last : Prop := b.ended = true ∧ s.lastSlot b p = true
      (¬last → exec (.slotRelease p) s = .next (s.setWave p {})) ∧
      (last → s.blockQuiet b = true → ∃ t, exec (.slotRelease p) s = .next t ∧ t.wave p = {} ∧ t.block? w.blk = none))

/-- The arrivals of a generation are in when each wave of the block has arrived, with what it had issued performed, or has ended; the cycle in
which the last landed is noted, and from the next on the outcome stands (log entry 115). It completes then: with no entry named its
waves go on with its status, else the phases of all the named entries advance; their rows are scrubbed entry after entry, those of one exporter in
ascending order, each when its scrub ends (log entry 23), and the last of them opens the next generation. A draining entry becomes Free, its
unfinished scrub kept (log entry 81), and XREV returns 0. XATT gets its answer, 2 where there is no such exporter, and on 0 its handle. A remote access that its target core accepts is in flight and its wave goes on (log entry 7); a read has its values
then (log entry 94). The rows of a CPRR to another core are pending once that core takes them. The first forced
write whose row is free is applied, past earlier ones of other rows (log entry 69). These entries are the model's choices (R33, R47, R52, R53, R57, R60, R123, R164, R167, R168, R182, R275). -/
def Obligations.BarrierAndAditSteps : Prop :=
  ∀ (s : State),
    (∀ (b : Block) (before now : DWord), b ∈ s.blocks → (b.outcomeFixed now = true ↔ ∃ c, b.landed = some c ∧ c ≠ now) ∧
      let lands : Prop := b.landed = none ∧ b.ended = false ∧ (∃ x ∈ b.arrivals, x.2.isSome = true) ∧
        ∀ i < b.n, match b.arrivals.get none i with
          | some a => ∀ id ∈ a.ids, s.outstanding id = false
          | none => b.ends.get .live i ≠ .live
      (lands → { b with landed := some before } ∈ (s.land before).blocks) ∧ (¬lands → b ∈ (s.land before).blocks)) ∧
    (∀ blk, (s.block? blk).isSome = true →
      let b := s.block blk
      let named := s.namedEntries b
      let bad := match b.abandoned with | some a => decide (a ≤ b.gen) | none => false
      b.ended = false → b.closing = false → b.outcomeFixed s.clock = true →
      (named = [] → (∀ e ∈ b.parties, ∀ d, (s.wave e.2).wait = .barrier d → (s.wave e.2).lasts d) →
        ∃ t, exec (.barrierGenerationComplete blk) s = .next t ∧ (t.block blk).gen = b.gen + 1 ∧ (t.block blk).arrivals = [] ∧
          ∀ e ∈ b.parties, ∀ d, (s.wave e.2).wait = .barrier d → (s.wave e.2).blk = blk → (s.wave e.2).status = .running →
            s.resumed t e.2 d 1 (if bad then 1 else 0) ∧ (t.wave e.2).abn = bad) ∧
      let entry : Nat × Nat → AditEntry := fun x => (s.wave x.1).adits.get {} x.2
      (named ≠ [] → named.Nodup → (∀ x ∈ named, (entry x).scrub = false) →
        ∃ t, exec (.barrierGenerationComplete blk) s = .next t ∧ (t.block blk).closing = true ∧ (t.block blk).gen = b.gen ∧
          (∀ k, t.elem k = s.elem k ∧ t.info k = s.info k) ∧ ∀ x ∈ named,
          (t.wave x.1).adits.get {} x.2 = { entry x with phase := (entry x).phase + 1, scrub := true, gen := true })) ∧
    (∀ p entry, let w := s.wave p
      let e : AditEntry := w.adits.get {} entry
      let b := s.block w.blk
      let earlier : Prop := e.gen = true ∧ ∃ x ∈ w.adits, x.1 < entry ∧ x.2.scrub = true ∧ x.2.gen = true
      let ended : Wave := { w with adits := w.adits.set {} entry { e with scrub := false, gen := false } }
      (e.scrub = true → e.gen = false → exec (.aditScrubEnd p entry) s = .next (s.setWave p ended)) ∧
      (e.scrub = true → ¬earlier → e.gen = true → b.closing = false → ∃ t, exec (.aditScrubEnd p entry) s = .next t ∧ t.wave p = ended ∧
        (∀ q, q ≠ p → t.wave q = s.wave q) ∧ (∀ k, t.elem k = s.elem k) ∧ ∀ a, t.byte a = s.byte a) ∧
      (e.scrub = true → ¬earlier → e.gen = true → (∀ y ∈ b.parties, ∀ d, (s.wave y.2).wait = .barrier d → (s.wave y.2).lasts d) →
        ∃ t, exec (.aditScrubEnd p entry) s = .next t ∧ (∀ k, t.elem k = s.elem k) ∧
        ((t.wave p).adits.get {} entry).scrub = false ∧
        let mine : Nat → Prop := fun r => ∃ i < e.rows, r = rowKey (coreOf p) (e.first + i)
        ∀ r, t.info r = if mine r ∧ (s.info r).stp ≠ e.phase then { s.info r with stp := e.phase - 1, pw := false, fr := false } else s.info r) ∧
      (e.scrub = true → earlier → ∃ r, exec (.aditScrubEnd p entry) s = .refused r) ∧
      (e.scrub = true → ¬earlier → e.gen = true → b.closing = true → (∀ y ∈ b.parties, (s.wave y.2).blk = w.blk → ∀ x ∈ (s.wave y.2).adits,
        x.2.scrub = true → x.2.gen = true → y.2 = p ∧ x.1 = entry) → ∃ t, exec (.aditScrubEnd p entry) s = .next t ∧ (t.block w.blk).gen = b.gen + 1 ∧
          (t.block w.blk).closing = false) ∧
      (∀ d, e.state = .draining → s.aditBusy p entry = false → w.wait = .xrev entry d → w.lasts d →
        ∃ t, exec (.aditDrainComplete p entry) s = .next t ∧ s.resumed t p d 1 0 ∧ (t.wave p).adits.get {} entry = { phase := e.phase, scrub := e.scrub, gen := e.gen } ∧
          (∀ i < e.rows, let m := t.info (rowKey (coreOf p) (e.first + i))
            m.exp = false ∧ (e.scrub = true → e.gen = true → (s.info (rowKey (coreOf p) (e.first + i))).stp ≠ e.phase →
              m.stp = e.phase - 1 ∧ m.pw = false ∧ m.fr = false)) ∧ ∀ k, t.elem k = s.elem k) ∧
      (∀ sb h adr, w.wait = .xatt sb h adr → s.runOf p = .original → b.logging = false → w.lasts (sb + 2) →
        let a := (w.sget sb).toNat
        let n := (w.sget (sb + 1)).toNat
        let q := if adr then a else b.parties.get 6144 a
        let x : AditEntry := (s.wave q).adits.get {} n
        let r := s.attachStatus p sb h adr
        (∃ t, exec (.xattAnswer p) s = .next t ∧ s.resumed t p (sb + 2) 1 (BitVec.ofNat 32 r.1) ∧ ∀ k, t.elem k = s.elem k) ∧
        ((w.handles.get {} h).state = .detached → (adr = false → a ∉ b.parties.map (·.1) ∨ (s.wave q).blk ≠ w.blk) → (adr = true → 6144 ≤ a) →
          (s.wave 6144).status = .absent → r.1 = 2) ∧
        ((w.handles.get {} h).state = .detached → (adr = true → a < 6144) → (adr = false → a < b.n ∧ (s.wave q).blk = w.blk) →
          (s.wave q).status ≠ .absent → n < 16 → x.state = .live →
          (match x.aud with
            | .block => (s.wave q).blk = w.blk
            | .core => (s.wave q).lid = w.lid ∧ coreOf q = coreOf p
            | .partition => (s.wave q).lid = w.lid) →
          r.1 = 0 ∧ ∃ t, exec (.xattAnswer p) s = .next t ∧ (t.wave p).handles.get {} h =
            { state := .attached, exporter := q, entry := n, first := x.first, rows := x.rows, aud := x.aud, xch := x.xch }))) ∧
    (∀ r : RemoteReq, s.remotes.find? (fun x => x.id == r.id) = some r → (∀ x ∈ r.rows, s.rowHeld x.1 = false) →
      let p := r.op.party
      let u := ({ s with remotes := s.remotes.filter (fun x => x.id != r.id) } : State).modWave p
        (fun w => { w with wait := .none, reasons := 0, readySince := s.clock })
      u.racing p (r.own ++ r.rows.map (fun x => (x.1, r.write))) = [] → (∀ o ∈ s.ops, o.id ≠ s.nextId) →
      (r.write = false → r.op.kind = .xget ∧ ∀ a ∈ r.op.lanes, a.done = false) →
      ∃ t o, exec (.remoteAccessAccept r.id) s = .next t ∧ t.remotes = u.remotes ∧ t.ops = s.ops ++ [o] ∧ o.id = s.nextId ∧
        o.kind = r.op.kind ∧ o.dst = r.op.dst ∧ (t.wave p).wait = .none ∧ (r.write = true → o.lanes = r.op.lanes) ∧
        (r.write = false → o.lanes.map (fun a => (a.lane, a.done, a.value, a.poison)) =
          r.op.lanes.map (fun a => (a.lane, true, (s.elem a.loc).setWidth 64, a.poison || s.poisoned a.loc))) ∧
        (t.wave p).pc = (s.wave p).pc + (if r.op.kind = .xget ∨ r.op.kind = .xput then 4 else 8) ∧
        (r.write = true → ∀ x ∈ r.rows, (t.info x.1).pnd = true) ∧ ∀ k, t.elem k = s.elem k) ∧
    (∀ c : CopyCmd, s.copies.find? (fun x => x.id == c.id) = some c → c.kind = .cprr → c.rows = [] → (∀ r ∈ s.remotes, r.op.id ≠ c.id ∧ r.id ≠ c.id) →
      (∀ i ∈ c.items, ∃ k, i.dst = .row k ∧ s.rowHeld k = false) → ∃ t rows, exec (.remoteAccessAccept c.id) s = .next t ∧
        c.items.map (·.dst) = rows.map Loc.row ∧ t.copies = s.copies.map (fun x => if x.id = c.id then { x with rows := rows } else x) ∧
        (∀ k ∈ rows, (t.info k).pnd = true ∧ (t.info k).owner = c.id) ∧ (∀ k, t.elem k = s.elem k) ∧ ∀ a, t.byte a = s.byte a) ∧
    ∀ c i f, (s.core c).forced.findIdx? (fun f => !(s.info (rowKey c f.row)).pnd) = some i → (s.core c).forced[i]? = some f →
      ∃ t, exec (.forcedWriteApply c) s = .next t ∧ (t.core c).forced = (s.core c).forced.eraseIdx i ∧
        (∀ e < 32, t.elem (elemKey (rowKey c f.row) e) = if f.mask.getLsbD e then f.words.getD e 0 else s.elem (elemKey (rowKey c f.row) e)) ∧
        ∀ k, (∀ e < 32, k ≠ elemKey (rowKey c f.row) e) → t.elem k = s.elem k

/-! ### Stalls, halts, pre-emption -/

/-- A miss stalls its core and is reported to the host; the reply ends the stall, which PREB does not count, time in which several cores stall once, and a refusal halts the context with 0x0018, as 3,500,000
cycles without reply do with 0x0019, also where the wave has been killed meanwhile. The halt line stops the waves of a core; once its
engines have stopped, the records of its waves and engines are written and their work is dropped. With the last core the summary is
written, the device sources become idle, block entries that are Clear become Done-with-error, the host is notified under NOTE, and
without DBG the context gives up its waves, blocks, tags, geodes, bays and ceiling grants (R263, R277, R278, R281 to R284). The notice's
ARG, launch number and 2^32 times the core, is the model's choice (log entry 50). -/
def Obligations.StallsAndHalts : Prop :=
  ∀ (s : State) (c lid : Nat),
    let gone : State → Prop := fun t => ∀ p, (t.wave p).status ≠ .absent → (t.wave p).lid ≠ lid
    (∀ m rest, (s.core c).stall = none → (s.core c).misses = m :: rest →
      let arg : DWord := BitVec.ofNat 64 (m.lid % 2 ^ 32 + 2 ^ 32 * c + 2 ^ 40 * m.kind.code)
      let report : HostMsg := { typ := 2, sub := 0, tag := s.nextTag, addr := BitVec.ofNat 64 (m.va % 2 ^ 57), arg := arg }
      ∃ t, exec (.translationMiss c) s = .next t ∧
      t.core c = { s.core c with stall := some { miss := m, tag := s.nextTag, since := s.clock }, misses := rest } ∧
      t.nextTag = s.nextTag + 1 ∧ ((s.modules.get {} 0).up = true → t.sent = s.sent ++ [report]) ∧
      (∀ k, t.elem k = s.elem k) ∧ ∀ a, t.byte a = s.byte a) ∧
    (∀ (x : Stall) (l : Launch) (a : DWord), (s.core c).stall = some x → s.launch? lid = some l → (s.launches.map (·.lid)).Nodup →
      (l.prog = .resident ∨ l.prog = .halting) → c ∈ State.coresOf l → l.preempt = some a →
      let starts (f : Nat → Prop) : Prop := ∃ y ∈ State.coresOf l, y ≠ c ∧ ∃ z, (s.core y).stall = some z ∧ f z.since.toNat
      -- up to `m` the time is counted here: to now, or to the start of the oldest stall that goes on, whose end counts the rest
      ∃ m : DWord, m.toNat ≤ s.clock.toNat ∧ ¬starts (· < m.toNat) ∧ (m = s.clock ∨ starts (· = m.toNat)) ∧
        ((s.endStall c).launch lid).preempt = some (
          if m.toNat ≤ x.since.toNat then a else if x.since.toNat < a.toNat then (if a.toNat < m.toNat then m else a) else a + (m - x.since))) ∧
    (∀ x : Stall, (s.core c).stall = some x →
      let w := s.wave x.miss.party
      let halts : State → Nat → Prop := fun t cause => (t.core c).stall = none ∧ (t.wave x.miss.party).status = .halted ∧
        (t.wave x.miss.party).stop = some (cause, 0, if x.miss.kind = .fetch then 0 else BitVec.ofNat 64 x.miss.va, x.miss.lanes)
      let runs : Prop := w.lid = x.miss.lid ∧ w.status = .running ∧ s.runOf x.miss.party = .original
      (∀ m, s.hears m 3 0 0 0 → s.stalledWith m.tag = some (c, x) →
        (m.stat = 0 → ∃ t, exec (.faultReply m) s = .next t ∧ (t.core c).stall = none ∧ t.launches = (s.endStall c).launches ∧ ∀ p, t.wave p = s.wave p) ∧
        (m.stat = 1 → x.miss.soft = false → runs → ∃ t, exec (.faultReply m) s = .next t ∧ halts t 0x18)) ∧
      (3500000 ≤ (s.clock - x.since).toNat → ¬(w.lid = x.miss.lid ∧ w.status = .running) → ∀ l, s.launch? x.miss.lid = some l →
        l.prog = .resident → l.replay = none → l.halt = none → ∃ t h, exec (.stallEscalation c) s = .next t ∧ (t.core c).stall = none ∧
          (t.launch l.lid).halt = some h ∧ h.cause = 0x19 ∧ h.detail = 0 ∧ h.pc = resumeWord x.miss.pc x.miss.k ∧ (t.launch l.lid).prog = .halting) ∧
      (3500000 ≤ (s.clock - x.since).toNat → runs → ∃ t, exec (.stallEscalation c) s = .next t ∧ halts t 0x19 ∧ x.tag ∈ t.withdrawn)) ∧
    (∀ h : Halt, (s.launch lid).halt = some h → (s.launch lid).prog = .halting → (State.coresOf (s.launch lid)).contains c = true →
      (c ∉ h.reached → (s.core c).stall = none → (∀ p, coreOf p = c → s.completing p = false) → ∃ t, exec (.haltLineArrival lid c) s = .next t ∧
        ((t.launch lid).halt.map (·.reached)) = some (h.reached ++ [c]) ∧
        (∀ p, coreOf p = c → (s.wave p).lid = lid → (s.wave p).status = .running →
          (t.wave p).status = .halted ∧ (t.wave p).pc = (s.wave p).pc ∧ (t.wave p).k = (s.wave p).k ∧
          (t.wave p).reasons = s.reasonsOf p ∧ (t.wave p).stopClk = s.clock) ∧
        (∀ k, t.elem k = s.elem k) ∧ ∀ a, t.byte a = s.byte a) ∧
      (c ∈ h.reached → c ∉ h.stopped → (∀ o ∈ s.ops, ¬(o.lid = lid ∧ coreOf o.party = c)) →
        let l := s.launch lid
        let first := 1 + 135 * ((c / 8 - l.y0) * l.hdr.rw + (c % 8 - l.x0))
        l.hdr.halt + 64 * (1 + 135 * (l.hdr.rw * l.hdr.rh)) ≤ 0x6000000000 → s.waves.wf {} = true →
        ∃ t, exec (.haltEnginesStopped lid c) s = .next t ∧ (∀ x ∈ t.copies, ¬(x.core = c ∧ x.lid = lid)) ∧ (∀ k, t.elem k = s.elem k) ∧
          let rec_ : Nat → Nat := fun n => leNat (t.bytes (l.hdr.halt + 64 * n) 64)
          (∀ p, coreOf p = c → (s.wave p).lid = lid → (s.wave p).status = .halted → let w := s.wave p
            let x := w.stop.getD (0, 0, 0, 0)
            rec_ (first + p % 128) = State.stopRecord w.stopClk (w.stopPc.getD (resumeWord w.pc w.k)) x.2.2.1 lid (waveId p w + 2 ^ 24 * c) x.1 x.2.1 1
              x.2.2.2 w.md.toNat w.flg.toNat (w.reasons.toNat + 1024 * w.stat)) ∧
          (∀ e n, (e, n) ∈ [(Engine.copy0, 0), (Engine.copy1, 1), (Engine.gather, 2)] →
            let mine : CopyCmd → Prop := fun x => x ∈ s.copies ∧ x.core = c ∧ x.lid = lid ∧ x.engine = e ∧ x.kind ≠ .intake
            (∃ x, mine x) → bitsOf (rec_ (first + 128 + n)) 223 208 = 2 + n ∧
              ∀ i < 64, bitOf (rec_ (first + 128 + n)) i = true ↔ ∃ x, mine x ∧ x.tag = i) ∧
          (∀ b < 3, (∃ k ∈ s.blocks, k.lid = lid ∧ k.core = c ∧ b ∈ k.bays) → (s.bay c b).queue.length < 2 ^ 64 →
            bitsOf (rec_ (first + 131 + b)) 223 208 = 5 + b ∧ bitsOf (rec_ (first + 131 + b)) 63 0 = (s.bay c b).queue.length) ∧
          let last : Prop := ∀ y ∈ State.coresOf l, y = c ∨ y ∈ h.stopped
          (¬last → ((t.launch lid).halt.map (·.stopped)) = some (h.stopped ++ [c]) ∧ (t.launch lid).prog = .halting) ∧
          (last → (t.launch lid).prog = .halted ∧
            bitsOf (rec_ 0) 447 384 = h.pc.toNat ∧ bitsOf (rec_ 0) 383 320 = h.addr.toNat ∧ bitsOf (rec_ 0) 319 288 = lid % 2 ^ 32 ∧
            bitsOf (rec_ 0) 255 240 = h.cause % 2 ^ 16 ∧ bitsOf (rec_ 0) 239 224 = h.detail % 2 ^ 16 ∧ bitsOf (rec_ 0) 223 208 = 0 ∧
            (l.hdr.noev = false → ∀ n < l.total, t.events.get .clear (l.hdr.evb + n) =
              if s.events.get .clear (l.hdr.evb + n) = .clear then .error else s.events.get .clear (l.hdr.evb + n)) ∧
            ((∀ z ∈ s.launches, z.hdr.out = false) → ∀ st i, ((s.stream st).srcs.get {} i).kind = .device lid → ((t.stream st).srcs.get {} i).idle = true) ∧
            (l.hdr.note = true → (s.modules.get {} 0).up = true → t.sent.getLast? =
              some { typ := 4, sub := 1, arg := BitVec.ofNat 64 (lid + 2 ^ 32 * h.core) }) ∧
            (l.hdr.dbg = true → t.blocks = s.blocks) ∧
            (l.hdr.dbg = false → gone t ∧ (∀ b ∈ t.blocks, b.lid ≠ lid) ∧ (∀ y b, (t.core y).grants.get none b ≠ some lid) ∧
              (∀ b ∈ s.blocks, b.lid = lid → (∀ x ∈ b.tags, (t.core b.core).tags.get .idle x = .idle) ∧
                (∀ g ∈ b.geodes, t.geode b.core g = {}) ∧ ∀ y ∈ b.bays, (t.bay b.core y).holder = none))))) ∧
    ∀ (clk pc addr : DWord) (lanes : LaneMask) (lid who cause detail kind md flg aux : Nat),
      let v := State.stopRecord clk pc addr lid who cause detail kind lanes md flg aux
      bitsOf v 511 448 = clk.toNat ∧ bitsOf v 447 384 = pc.toNat ∧ bitsOf v 383 320 = addr.toNat ∧ bitsOf v 319 288 = lid % 2 ^ 32 ∧
      bitsOf v 287 256 = who % 2 ^ 32 ∧ bitsOf v 255 240 = cause % 2 ^ 16 ∧ bitsOf v 239 224 = detail % 2 ^ 16 ∧
      bitsOf v 223 208 = kind % 2 ^ 16 ∧ bitsOf v 207 192 = 0 ∧ bitsOf v 191 96 = lanes.toNat ∧ bitsOf v 95 80 = md % 2 ^ 16 ∧
      bitsOf v 79 64 = flg % 2 ^ 16 ∧ bitsOf v 63 0 = aux % 2 ^ 64

/-- A request, a slice that is over, and a PREB that has passed mark the context, whose waves stop at their pre-emption points: a PPT, a wait for a
barrier (at BAR and BARA that for an earlier generation), a rendezvous, a tag or a stream, a debug halt, and after PREB any boundary (R288). With
the last of them, once nothing is in flight, it is stored with its waves as they stand, the rows that R59, R287 and R288 name (an exported row, a bound
geode's, those of the wave's record, else of its budget and v240 to v255, bays, common slots and granted ceilings), bays and tags. A stall in
the reserved area that class 0 displaces ends, and the waves that missed on its page (by 64 KiB: log entry 105) stop where they are, their
misses dropped. Pending rows for 3,500,000 cycles halt the context with 0x0026, a replay alone and without a record (R298). A saved context with
room is resident again: its waves as they were saved, each row as it was stored and zero where nothing was, the parties in metadata and handles
the new ones, Ready latches read again from the ceilings; a saved wave with a reserved md halts it with 0x0012 (R87). An image of
another package brings its launch, under its number where that is free, and that of an audit's run is not taken (log entries 133, 142, 143) (R2, R267, R278,
R286 to R291). When the count for
pending rows starts is log entry 61, that a restore ranks with its class log entry 60, the md of a wave so halted log entry 132: the model's choices. -/
def Obligations.PreemptionSteps : Prop :=
  ∀ (s : State) (lid : Nat),
    let l := s.launch lid
    let calm : Prop := ∀ c ∈ State.coresOf l, (s.core c).stall = none
    let asked : Launch → Launch := fun l => { l with preempt := some s.clock, bound := false, saveSince := none }
    let kept : State → Nat → Wave → Nat → Prop := fun u q w r => (u.info (slotRow q r)).exp = true ∨
      (∃ g ∈ (u.core (coreOf q)).geodes, g.2.bnd = true ∧ g.2.party = q ∧ g.2.vreg = r / 3) ∨
      match w.ppt.bind (fun n => (u.imageOf? w.lid).bind (fun i => i.records[n]?)) with
      | some rec => rec.vmap.getLsbD (r / 3) = true ∨ ∃ z ∈ rec.ranges, z.1 ≤ r ∧ r < z.1 + z.2
      | none => r < 3 * w.budget ∨ 720 ≤ r
    let whole : State → Saved → Nat → Nat → Nat → Prop := fun u x c row n => ∃ g ∈ x.rows, g.pos = State.posIn l c ∧ g.row = row ∧
      ∀ r < n, g.info.get {} r = { u.info (rowKey c (row + r)) with pnd := false, owner := 0 } ∧
        ∀ e < 32, g.elems.get 0 (32 * r + e) = u.elem (elemKey (rowKey c (row + r)) e) ∧
          g.bad.get false (32 * r + e) = u.poisoned (elemKey (rowKey c (row + r)) e)
    let stores : State → Saved → Prop := fun u x => x.lid = lid ∧ x.waves = u.liveWaves lid ∧
      (∀ y ∈ x.waves, ∃ g ∈ x.rows, g.pos = State.posIn l (coreOf y.1) ∧ g.row = 768 * slotOf y.1 ∧ ∀ r < 768,
        (kept u y.1 y.2 r → g.info.get {} r = { u.info (slotRow y.1 r) with pnd := false, owner := 0 }) ∧
        ∀ e < 32, (kept u y.1 y.2 r → g.elems.get 0 (32 * r + e) = u.elem (elemKey (slotRow y.1 r) e) ∧
            g.bad.get false (32 * r + e) = u.poisoned (elemKey (slotRow y.1 r) e)) ∧
          (¬kept u y.1 y.2 r → g.elems.get 0 (32 * r + e) = 0)) ∧
      (∀ b ∈ u.blocks, b.lid = lid → (∀ z ∈ b.common, whole u x b.core (768 * (z.2.1 - 1)) 768) ∧
        (∀ n ∈ b.tags, (State.posIn l b.core, n, (u.core b.core).tags.get .idle n) ∈ x.tags) ∧
        ∀ y ∈ b.bays, whole u x b.core (196608 + 256 * y) 256 ∧ (State.posIn l b.core, y, u.bay b.core y) ∈ x.bays) ∧
      ∀ c ∈ State.coresOf l, ∀ y ∈ baysOf l.hdr.ceil, whole u x c (98304 + 32768 * y) 32768
    let marked : State → State → Prop := fun u t =>
      (u.readyToStore lid = false → (t.launch lid).preempt = some s.clock ∧ (t.launch lid).prog = .resident) ∧
      (u.readyToStore lid = true → (t.launch lid).prog = .saved)
    (l.prog = .resident → l.preempt = none → calm → s.withdrawable l = [] → (s.outranked l = true ∨ s.onQuarantined l = true) →
      ∃ t, exec (.preemptionRequest lid) s = .next t ∧ marked (s.modLaunch lid asked) t) ∧
    (∀ c x, l.prog = .resident → s.withdrawable l = [c] → (s.core c).stall = some x → ∃ t, exec (.preemptionRequest lid) s = .next t ∧
      x.tag ∈ t.withdrawn ∧ (t.core c).stall = none ∧ ((t.launch lid).prog = .resident →
        t.sent = s.sent ∧ (t.launch lid).preempt ≠ none ∧ (∀ p, coreOf p = c → (s.wave p).lid = lid → (s.wave p).status = .running →
          t.wave p = if (s.wave p).missed.contains (x.miss.va / 65536) then { s.wave p with parked := true, missed := [], stopClk := s.clock }
            else s.wave p) ∧
        ∀ m, m ∈ (t.core c).misses ↔ m ∈ (s.core c).misses ∧ s.missedOn lid c (x.miss.va / 65536) m.party = false)) ∧
    (∀ cls, s.sliceOver cls = some l → l.lid = lid → l.prog = .resident → s.sliceOf cls ≠ 0 → s.classWaits cls = true → calm →
      ∃ t, exec (.timeSliceExpiry cls) s = .next t ∧ marked (s.modLaunch lid asked) t) ∧
    (∀ t0, l.prog = .resident → l.preempt = some t0 → 1750 * l.hdr.preb ≤ (s.clock - t0).toNat → l.bound = false → calm →
      let u := s.modLaunch lid (fun l => { l with bound := true })
      ∃ t, exec (.preemptionBoundExpiry lid) s = .next t ∧ (u.readyToStore lid = false → (t.launch lid).bound = true) ∧
        (u.readyToStore lid = true → (t.launch lid).prog = .saved)) ∧
    (∀ p, let w := s.wave p
      l.prog = .resident → l.preempt ≠ none → w.lid = lid → w.status = .running → s.coreStalled (coreOf p) = false → w.parked = false →
      s.completing p = false →
      let point : Prop := w.ppt ≠ none ∨ (w.debug = true ∧ w.stepReq = false) ∨
        match w.wait with
        | .barrier _ | .rendezvous => True
        | .none => w.reasons.getLsbD 5 = true ∨ w.reasons.getLsbD 6 = true ∨ l.bound = true
        | .nap _ => l.bound = true
        | _ => False
      let v := { w with parked := true, active := false, stopClk := s.clock }
      (¬point → ∃ r, exec (.waveSave p) s = .refused r) ∧ (point → ∃ t, exec (.waveSave p) s = .next t ∧
        ((s.setWave p v).readyToStore lid = false → t.wave p = v) ∧
        ((s.setWave p v).readyToStore lid = true → (t.launch lid).prog = .saved ∧ ∃ x ∈ t.saved, stores (s.setWave p v) x))) ∧
    (l.prog = .resident → l.preempt ≠ none → l.halt = none →
      (∃ t0, l.saveSince = some t0 ∧ 3500000 ≤ (s.clock - t0).toNat ∧ s.rowsPending lid = true) ∨
        (∃ x ∈ s.liveWaves lid, x.2.parked = true ∧ s.slotPending x.1 = true ∧ 3500000 ≤ (s.clock - x.2.stopClk).toNat) → ∃ t, exec (.saveTimeout lid) s = .next t ∧
        (l.replay = none → (t.launch lid).prog = .halting ∧ ((t.launch lid).halt.map (fun h => (h.cause, h.detail))) = some (0x26, 0)) ∧
        (l.replay ≠ none → (t.launch lid).halt = none ∧ (∀ a, t.byte a = s.byte a) ∧ ∀ y ∈ (s.liveWaves lid).head?, ∃ z ∈ s.liveWaves lid,
          ((s.block? (s.wave z.1).blk).isSome = true → (t.block (s.wave z.1).blk).ended = true))) ∧
    (∀ (x : Saved) (r u : State) (x0 y0 : Nat) (m : Moves),
      State.placeAll l x x0 y0 x.blocks {} ((State.rectCores x0 y0 l.hdr.rw l.hdr.rh).foldl (fun s c => s.takeGrants lid c l.hdr.ceil) s) =
        some (m, u) → l.lid = lid → s.restoreAt l x x0 y0 = some r →
      let core : Nat → Nat := fun pos => State.coreAt l x0 y0 pos
      let dest := State.moveParty l x x0 y0 m
      let base : SavedRows → Nat := fun g => rowKey (core g.pos) (State.moveRow m g.pos g.row)
      ((x.waves.map (fun y => dest y.1)).Nodup → ∀ y ∈ x.waves, let v := r.wave (dest y.1)
        v.pc = y.2.pc ∧ v.k = y.2.k ∧ v.hdr = y.2.hdr ∧ v.body = y.2.body ∧ v.md = y.2.md ∧ v.flg = y.2.flg ∧ v.lc = y.2.lc ∧
        v.cnt = y.2.cnt ∧ v.cont = y.2.cont ∧ v.present = y.2.present ∧ v.exist = y.2.exist ∧ v.hnd = y.2.hnd ∧ v.trb = y.2.trb ∧
        v.abn = y.2.abn ∧ v.gng = y.2.gng ∧ v.wait = y.2.wait ∧ v.parked = false ∧ (∀ i < 64, v.sget i = y.2.sget i) ∧
        ∀ h < 16, (y.2.handles.get {} h).state = .attached → (v.handles.get {} h).state = .attached ∧
          (v.handles.get {} h).exporter = dest (y.2.handles.get {} h).exporter) ∧
      (∀ g ∈ x.rows, ∀ y ∈ g.elems, (∀ g' ∈ x.rows, ∀ y' ∈ g'.elems, 32 * base g' + y'.1 = 32 * base g + y.1 → y'.2 = y.2) →
        r.elem (32 * base g + y.1) = y.2) ∧
      (∀ z ∈ m.slots, ∀ k < 24576, let e := 32 * rowKey (core z.1.1) (768 * z.2) + k
        (∀ g ∈ x.rows, ∀ y ∈ g.elems, 32 * base g + y.1 ≠ e) → r.elem e = 0) ∧
      (∀ g ∈ x.rows, ∀ y ∈ g.info, (∀ g' ∈ x.rows, ∀ y' ∈ g'.info, base g' + y'.1 = base g + y.1 → y'.2 = y.2) →
        let i := r.info (base g + y.1)
        i.exp = y.2.exp ∧ i.pw = y.2.pw ∧ i.fr = y.2.fr ∧ i.stp = y.2.stp ∧
        ((∃ z ∈ x.waves, z.1 = y.2.pty.toNat) → i.pty = BitVec.ofNat 13 (dest y.2.pty.toNat))) ∧
      ((x.bays.map (fun z => (core z.1, z.2.1))).Nodup → (∀ z ∈ x.bays, z.2.1 < 3) → ∀ z ∈ x.bays,
        let v := r.bay (core z.1) z.2.1
        v.ramp = .cold ∧ v.bsat = z.2.2.bsat ∧ v.bnan = z.2.2.bnan ∧ v.queue = z.2.2.queue ∧ ∀ a ∈ z.2.2.latches,
          let n := z.2.2.latches.get {} a.1
          let b := v.latches.get {} a.1
          b.state = n.state ∧ b.tile = n.tile ∧ b.fmt = n.fmt ∧ (n.state = .ready → l.replay = none → ∀ col < 128,
            b.cols.get [] col = (State.tileRows (core z.1) z.2.1 n.tile col n.fmt).flatMap r.rowWords))) ∧
    (∀ (n : Nat) (x : Saved), s.arriving[n]? = some x → x.launch.replay ≠ none →
      s.attempt (.image n) = .next { s with arriving := s.arriving.eraseIdx n }) ∧
    (∀ (n : Nat) (x : Saved), s.arriving[n]? = some x → x.launch.replay = none → ∃ t y, s.attempt (.image n) = .next t ∧ t.arriving = s.arriving.eraseIdx n ∧
      t.saved = s.saved ++ [y] ∧ t.launches = s.launches ++ [y.launch] ∧ y.launch.prog = .saved ∧ y.launch.lid = y.lid ∧
      (x.lid < 2 ^ 32 → s.launch? x.lid = none → y.lid = x.lid) ∧ (s.launch? x.lid ≠ none → y.lid = s.nextLid) ∧ y.lid < t.nextLid ∧
      y.rows.map (fun g => (g.pos, g.row, g.elems, g.bad)) = x.rows.map (fun g => (g.pos, g.row, g.elems, g.bad)) ∧
      y.waves.map (fun w => (w.1, w.2.pc, w.2.k, w.2.md, w.2.flg, w.2.sregs)) = x.waves.map (fun w => (w.1, w.2.pc, w.2.k, w.2.md, w.2.flg, w.2.sregs)) ∧
      (∀ b ∈ y.blocks, b.lid = y.lid ∧ s.nextId ≤ b.id ∧ b.id < t.nextId) ∧ (∀ p, t.wave p = s.wave p) ∧
      (∀ k, t.elem k = s.elem k) ∧ ∀ a, t.byte a = s.byte a) ∧
    ∀ x r, s.saved.find? (fun x => x.lid == lid) = some x → s.restored l x = some r →
      (∃ x0 y0, x0 + l.hdr.rw ≤ 8 ∧ y0 + l.hdr.rh ≤ 6 ∧ s.restoreAt l x x0 y0 = some r) ∧
      (l.prog = .saved → s.outranked l = false →
        ((∀ w ∈ r.liveWaves lid, mdLegal w.2.md = true) →
          exec (.contextRestore lid) s = .next r ∧ (l.lid = lid → (r.launch lid).prog = .resident ∧ ∀ y ∈ r.saved, y.lid ≠ lid)) ∧
        ((∃ w ∈ r.liveWaves lid, mdLegal w.2.md = false) → (∀ w ∈ r.liveWaves lid, r.wave w.1 = w.2 ∧ r.runOf w.1 = .original) → l.halt = none →
          l.lid = lid → ∃ t, exec (.contextRestore lid) s = .next t ∧ (t.launch lid).prog = .halting ∧
            ((t.launch lid).halt.map (fun h => (h.cause, h.detail))) = some (0x12, 0) ∧ (∀ k, t.elem k = r.elem k) ∧
            ∀ w ∈ r.liveWaves lid, mdLegal w.2.md = false → (t.wave w.1).status = .halted ∧ (t.wave w.1).stop = some (0x12, 0, 0, 0) ∧
              mdLegal (t.wave w.1).md = true))

/-! ### Launches and audits -/

/-- A launch message waits for the scheduler, which reads the header once the writes before the request are performed and answers with the
lowest status of the table whose condition holds; on 0 the launch is queued under the next number. The next head that fits somewhere claims
the lowest rectangle, with its ceilings granted and zeroed; a routing mismatch halts it with 0x0022. The lowest ready block is placed whole on
the first core with room, its waves as R24 and R188 start them, or passed over. At a sample period each pipe's next wave is sampled in 32 bytes
(R125, R188, R264 to R272). The model's choices: the places of the reserved area and of the sample buffer (log entry 20), status 5 for a
header without a role (46), the number that an output source names (51), which launches status 0xB looks at for another idle timeout (109), a
header read whatever its poison (101), and a claim whatever its cores' islands are (100). -/
def Obligations.LaunchSteps : Prop :=
  ∀ (s : State),
    (∀ m, s.hears m 1 0 0 0x7F0F → ∃ t r, exec (.launchMessage m) s = .next t ∧ t.launchReqs = s.launchReqs ++ [r] ∧
      r.addr = some m.addr.toNat ∧ r.queue = m.arg.toNat % 16 ∧ r.ctx = m.arg.toNat / 256 % 128 ∧ r.source = .host m) ∧
    (∀ r : LaunchReq, s.launchReqs.find? (fun x => x.id == r.id) = some r → (∀ i ∈ r.ids, s.outstanding i = false) →
      let st := s.requestStatus r
      let v := s.load (r.addr.getD 0) 256
      let x := if bitOf v 770 then s.load (bitsOf v 767 704) 128 else 0
      let h := headerOf v x
      let n := h.blocks
      let stray : Nat → Nat → List (Nat × Nat) → Prop := fun size w map => ∃ i < size, bitOf w i = true ∧ ∀ f ∈ map, ¬(f.2 ≤ i ∧ i ≤ f.1)
      let badBind : BindDesc → Prop := fun d => d.slide = 0 ∨ 8 < d.qcap ∨ (s.stream d.strm).opened = false ∨
        2 ^ 64 ≤ d.org + 2 ^ 32 * d.slide + (d.q + 1) * d.slide ∨ (∃ o ∈ h.binds, o.strm = d.strm ∧ o.idle ≠ d.idle) ∨
        ∃ l ∈ s.launches, l.replay = none ∧ (l.prog = .queued ∨ l.prog = .resident ∨ l.prog = .saved) ∧
          ∃ o ∈ l.hdr.binds, o.strm = d.strm ∧ o.idle ≠ d.idle
      let rows : List (Nat × Prop) := [
        (1, 16 ≤ r.queue),
        (2, 64 ≤ (s.launches.filter (fun l => l.queue == r.queue && l.prog == .queued && l.replay.isNone)).length),
        (3, ∀ a, r.addr = some a → a % 256 ≠ 0 ∨ memTop < a + 256),
        (4, (∀ m, r.source ≠ .host m) ∧ r.queue < 4),
        (5, stray 2048 v headerBits ∨ (h.std = true ∧ ∃ i < 4, stray 256 (bitsOf x (256 * i + 255) (256 * i)) bindBits) ∨ h.img % 256 ≠ 0 ∨
          h.htbl % 65536 ≠ 0 ∨ h.halt % 64 ≠ 0 ∨ h.strm % 4096 ≠ 0 ∨ (h.std = false ∧ h.strm ≠ 0) ∨ ¬(1 ≤ h.rw ∧ h.rw ≤ 8) ∨
          ¬(1 ≤ h.rh ∧ h.rh ≤ 6) ∨ 4 < h.nbind ∨ 64 < h.tags ∨ 8 < h.geo ∨ 16 < h.csl ∨ ¬(1 ≤ h.preb ∧ h.preb ≤ 1000000) ∨ 1024 < h.arate ∨
          h.roles = [] ∨ (∃ y ∈ h.roles, y.entry % 4 ≠ 0 ∨ y.budget = 0 ∨ 256 < y.budget ∨ 16 < y.waves) ∨ ∃ d ∈ h.deps, d.map = 3 ∧ d.k = 0),
        (6, h.b = 0 ∨ 6 < h.b ∨ (∃ w ∈ h.widths, 32 < w) ∨ 64 < h.widths.sum ∨ ∃ y ∈ h.ext.zip h.widths, 2 ^ y.2 < y.1),
        (7, h.waves = 0 ∨ 16 < h.waves ∨ (h.roles.map (·.waves)).head? ≠ some (h.combos * h.strips)),
        (8, ∀ i, s.imageAt? h.img = some i → ∃ y ∈ h.roles, ∀ z ∈ i.roles, z.entry ≠ y.entry ∨ z.budget ≠ y.budget),
        (9, 128 < h.waves + h.csl ∨ ∃ b < 3, bitOf h.bays b = true ∧ bitOf h.ceil b = false),
        (0xA, (h.noev = false ∧ (65536 < h.evb + n ∨ ∃ l ∈ s.launches, l.prog ≠ .ended ∧ l.prog ≠ .halted ∧ l.replay = none ∧ l.hdr.noev = false ∧
            h.evb < l.hdr.evb + l.total ∧ l.hdr.evb < h.evb + n)) ∨
          ∃ d ∈ h.deps, 65535 < d.base + d.count - 1 ∨ (d.map = 2 ∧ d.count < n) ∨ (d.map = 3 ∧ d.count ≤ (n - 1) / d.k)),
        (0xB, (h.std = false ∧ (h.nbind ≠ 0 ∨ h.out = true)) ∨ (h.std = true ∧ ((∃ d ∈ h.binds, badBind d) ∨
          (h.out = true ∧ ((s.stream h.ostr).srcs.get {} h.osrc).kind ≠ .device s.nextLid)))),
        (0xC, r.queue < 4 ∧ (4 < h.rw ∨ 3 < h.rh)),
        (0xD, ∀ x0 y0, x0 + h.rw ≤ 8 → y0 + h.rh ≤ 6 → ∃ c ∈ State.rectCores x0 y0 h.rw h.rh, (s.core c).enabled = false ∨ (s.core c).quar = true),
        (0xE, h.cls ≠ r.queue / 4)]
      (∀ y ∈ rows, y.2 → 0 < st ∧ st ≤ y.1) ∧ (st = 0 ∨ ∃ y ∈ rows, st = y.1 ∧ y.2) ∧
      let taken : State → Prop := fun t => t.launchReqs = s.launchReqs.filter (fun x => x.id != r.id) ∧
        (st ≠ 0 → t.launches = s.launches) ∧
        (st = 0 → t.nextLid = s.nextLid + 1 ∧ ∃ l, t.launches = s.launches ++ [l] ∧ l.lid = s.nextLid ∧ l.prog = .queued ∧ l.queue = r.queue ∧
          l.ctx = r.ctx ∧ l.hdr = h)
      (∀ m, r.source = .host m → (s.modules.get {} m.module).up = true →
        ∃ t, exec (.launchAcceptance r.id) s = .next t ∧ taken t ∧ t.answers m st) ∧
      (∀ p d, r.source = .wave p → (s.wave p).wait = .launch r.id d → (s.wave p).status = .running → s.runOf p = .original →
        (s.block (s.wave p).blk).logging = false → (s.wave p).lasts d →
        ∃ t, exec (.launchAcceptance r.id) s = .next t ∧ taken t ∧ s.resumed t p d 1 (BitVec.ofNat 32 st))) ∧
    (let fits : Launch → Nat → Nat → Prop := fun l x y => x + l.hdr.rw ≤ 8 ∧ y + l.hdr.rh ≤ 6 ∧ ∀ c ∈ State.rectCores x y l.hdr.rw l.hdr.rh,
        (s.core c).enabled = true ∧ (s.core c).quar = false ∧
        (∀ b < 3, bitOf l.hdr.ceil b = true → (s.core c).grants.get none b = none ∨ (s.core c).grants.get none b = some l.lid) ∧
        (l.queue < 4 → s.inReserved c = true) ∧ (4 ≤ l.queue → 50 < l.hdr.preb → s.inReserved c = false)
      let turn : Nat → Nat := fun q => 4 * (q / 4) + (q % 4 + 4 - s.served.get 0 (q / 4) % 4) % 4
      ∀ q l rest x y mismatch, q < 16 → s.queueOf q = l :: rest → fits l x y → (∀ x' y', fits l x' y' → y < y' ∨ y = y' ∧ x ≤ x') →
      (∀ q' l' rest' x' y', q' < 16 → s.queueOf q' = l' :: rest' → fits l' x' y' → turn q ≤ turn q') → (s.launch l.lid).halt = none →
      (∀ c ∈ State.rectCores x y l.hdr.rw l.hdr.rh, ∀ f ∈ (s.core c).forced, ∀ b < 3, bitOf l.hdr.ceil b = true → f.row / 32768 ≠ 3 + b) →
      ∃ t, exec (.rectangleClaim q mismatch) s = .next t ∧ (t.launch l.lid).x0 = x ∧ (t.launch l.lid).y0 = y ∧
        (mismatch = none → (t.launch l.lid).prog = .resident) ∧
        (mismatch ≠ none → (t.launch l.lid).prog = .halting ∧ ((t.launch l.lid).halt.map (·.cause)) = some 0x22) ∧
        ∀ c ∈ State.rectCores x y l.hdr.rw l.hdr.rh, ∀ b ∈ baysOf l.hdr.ceil, (t.core c).grants.get none b = some l.lid ∧
          ∀ i < 32768, ∀ e < 32, t.elem (elemKey (ceilRow c (32768 * b + i)) e) = 0) ∧
    (∀ lid b, let l := s.launch lid
      l.prog = .resident → l.preempt = none → l.replay = none → s.readyFrom l l.total 0 = some b →
      (s.stopped l b = true → ∃ t, exec (.blockPlacement lid) s = .next t ∧ (t.launch lid).started.get false b = true ∧
        (l.hdr.noev = false → t.events.get .clear (l.hdr.evb + b) = .error)) ∧
      ∀ c room, s.stopped l b = false → s.firstRoom l = some (c, room) → ∃ t, exec (.blockPlacement lid) s = .next t ∧
        (t.launch lid).started.get false b = true ∧
        (∃ k ∈ t.blocks, k.id = s.nextId ∧ k.lid = lid ∧ k.index = BitVec.ofNat 64 b ∧ k.core = c ∧ k.run = .original) ∧
        ∀ x ∈ (wavesFor l.hdr b).zip room.slots, let w := t.wave (128 * c + x.2.1)
          w.status = .running ∧ w.lid = lid ∧ w.blk = s.nextId ∧ w.num = x.1.num ∧ w.pc = x.1.entry ∧ w.k = 0 ∧ w.md = 2 ∧ w.present = x.1.mask ∧
          w.exist = x.1.mask) ∧
    (s.samplePeriod ≠ 0 → s.sampleDue.toNat ≤ s.clock.toNat → ∃ t, exec .samplePeriodExpiry s = .next t ∧
      t.sampleDue = s.clock + BitVec.ofNat 64 s.samplePeriod ∧ (∀ p, t.wave p = s.wave p) ∧ (∀ k, t.elem k = s.elem k) ∧
      let n := s.sampleSize / 32
      let ps := (List.range 48).flatMap (fun c => (List.range 4).filterMap (s.nextSample c))
      (∀ c pipe p, s.nextSample c pipe = some p → (∃ w, (p, w) ∈ s.pipeWaves c pipe) ∧ ∀ p' w', (p', w') ∈ s.pipeWaves c pipe →
        (s.core c).sampled.get 0 pipe ≤ slotOf p' → (s.core c).sampled.get 0 pipe ≤ slotOf p) ∧
      (∀ c pipe p, c < 48 → pipe < 4 → s.nextSample c pipe = some p → (t.core c).sampled.get 0 pipe = slotOf p + 1) ∧
      (n ≠ 0 → t.samplePos = s.samplePos + ps.length ∧ (ps.length ≤ n → s.sampleBase + 32 * n ≤ memTop →
        ∀ (i p : Nat), ps[i]? = some p → let w := s.wave p
          let v := leNat (t.bytes (s.sampleBase + 32 * ((s.samplePos + i) % n)) 32)
          let why := s.reasonsOf p
          bitsOf v 9 0 = why.toNat ∧ bitsOf v 47 10 = 0 ∧ (why = 0 → bitsOf v 51 48 = 15) ∧
          (why ≠ 0 → why.getLsbD (bitsOf v 51 48) = true ∧ ∀ k, bitsOf v 51 48 < k → why.getLsbD k = false) ∧ bitOf v 52 = w.hnd ∧
          bitOf v 53 = w.trb ∧ bitsOf v 63 54 = 0 ∧ bitsOf v 95 64 = (waveId p w + 2 ^ 24 * coreOf p) % 2 ^ 32 ∧ bitsOf v 127 96 = w.lid % 2 ^ 32 ∧
          bitsOf v 191 128 = w.pc.toNat ∧ bitsOf v 255 192 = s.clock.toNat)))

/-- Tasks of one entry form a wave on a core with room, task i in lane i with its number and its record (R30). A closed log's block runs again
on another core; a difference brings a third run on a third core; the digests decide, and the scores follow. No core for
1,750,000,000 cycles abandons the audit; an undecidable verdict scores each of the three cores. Each verdict writes its record into the ring. A kept log can be
replayed on a named core, which scores and counts nowhere, and freed (R297 to R303). A run whose core has no free slots for an XALLOC that succeeded
in the original is taken off it at once and waits for a core anew, one on a named core is abandoned (R58; log entry 90: the model's choice). An entry
larger than the logger's buffer abandons the audit with ABR 3 (R294, R301; before ABR 2: log entry 134, the model's choice). That the outvoted counter counts a verdict against the
original, and that a replay of a kept log which differs is undecidable, are the model's choices (log entries 68, 54). -/
def Obligations.TaskAndAuditSteps : Prop :=
  ∀ (s : State),
    (∀ c x rest room, s.taskGroup c = x :: rest → s.taskRoom c x.lid = some room → (x :: rest).length ≤ 96 →
      let p := 128 * c + (room.slots.map (·.1)).headD 0
      ∃ t, exec (.taskWaveFormation c) s = .next t ∧ (t.wave p).pc = x.entry ∧ (t.wave p).lid = x.lid ∧
        (∀ i < 96, (t.wave p).present.getLsbD i = decide (i < (x :: rest).length)) ∧
        (∀ (i : Nat) (y : Task), (x :: rest)[i]? = some y → (t.wave p).wid.get 0 i = y.number ∧ ∀ j < 16, t.vget p j i = y.args.getD j 0) ∧
        (t.core c).tasks = (s.core c).tasks.filter (fun y => !(x :: rest).contains y)) ∧
    (∀ j : Job, s.job? j.id = some j →
      (∀ c, s.waitsForCore j = true → j.repStarted = false → s.runCore j [j.corg] = some c → c ≠ j.corg ∧
        ∃ t, exec (.auditReplayStart j.id) s = .next t ∧ ((t.job? j.id).map (fun x => (x.repStarted, x.crep))) = some (true, c) ∧
          ∃ b ∈ t.blocks, b.run = .replay j.id ∧ b.core = c ∧ b.index = j.index) ∧
      (∀ c, s.waitsForCore j = true → j.repStarted = true → s.runCore j [j.corg, j.crep] = some c → c ≠ j.corg ∧ c ≠ j.crep ∧
        ∃ t, exec (.auditThirdRunStart j.id) s = .next t ∧ ((t.job? j.id).map (fun x => (x.thrStarted, x.cthr))) = some (true, c) ∧
          ∃ b ∈ t.blocks, b.run = .third j.id ∧ b.core = c ∧ b.index = j.index) ∧
      (s.waitsForCore j = true → 1750000000 ≤ (s.clock - j.closedAt).toNat → ∃ t, exec (.auditPlacementTimeout j.id) s = .next t ∧
        ((t.job? j.id).map (·.resolved)) = some true ∧ t.abr.get 0 7 = s.abr.get 0 7 + 1) ∧
      (j.resolved = false → j.opened = false → s.runsOver j.id true = true → j.repDone = true →
        let same : Prop := j.repEarly = false ∧ j.drep = j.dorig
        let cleared : Prop := j.thrEarly = false ∧ j.dthr = j.dorig
        let blamed : Prop := j.thrEarly = false ∧ j.repEarly = false ∧ j.dthr = j.drep
        same ∨ j.capture = true ∨ j.thrDone = true → ∃ t, exec (.auditVerdict j.id) s = .next t ∧
        ((t.job? j.id).map (·.resolved)) = some true ∧ (∀ k, t.elem k = s.elem k) ∧
        (let n := s.ringSize / 64
         let v := leNat (t.bytes (s.ringBase + 64 * (s.ringPos % n)) 64)
         (n = 0 → ∀ a, t.byte a = s.byte a) ∧
         (n ≠ 0 → s.ringBase + 64 * n ≤ memTop → j.cthr < 256 → j.crep < 256 → j.corg < 256 → t.ringPos = s.ringPos + 1 ∧
          bitsOf v 511 448 = j.dorig.toNat ∧ bitsOf v 447 384 = j.drep.toNat ∧ bitsOf v 383 320 = j.dthr.toNat ∧
          bitsOf v 319 256 = (blkOf j.hdr j.task j.index).toNat ∧ bitsOf v 255 224 = j.lid % 2 ^ 32 ∧ bitsOf v 223 216 = j.corg ∧
          bitsOf v 215 208 = j.crep ∧ bitsOf v 207 200 = j.cthr ∧
          (same → bitsOf v 199 192 = 0) ∧ (¬same → bitsOf v 199 192 = if j.capture = true then 3 else if cleared then 1 else if blamed then 2 else 3) ∧
          bitsOf v 191 176 = 0 ∧ bitsOf v 175 160 = j.flgr.toNat ∧ bitsOf v 159 128 = min j.bsatr 0xFFFFFFFF ∧
          bitsOf v 127 96 = min j.bnanr 0xFFFFFFFF ∧
          bitsOf v 95 64 = (if j.repEarly = true then j.divRep.toNat else if j.thrEarly = true then j.divThr.toNat else 0xFFFFFFFF) ∧
          bitsOf v 63 0 = s.clock.toNat)) ∧
        let raised : Nat → Nat → Prop := fun c n => (t.core c).score = min 65535 ((s.core c).score + n) ∧
          (t.core c).quar = ((s.core c).quar || decide (48 ≤ min 65535 ((s.core c).score + n)))
        let counted : Nat → Nat → Prop := fun m o => t.matched = s.matched + m ∧ t.outvoted = s.outvoted + o
        let kept : List Nat → Prop := fun cs => ∀ c, c ∉ cs → (t.core c).score = (s.core c).score ∧ (t.core c).quar = (s.core c).quar
        (j.capture = true → counted 0 0 ∧ ∀ c, t.core c = s.core c) ∧
        (j.capture = false → same → counted 1 0 ∧ kept [j.corg, j.crep]) ∧
        (j.capture = false → ¬same → cleared → counted 0 0 ∧ raised j.crep 8 ∧ kept [j.crep]) ∧
        (j.capture = false → ¬same → ¬cleared → blamed → counted 0 1 ∧ raised j.corg 8 ∧ kept [j.corg]) ∧
        (j.capture = false → ¬same → ¬cleared → ¬blamed → [j.corg, j.crep, j.cthr].Nodup →
          counted 0 0 ∧ (∀ c ∈ [j.corg, j.crep, j.cthr], raised c 2) ∧ kept [j.corg, j.crep, j.cthr])) ∧
      (∀ c, j.kept = true → j.resolved = true → c < 48 → (s.core c).enabled = true →
        (s.imageAt? j.hdr.img).isSome = true → (s.runRoom j c).isSome = true → ∃ t, exec (.captureReplay j.id c) s = .next t ∧
          ∃ b ∈ t.blocks, b.run = .capture s.nextId ∧ b.core = c ∧ b.index = j.index)) ∧
    (∀ (d a : Nat) (b : Block) (x : Job) (vs : List Word), s.ready [] [d, d + 1, a] → s.block? s.me.blk = some b → b.id = s.me.blk →
      s.cur ∈ b.parties.map (·.2) → s.job? x.id = some x → s.served? s.cur 8 0 (fun v => v.length == 2) = some vs → vs.getD 0 1 = 0 →
      s.freeRun (coreOf s.cur) (s.me.sget a).toNat = none →
      let off : State → Prop := fun t => (t.wave s.cur).status = .ended ∧ (t.block s.me.blk).ended = true ∧ ∀ k, t.elem k = s.elem k
      (b.run = .replay x.id → ∃ t, exec (.xalloc d a) s = .next t ∧ off t ∧ t.job? x.id = some { x with repStarted := false, crep := 0xFF }) ∧
      (b.run = .third x.id → ∃ t, exec (.xalloc d a) s = .next t ∧ off t ∧ t.job? x.id = some { x with thrStarted := false, cthr := 0xFF }) ∧
      (b.run = .capture x.id → x.resolved = false → ∃ t, exec (.xalloc d a) s = .next t ∧ off t ∧
        ((t.job? x.id).map (·.resolved)) = some true ∧ t.abr.get 0 7 = s.abr.get 0 7 + 1)) ∧
    (∀ (p kind : Nat) (src : DWord) (data : List Word) (j : Job), s.runOf p = .original → (s.block (s.wave p).blk).logging = true →
      s.job? (s.block (s.wave p).blk).job = some j → j.resolved = false → 65536 < 16 + (4 * data.length + 15) / 16 * 16 →
      let t := s.logIn p kind src data
      ((t.job? j.id).map (·.resolved)) = some true ∧ t.abr.get 0 3 = s.abr.get 0 3 + 1 ∧ (∀ q, t.wave q = s.wave q) ∧ ∀ k, t.elem k = s.elem k) ∧
    ∀ lid, ∃ t, exec (.keptLogFree lid) s = .next t ∧ (∀ j ∈ t.jobs, j.lid = lid → j.kept = false) ∧
      t.jobs.map (·.id) = s.jobs.map (·.id) ∧ (∀ p, t.wave p = s.wave p) ∧ ∀ a, t.byte a = s.byte a

/-! ### Host messages -/

/-- A host message brings its records, its advance or its idle declaration to the watermark unit when the source that ARG names belongs to its
module, and is answered 0xFFFD else. A host stop halts a resident launch with cause 0x0025, answer 0; a launch that is queued or
saved halts at once; one that has halted or ended, or is unknown, is answered 2 (R229, R231, R276, R322): what R276 does not say of a
launch that is not resident is the model's choice (log entry 63). -/
def Obligations.StreamAndStopMessages : Prop :=
  ∀ (s : State) (m : HostMsg),
    let st := m.arg.toNat % 64
    let src := m.arg.toNat / 256 % 16
    let mine : Prop := ((s.stream st).srcs.get {} src).kind = .host m.module
    let brought : Instr → UWork → Prop := fun i work =>
      (mine → ∃ t u, exec i s = .next t ∧ t.unitQ = s.unitQ ++ [u] ∧ u.work = work ∧ u.source = .host m ∧ s.sameStorage t ∧ t.sent = s.sent) ∧
      (¬mine → ∃ t, exec i s = .next t ∧ t.answers m 0xFFFD ∧ t.unitQ = s.unitQ ∧ s.sameStorage t)
    (s.hears m 4 8 4096 0x3F3F → m.len % 64 = 0 → 64 ≤ m.len →
      brought (.streamRecordsMessage m) (.records st src (payloadRecords (HostMsg.data m)) 0)) ∧
    (s.hears m 4 9 0 0x3F3F → brought (.streamAdvanceMessage m) (.advance st src m.addr)) ∧
    (s.hears m 4 10 0 0x3F3F → brought (.streamIdleMessage m) (.idle st src)) ∧
    (s.hears m 5 5 0 0xFFFFFFFF → let lid := m.arg.toNat
      let stopped : State → Prop := fun t => ((t.launch lid).halt.map (fun h => (h.cause, h.detail))) = some (0x25, 0)
      (s.launch? lid = none → ∃ t, exec (.hostStop m) s = .next t ∧ t.answers m 2 ∧ s.sameStorage t) ∧
      ∀ l, s.launch? lid = some l →
        (l.prog = .halted ∨ l.prog = .ended → ∃ t, exec (.hostStop m) s = .next t ∧ t.answers m 2 ∧ s.sameStorage t) ∧
        (l.prog = .resident → l.halt = none → ∃ t, exec (.hostStop m) s = .next t ∧ t.answers m 0 ∧ stopped t ∧ (t.launch lid).prog = .halting) ∧
        (l.prog = .queued ∨ l.prog = .saved → l.halt = none → ∃ t, exec (.hostStop m) s = .next t ∧ t.answers m 0 ∧ stopped t ∧
          (t.launch lid).prog = .halted ∧ ∀ x ∈ t.saved, x.lid ≠ lid))

/-- A debug message to a launch without debug is answered 1. Stop asks the named waves to stop at their clause boundary, release lets them go
on, and gives up a whole halted context; step lets one instruction of a stopped wave issue. Read answers a row with its metadata word, or a
stopped wave's words; write changes the masked elements of a row that nothing holds, waits as a forced write on one that is pending,
or sets a stopped wave's registers, unless md is reserved; a forced write that is due comes before a read. Access to a reserved
row halts the context with cause 0x0014 and is answered 2 (R37; log entry 136: the named context, the model's choice) (R47, R60, R87, R118, R207, R281,
R290, R322; layouts: log entry 44; the answer to a queued forced write: 91). -/
def Obligations.DebugMessages : Prop :=
  ∀ (s : State) (m : HostMsg) (l : Launch),
    let a := debugArg m
    let w := s.wave a.party
    let mask := leNat ((HostMsg.data m).take 4)
    let ws := wordsOf (HostMsg.data m)
    let heard : Nat → Nat → Prop := fun sub limit => s.hears m 5 sub limit 0x1FFFFFFFFFFFF
    let named : Nat → Prop := fun p => (s.wave p).lid = a.lid ∧ (s.wave p).status = .running ∧ (a.whole = false → p = a.party)
    let one : Prop := a.whole = false ∧ a.core < 48 ∧ w.lid = a.lid ∧ w.status = .running
    let held : Prop := a.whole = false ∧ a.core < 48 ∧ w.lid = a.lid ∧ (w.status = .halted ∨ w.status = .running ∧ w.debug = true)
    let bytes : List Word → List Byte := fun l => l.flatMap (fun x => leBytes 4 x.toNat)
    s.launch? a.lid = some l → l.prog ≠ .ended →
    (∀ x ∈ [(0, 0, Instr.debugStop m), (1, 0, .debugRelease m), (2, 0, .debugStep m), (3, 0, .debugReadState m), (4, 4096, .debugWriteState m)],
      heard x.1 x.2.1 → l.hdr.dbg = false → ∃ t, exec x.2.2 s = .next t ∧ t.answers m 1 ∧ s.sameStorage t ∧ ∀ p, t.wave p = s.wave p) ∧
    (l.hdr.dbg = true →
      (heard 0 0 → (a.whole = true ∨ one) → ∃ t, exec (.debugStop m) s = .next t ∧ t.answers m 0 ∧ s.sameStorage t ∧
        ∀ p, named p → (s.wave p).debug = false → t.wave p = { s.wave p with stopReq := true }) ∧
      (heard 1 0 → (a.whole = true ∧ l.prog ≠ .halted ∨ one) → ∃ t, exec (.debugRelease m) s = .next t ∧ t.answers m 0 ∧ s.sameStorage t ∧
        ∀ p, named p → (s.wave p).debug = true →
          t.wave p = { s.wave p with debug := false, stopReq := false, stepReq := false, reasons := 0, readySince := s.clock }) ∧
      (heard 1 0 → a.whole = true → l.prog = .halted → ∃ t, exec (.debugRelease m) s = .next t ∧ t.answers m 0 ∧
        ∀ p, (t.wave p).status ≠ .absent → (t.wave p).lid ≠ a.lid) ∧
      (heard 2 0 → one → w.debug = true → ∃ t, exec (.debugStep m) s = .next t ∧ t.answers m 0 ∧ s.sameStorage t ∧
        t.wave a.party = { w with stepReq := true } ∧ ∀ p, p ≠ a.party → t.wave p = s.wave p) ∧
      (heard 3 0 → held → bitOf m.addr.toNat 32 = true → ∃ t, exec (.debugReadState m) s = .next t ∧
        t.answers m 0 (bytes (s.waveWords a.party)) ∧ s.sameStorage t) ∧
      (heard 4 4096 → held → bitOf m.addr.toNat 32 = true → m.len = 396 →
        (mdLegal ((ws.getD 63 0).setWidth 16) = false → ∃ t, exec (.debugWriteState m) s = .next t ∧ t.answers m Config.badModeStatus.toNat ∧
          s.sameStorage t ∧ ∀ p, t.wave p = s.wave p) ∧
        (mdLegal ((ws.getD 63 0).setWidth 16) = true → let v := (s.putWaveWords a.party ws).wave a.party
          v.present ≠ 0 → ∃ t, exec (.debugWriteState m) s = .next t ∧ t.answers m 0 ∧ t.wave a.party = v ∧ s.sameStorage t ∧
            (∀ r < 60, v.sget r = ws.getD r 0) ∧ v.md = (ws.getD 63 0).setWidth 16 ∧ v.pc = ws.getD 71 0 ++ ws.getD 70 0)) ∧
      (heard 3 0 ∨ heard 4 4096 → l.prog = .resident → l.halt = none → l.replay = none → a.whole = false → a.core < 48 → bitOf m.addr.toNat 32 = false →
        197376 ≤ m.addr.toNat % 2 ^ 32 →
        let stops : Instr → Prop := fun i => ∃ t, exec i s = .next t ∧ t.answers m 2 ∧ (t.launch a.lid).prog = .halting ∧
          ((t.launch a.lid).halt.map (fun h => (h.cause, h.detail))) = some (0x14, 0) ∧ (∀ k, t.elem k = s.elem k) ∧
          ((∀ b ∈ s.blocks, b.logging = false) → ∀ y, t.byte y = s.byte y)
        (heard 3 0 → stops (.debugReadState m)) ∧ (heard 4 4096 → m.len = 132 → stops (.debugWriteState m))) ∧
      ∀ row, debugRow m a = some row → a.whole = false →
        let c := row / rowsPerCore
        let due : Prop := (s.info row).pnd = false ∧ ∃ f ∈ (s.core c).forced, f.row = row % rowsPerCore
        (heard 3 0 → (¬due → ∃ t, exec (.debugReadState m) s = .next t ∧ s.sameStorage t ∧
            t.answers m (if (s.info row).pnd || s.bayHeld row then Config.pendingStatus.toNat else 0)
              (bytes (s.rowWords row) ++ leBytes 4 (s.metaWord row))) ∧
          (due → ∀ f, (s.core c).forced.filter (fun x => x.row == row % rowsPerCore) = [f] → ∃ t, exec (.debugReadState m) s = .next t ∧
            (∀ e < 32, t.elem (elemKey row e) = if f.mask.getLsbD e then f.words.getD e 0 else s.elem (elemKey row e)) ∧
            (∀ x ∈ (t.core c).forced, x.row ≠ row % rowsPerCore) ∧ (∀ y, t.byte y = s.byte y) ∧
            t.answers m (if s.bayHeld row then Config.pendingStatus.toNat else 0) (bytes (t.rowWords row) ++ leBytes 4 (t.metaWord row)))) ∧
        (heard 4 4096 → m.len = 132 →
          (s.bayHeld row = true → ¬due → ∃ t, exec (.debugWriteState m) s = .next t ∧ t.answers m Config.busyStatus.toNat ∧ s.sameStorage t) ∧
          (s.bayHeld row = false → (s.info row).pnd = true →
            let room : Prop := bitOf m.addr.toNat 33 = true ∧ (s.core c).forced.length < 8
            (room → ∃ t f, exec (.debugWriteState m) s = .next t ∧ t.answers m 0 ∧ s.sameStorage t ∧ (t.core c).forced = (s.core c).forced ++ [f] ∧
              f.row = row % rowsPerCore ∧ f.mask = BitVec.ofNat 32 mask ∧ f.words = wordsOf ((HostMsg.data m).drop 4)) ∧
            (¬room → ∃ t, exec (.debugWriteState m) s = .next t ∧ t.answers m Config.busyStatus.toNat ∧ s.sameStorage t)) ∧
          (s.bayHeld row = false → s.rowHeld row = false → ∃ t, exec (.debugWriteState m) s = .next t ∧ t.answers m 0 ∧
            (∀ e < 32, t.elem (elemKey row e) = if (BitVec.ofNat 32 mask).getLsbD e then (wordsOf ((HostMsg.data m).drop 4)).getD e 0
              else s.elem (elemKey row e)) ∧
            (∀ k, (∀ e < 32, k ≠ elemKey row e) → t.elem k = s.elem k) ∧ ∀ y, t.byte y = s.byte y)))

/-- Direct memory: 8-byte aligned ranges of device memory are read and written, code pages refused with 2; status 3 for alignment, 1 for range.
A block of the control window is written whole and takes effect: a stream table entry opens its stream, an invalidation leaves no entry for
its page in any buffer, first level or second, the quarantine mask clears quarantines with their scores; a field out of range is refused with
3 and nothing changes; the audit counters are read. An attestation answers a report of 448 bytes and its signature. An address of a context
without a hit in either buffer is walked through five levels of tables in memory: no root or an entry that is not valid is a miss, a malformed
one halts with 0x0018, and a leaf gives the address, unless it lacks a permission or the write is to a locked code page: 0x0017 (R64, R225,
R229, R279, R280, R301, R302, R322 to R324, R327). The model's choices: the layouts (log entry 20), the seed and form of the signature (15), a
read of poisoned memory that answers its bytes (64). -/
def Obligations.MemoryMessages : Prop :=
  ∀ (s : State) (m : HostMsg),
    let a := m.addr.toNat
    (∀ n, (s.hears m 6 0 4096 0 ∧ n = m.len → 
        (a % 8 ≠ 0 ∨ n % 8 ≠ 0 → exec (.directMemoryRead m) s = .next (s.reply m 3)) ∧
        (a % 8 = 0 → n % 8 = 0 → memTop < a + n → exec (.directMemoryRead m) s = .next (s.reply m 1)) ∧
        (a % 8 = 0 → n % 8 = 0 → a + n ≤ memTop → ∃ t, exec (.directMemoryRead m) s = .next t ∧ t.answers m 0 (s.bytes a n) ∧ s.sameStorage t)) ∧
      (s.hears m 6 1 4096 0 ∧ n = m.len →
        (a % 8 ≠ 0 ∨ n % 8 ≠ 0 → exec (.directMemoryWrite m) s = .next (s.reply m 3)) ∧
        (a % 8 = 0 → n % 8 = 0 → memTop < a + n → exec (.directMemoryWrite m) s = .next (s.reply m 1)) ∧
        (a % 8 = 0 → n % 8 = 0 → a + n ≤ memTop → s.codeLocked a n = true → exec (.directMemoryWrite m) s = .next (s.reply m 2)) ∧
        (a % 8 = 0 → n % 8 = 0 → a + n ≤ memTop → s.codeLocked a n = false → ∃ t, exec (.directMemoryWrite m) s = .next t ∧ t.answers m 0 ∧
          (∀ i < n, t.byte (a + i) = (HostMsg.data m).getD i 0) ∧ (∀ y, y < a ∨ a + n ≤ y → t.byte y = s.byte y) ∧ ∀ k, t.elem k = s.elem k))) ∧
    (∀ b ∈ windowBlocks, s.hears m 6 2 4096 0 → a % 8 = 0 → m.len % 8 = 0 → b.1 ≤ a → a + m.len ≤ b.1 + b.2.1 * b.2.2 →
      ∃ t, exec (.controlWindowRead m) s = .next t ∧ s.sameStorage t ∧ t.answers m 0 ((List.range m.len).map (fun i => s.window.get 0 (a + i)))) ∧
    (s.hears m 6 2 4096 0 → a = 0x21040 → m.len = 80 → ∃ t, exec (.controlWindowRead m) s = .next t ∧ s.sameStorage t ∧
      t.answers m 0 (((List.range 7).map (fun i => s.abr.get 0 (i + 1)) ++ [s.selected, s.matched, s.outvoted]).flatMap (leBytes 8))) ∧
    (∀ i ∈ [Instr.controlWindowWrite m, .streamTableWrite m, .tlbInvalidation m, .quarantineClear m], ∀ region n size,
      s.hears m 6 3 4096 0 → windowBlock? a = some (region, n, a, size) → m.len = size → let data := HostMsg.data m
      (windowOk region data = false → exec i s = .next (s.reply m 3)) ∧
      (windowOk region data = true → ∃ t, exec i s = .next t ∧ t.answers m 0 ∧ s.sameStorage t ∧
        (∀ j < size, t.window.get 0 (a + j) = data.getD j 0) ∧ (∀ j, j < a ∨ a + size ≤ j → t.window.get 0 j = s.window.get 0 j) ∧
        (region = 0 → (t.stream n).w = 0 ∧ ∀ x < 16, let o : Source := (t.stream n).srcs.get {} x
          o.kind = (sourceKindOf data x).getD .none ∧ o.ws = 0 ∧ o.idle = false) ∧
        (region = 0x11000 → ∀ c, ∀ e ∈ (t.core c).tlb ++ t.tlb2.get [] c, let bits := max (fieldAt data 4 4) e.bits
          ¬(e.ctx = fieldAt data 0 4 ∧ e.va / 2 ^ bits = fieldAt data 8 8 / 2 ^ bits)) ∧
        (region = 0x22000 → ∀ c < 48, bitOf (fieldAt data 0 8) c = true → (t.core c).quar = false ∧
          ((s.core c).quar = true → (t.core c).score = 0)))) ∧
    (s.hears m 6 4 32 0 → m.len = 32 → let r := attested s (HostMsg.data m)
      r.length = 448 ∧ ∃ t, exec (.attestation m) s = .next t ∧ t.answers m 0 (r ++ leBytes 64 (Ed25519.sign (Config.identitySeed s.running.svn) r).toNat) ∧
        s.sameStorage t) ∧
    ∀ (c ctx va : Nat) (need : Need),
      let root := leNat ((List.range 8).map (fun i => s.window.get 0 (0x10000 + 16 * ctx + i)))
      let index : Nat → Nat := fun l => if l = 0 then va / 65536 % 32 else va / 2 ^ (12 + 9 * l) % 512
      let entry : Nat → Nat → Nat := fun l table => leNat (s.bytes (table + 8 * index l) 8)
      let page : Nat → Nat := fun l => if l = 2 then 2 ^ 30 else if l = 1 then 2 ^ 21 else 65536
      let addr : Nat → Nat := fun e => e / 256 % 2 ^ 31 * 256
      let stray : Nat → Prop := fun e => e / 2 ^ 39 ≠ 0 ∨ e / 32 % 8 ≠ 0 ∨ memTop ≤ addr e
      let points : Nat → Nat → Nat → Prop := fun l table next => let e := entry l table
        l ≠ 0 ∧ bitOf e 0 = true ∧ bitOf e 1 = false ∧ ¬stray e ∧ addr e = next ∧ next % (if l = 1 then 256 else 4096) = 0
      let malformed : Nat → Nat → Prop := fun l table => let e := entry l table
        bitOf e 0 = true ∧ (stray e ∨ (bitOf e 1 = true ∧ (3 ≤ l ∨ addr e % page l ≠ 0)) ∨
          (bitOf e 1 = false ∧ (l = 0 ∨ addr e % (if l = 1 then 256 else 4096) ≠ 0)))
      let allowed : TlbEntry → Tr := fun e => let pa := e.pa + va % 2 ^ e.bits
        if need.rd = true ∧ e.rd = false then .bad 0x17 0
        else if need.wr = true ∧ (e.wr = false ∨ s.codeLocked pa 1 = true) then .bad 0x17 1
        else if need.ex = true ∧ e.ex = false then .bad 0x17 2 else .pa pa
      (root = 0 → s.translate c ctx va need = (.miss, s)) ∧
      (root ≠ 0 → ∀ e, State.hitIn (s.core c).tlb ctx va = some e → s.translate c ctx va need = (allowed e, s)) ∧
      (root ≠ 0 → State.hitIn (s.core c).tlb ctx va = none → State.hitIn (s.tlb2.get [] (dieOf c)) ctx va = none →
        ∀ (table : Nat → Nat) (l : Nat), l ≤ 4 → table 4 = root → (∀ j, l < j → j ≤ 4 → points j (table j) (table (j - 1))) →
        let e := entry l (table l)
        (bitOf e 0 = false → s.translate c ctx va need = (.miss, s)) ∧
        (malformed l (table l) → s.translate c ctx va need = (.bad 0x18 1, s)) ∧
        (bitOf e 0 = true → ¬malformed l (table l) → bitOf e 1 = true →
          let x : TlbEntry := { ctx := ctx, va := va / page l * page l, bits := if l = 2 then 30 else if l = 1 then 21 else 16, pa := addr e,
                                ex := bitOf e 4, wr := bitOf e 3, rd := bitOf e 2 }
          (s.translate c ctx va need).1 = allowed x ∧ ((s.translate c ctx va need).2.core c).tlb.head? = some x))

/-! ### Links, power, the loader, errors -/

/-- A module that goes down loses the arrivals on it; a module that trains down keeps 32 lanes; a port goes down. Power-good starts CLOCK and boots the primary
image as the flash holds it by then, if it is accepted, else the backup, else waits for an image, which the host hands over in parts; device memory, registers and
waves are then zero, the configuration is applied, and the islands of fused-off cores are off and stay off. An island leaves Run when nothing of a context is on it, and may enter it with one resident (log entry 100); a throttle changes no result; a thermal shutdown removes power (R12, R121, R302, R320, R325, R326, R327, R328, R329). The
model's choices: that entry, what the host has written to the flash is a free value (log entry 112), the message that hands an image over (57), the
numbers of the islands (67). -/
def Obligations.LinksAndPower : Prop :=
  ∀ (s : State) (n : Nat),
    let blank : State → Prop := fun t => (∀ a, t.byte a = 0) ∧ (∀ k, t.elem k = 0) ∧ (∀ p, t.wave p = {}) ∧ t.launches = [] ∧ t.blocks = []
    (∃ t, exec (.ucieModuleDown n) s = .next t ∧ (t.modules.get {} n).up = false ∧ (∀ x, x ≠ n → t.modules.get {} x = s.modules.get {} x) ∧
      (∀ i ∈ t.inputs, moduleOf i ≠ some n) ∧ s.sameStorage t ∧ ∀ p, t.wave p = s.wave p) ∧
    (∃ t, exec (.ucieLaneTrainDown n) s = .next t ∧ (t.modules.get {} n).lanes = 32 ∧ (t.modules.get {} n).up = (s.modules.get {} n).up ∧
      (∀ x, x ≠ n → t.modules.get {} x = s.modules.get {} x) ∧ s.sameStorage t ∧ ∀ p, t.wave p = s.wave p) ∧
    (∃ t, exec (.portLinkDown n) s = .next t ∧ (t.ports.get {} n).up = false ∧ (∀ x, x ≠ n → t.ports.get {} x = s.ports.get {} x) ∧
      s.sameStorage t ∧ ∀ p, t.wave p = s.wave p) ∧
    (let held : Bool → Firmware → Firmware := fun backup old => match Config.flashed s.tick backup with
        | some f => { bytes := f.1, svn := f.2.1, sig := f.2.2 }
        | none => old
      let first := held false s.primary
      let second := held true s.backup
      ∃ t, exec .powerGood s = .next t ∧ blank t ∧ t.clock = 0 ∧ t.primary = first ∧ t.backup = second ∧
      (∀ c < 48, (t.core c).enabled = (s.core c).enabled ∧ (t.core c).quar = (s.core c).quar ∧ (t.core c).score = (s.core c).score ∧
        t.islands.get .run c = if (s.core c).enabled then .run else .off) ∧
      (State.accepts first = true → t.boot = .answering ∧ t.running = first ∧ t.applied = s.config) ∧
      (State.accepts first = false → State.accepts second = true → t.boot = .answering ∧ t.running = second ∧ t.applied = s.config) ∧
      (State.accepts first = false → State.accepts second = false → t.boot = .waiting)) ∧
    (∀ m : HostMsg, s.boot = .waiting → (s.modules.get {} m.module).up = true → m.module < 4 → m.typ = 5 → m.sub = 4 → m.rsv = false →
      m.stat = 0 →
      (m.len ≠ 0 → m.len ≤ 4096 → ∃ t, exec (.debugWriteState m) s = .next t ∧ t.answers m 0 ∧
        t.staged = s.staged.take m.addr.toNat ++ HostMsg.data m) ∧
      (m.len = 0 → let f : Firmware := { sig := BitVec.ofNat 512 (leNat (s.staged.take 64)), svn := leNat ((s.staged.drop 64).take 8), bytes := s.staged.drop 72 }
        (State.accepts f = true → ∃ t, exec (.debugWriteState m) s = .next t ∧ t.answers m 0 ∧ t.boot = .answering ∧ t.running = f ∧ t.applied = s.config ∧
          blank t) ∧
        (State.accepts f = false → ∃ t, exec (.debugWriteState m) s = .next t ∧ t.answers m 0xFFFE ∧ t.boot = .waiting))) ∧
    (∀ st : Island, n < 56 → (48 ≤ n ∨ (s.core n).enabled = true ∨ st = .off) → (st = .run ∨ (n < 48 ∧ s.occupied n = false) ∨ (48 ≤ n ∧ ∀ c < 48, dieOf c = (n - 48) % 4 → s.islands.get .run c ≠ .run)) →
      ∃ t, exec (.islandStateChange n st) s = .next t ∧ t.islands.get .run n = st ∧ (∀ x, x ≠ n → t.islands.get .run x = s.islands.get .run x) ∧
        s.sameStorage t ∧ ∀ p, t.wave p = s.wave p) ∧
    (∃ t, exec (.thermalThrottleStart n) s = .next t ∧ t.throttled.get false n = true ∧ s.sameStorage t ∧ ∀ p, t.wave p = s.wave p) ∧
    (∃ t, exec (.thermalThrottleEnd n) s = .next t ∧ t.throttled.get false n = false ∧ s.sameStorage t ∧ ∀ p, t.wave p = s.wave p) ∧
    ∃ t, exec .thermalShutdown s = .next t ∧ blank t ∧ t.boot = .removed ∧ ∀ x < 4, (t.modules.get {} x).up = false

/-- The loader refuses, with a status and no effect, an image that is malformed (0x14: log entry 56), that declares a budget above 256 (0x11),
whose instructions name a register at or above the budget of a role that reaches them, or above every budget where none does (0x12), or that
lacks a PPT's record or has a reserved bit in one (0x13); another image's text and data go to memory, its code pages are mapped read and
execute only and locked, and it is registered; an unloaded image is loaded no more. Copy traffic of another package writes device memory, but no code page. An uncorrectable error poisons its unit or element
and changes no value (R28, R50, R64, R104, R287, R316, R317, R324). What an entry reaches, the largest budget for what none reaches, and the
dropped traffic to a code page are the model's choices (log entries 71, 66). -/
def Obligations.LoaderAndErrors : Prop :=
  ∀ (s : State),
    (∀ ld : ImageLoad, loadable s ld = true →
      ((partsOf ld.bytes).bind (fun p => relocateAll ld p p.relocs) = none → exec (.kernelImageLoad ld) s = .next { s with loadStatus := 0x14 }) ∧
      ∀ p, (partsOf ld.bytes).bind (fun p => relocateAll ld p p.relocs) = some p →
        let native := decide (p.stepping = 0xA1) && !p.interlocked
        let st := loadStatusOf p native
        let text := textWords p.text
        let leads : Nat → Nat → Prop := fun i j => ∃ c, clauseAt text native i = some c ∧ j ∈ followers i c
        let reached : Role → Nat → Prop := fun r i => Relation.ReflTransGen leads (r.entry / 4) i ∨
          (p.trapv ≠ 0xFFFFFFFF ∧ Relation.ReflTransGen leads (p.trapv / 4) i)
        let met : Nat → Prop := fun i => i ∈ scan text native (text.length + 1) 0
        let holds : Nat → Instr → Prop := fun i x => ∃ c, clauseAt text native i = some c ∧ x ∈ c.2.map (·.2)
        let beyond : Nat → Instr → Prop := fun budget x => ∃ v ∈ vecsOf x, budget ≤ v ∧ v < 240
        let rows : List (Nat × Prop) := [
          (0x11, ∃ r ∈ p.roles, 256 < r.budget),
          (0x12, (∃ r ∈ p.roles, ∃ i x, reached r i ∧ holds i x ∧ beyond r.budget x) ∨
            ∃ i x, met i ∧ (∀ r ∈ p.roles, ¬reached r i) ∧ holds i x ∧ ∀ r ∈ p.roles, beyond r.budget x),
          (0x13, (∃ i n, (met i ∨ ∃ r ∈ p.roles, reached r i) ∧ holds i (.ppt n) ∧ p.live.length ≤ n) ∨ ∃ v ∈ p.live, bitsOf v 511 384 ≠ 0)]
        (p.roles ≠ [] → (∀ y ∈ rows, y.2 → 0 < st ∧ st ≤ y.1) ∧ (st = 0 ∨ ∃ y ∈ rows, st = y.1 ∧ y.2)) ∧
        (st ≠ 0 → exec (.kernelImageLoad ld) s = .next { s with loadStatus := st }) ∧
        (st = 0 → ld.textPa + p.text.length ≤ min memTop ld.dataPa ∨ ld.textPa + p.text.length ≤ memTop ∧ ld.dataPa + p.data.length ≤ ld.textPa →
          ld.dataPa + p.data.length ≤ memTop → (∀ a ∈ ld.leaves, (a + 8 ≤ ld.textPa ∨ ld.textPa + p.text.length ≤ a) ∧
            (a + 8 ≤ ld.dataPa ∨ ld.dataPa + p.data.length ≤ a)) → ld.leaves.Nodup →
          ∃ t i, exec (.kernelImageLoad ld) s = .next t ∧ t.loadStatus = 0 ∧ t.images = s.images ++ [i] ∧ i.id = ld.image ∧ i.base = ld.textVa ∧
            i.loaded = true ∧ i.roles = p.roles ∧ (p.text ≠ [] → t.codeLocked ld.textPa p.text.length = true) ∧
            (∀ j < p.text.length, t.byte (ld.textPa + j) = p.text.getD j 0) ∧ (∀ j < p.data.length, t.byte (ld.dataPa + j) = p.data.getD j 0) ∧
            (∀ y, (y < ld.textPa ∨ ld.textPa + p.text.length ≤ y) → (y < ld.dataPa ∨ ld.dataPa + p.data.length ≤ y) →
              (∀ a ∈ ld.leaves, y < a ∨ a + 8 ≤ y) → t.byte y = s.byte y) ∧
            (∀ (j a : Nat), ld.leaves[j]? = some a → let e := leNat (t.bytes a 8)
              bitsOf e 38 8 * 256 = (ld.textPa / ld.pageSize + j) * ld.pageSize ∧ bitsOf e 7 0 = 0x17 ∧ bitsOf e 63 39 = 0) ∧
            (∀ k, t.elem k = s.elem k) ∧ ∀ x, t.wave x = s.wave x)) ∧
    (∀ (image : Nat) (i : Image), s.images.find? (fun x => x.id == image && x.loaded) = some i →
      ∃ t, exec (.kernelImageUnload image) s = .next t ∧ (∀ x ∈ t.images, x.id = image → x.loaded = false) ∧
        t.images.map (·.id) = s.images.map (·.id)) ∧
    (∀ port write pa data, let n := data.length
      let taken : Prop := write = true ∧ (s.ports.get {} port).up = true ∧ pa + n ≤ memTop ∧ s.codeLocked pa n = false
      (¬taken → exec (.scaleOutCopyTraffic port write pa data) s = .next s) ∧
      (taken → ∃ t, exec (.scaleOutCopyTraffic port write pa data) s = .next t ∧ (∀ j < n, t.byte (pa + j) = data.getD j 0) ∧
        (∀ y, y < pa ∨ pa + n ≤ y → t.byte y = s.byte y) ∧ (∀ k, t.elem k = s.elem k) ∧ ∀ x, t.wave x = s.wave x)) ∧
    (∀ pa, ∃ t, exec (.uncorrectableError (.unit pa)) s = .next t ∧ t.loadPoison pa 1 = true ∧ (∀ k, t.elem k = s.elem k) ∧
      (∀ k, t.poisoned k = s.poisoned k) ∧ ∀ a, t.byte a = s.byte a) ∧
    ∀ c r e, ∃ t, exec (.uncorrectableError (.element c r e)) s = .next t ∧ (∀ k, t.elem k = s.elem k) ∧ (∀ a, t.byte a = s.byte a) ∧
      ∀ k, t.poisoned k = if k = elemKey (rowKey c r) e then true else s.poisoned k

/-! ### The whole machine -/

/-- Every step keeps device memory, the register elements, poison and row metadata in their canonical forms, and lists no byte of device
memory at an address that the package does not have (R36, R44, R50, R324). -/
def Obligations.StepKeepsCanonical : Prop :=
  ∀ s t : State, s.canonical = true → s.memInside = true → step s = .next t → t.canonical = true ∧ t.memInside = true

/-- Right after reset no wave is resident and no launch accepted, power-good is still to come, every register element and every byte
of memory reads as 0, no row is pending, and memory has its canonical form (R25, R41, R326; the zeros of memory and of registers that no
wave's start has written: log entry 4). -/
def Obligations.ResetState : Prop :=
  let s := State.reset
  s.boot = .off ∧ s.launches = [] ∧ s.blocks = [] ∧ s.ops = [] ∧ s.clock = 0 ∧ s.canonical = true ∧ s.memInside = true ∧
  (∀ p, (s.wave p).status = .absent ∧ (s.wave p).md = 2) ∧ (∀ k, s.elem k = 0) ∧ (∀ k, s.poisoned k = false) ∧ (∀ a, s.byte a = 0) ∧
  ∀ r, (s.info r).pnd = false

end
end

