-- ==== Sys2Proof/Laws/SMap.lean ====
section
/-! SUPPORT. Laws of the sparse map: reading after writing, the canonical form of every operation, equality by reading. -/

namespace Sys2Proof.SMap

variable {α : Type}

theorem get_ins_same (d : α) (k : Nat) (v : α) (m : SMap α) (h : ∀ e ∈ m, e.1 ≠ k) : get d (ins k v m) k = v := by
  induction m with
  | nil => simp [ins, get]
  | cons e t ih =>
    obtain ⟨k', v'⟩ := e
    have hk : k' ≠ k := h (k', v') (by simp)
    simp only [ins]
    split
    · simp [get]
    · simpa [get, hk] using ih (fun e he => h e (by simp [he]))

theorem get_ins_other (d : α) {k j : Nat} (v : α) (m : SMap α) (h : j ≠ k) : get d (ins k v m) j = get d m j := by
  induction m with
  | nil => simp [ins, get, h.symm]
  | cons e t ih =>
    obtain ⟨k', v'⟩ := e
    simp only [ins]
    split
    · simp [get, h.symm]
    · simp [get, ih]

theorem get_of_absent (d : α) (m : SMap α) (k : Nat) (h : ∀ e ∈ m, e.1 ≠ k) : get d m k = d := by
  induction m with
  | nil => rfl
  | cons e t ih =>
    obtain ⟨k', v'⟩ := e
    have hk : k' ≠ k := h (k', v') (by simp)
    simpa [get, hk] using ih (fun e he => h e (by simp [he]))

theorem absent_erase (m : SMap α) (k : Nat) : ∀ e ∈ erase m k, e.1 ≠ k := by
  intro e he
  simpa [erase] using (List.mem_filter.mp he).2

theorem get_filter (d : α) (m : SMap α) (f : Nat → Bool) (k : Nat) :
    get d (m.filter (fun e => f e.1)) k = if f k then get d m k else d := by
  induction m with
  | nil => simp [get]
  | cons e t ih =>
    obtain ⟨k', v'⟩ := e
    by_cases hf : f k' = true <;> by_cases hk : k' = k <;> simp_all [get]

theorem get_erase_other (d : α) (m : SMap α) {k j : Nat} (h : j ≠ k) : get d (erase m k) j = get d m j := by
  simpa [erase, h] using get_filter d m (fun i => i != k) j

/-- The key just written reads as the value written. -/
@[simp] theorem get_set_same [DecidableEq α] (d : α) (m : SMap α) (k : Nat) (v : α) : get d (set d m k v) k = v := by
  unfold set
  split
  · next h => rw [h]; exact get_of_absent d _ k (absent_erase m k)
  · exact get_ins_same d k v _ (absent_erase m k)

/-- Every other key reads as before. -/
theorem get_set_other [DecidableEq α] (d : α) (m : SMap α) {k j : Nat} (v : α) (h : j ≠ k) :
    get d (set d m k v) j = get d m j := by
  unfold set
  split
  · exact get_erase_other d m h
  · rw [get_ins_other d v _ h, get_erase_other d m h]

theorem get_set [DecidableEq α] (d : α) (m : SMap α) (k j : Nat) (v : α) :
    get d (set d m k v) j = if j = k then v else get d m j := by
  split
  · next h => rw [h, get_set_same]
  · next h => exact get_set_other d m v h

/-- A cleared range reads as the default; every other key as before. -/
theorem get_clearRange (d : α) (m : SMap α) (lo n k : Nat) :
    get d (clearRange m lo n) k = if lo ≤ k ∧ k < lo + n then d else get d m k := by
  have h := get_filter d m (fun i => !(decide (lo ≤ i) && decide (i < lo + n))) k
  unfold clearRange
  rw [h]
  by_cases h1 : lo ≤ k <;> by_cases h2 : k < lo + n <;> simp [h1, h2]

/-! ### The canonical form -/

theorem rising_iff (m : SMap α) : rising m = true ↔ m.Pairwise (fun a b => a.1 < b.1) := by
  induction m with
  | nil => simp [rising]
  | cons a t ih =>
    cases t with
    | nil => simp [rising]
    | cons b u =>
      obtain ⟨ka, va⟩ := a
      obtain ⟨kb, vb⟩ := b
      simp only [rising, Bool.and_eq_true, decide_eq_true_eq, ih]
      constructor
      · rintro ⟨h1, h2⟩
        refine List.pairwise_cons.mpr ⟨?_, h2⟩
        intro e he
        rcases List.mem_cons.mp he with rfl | he
        · exact h1
        · exact Nat.lt_trans h1 ((List.pairwise_cons.mp h2).1 e he)
      · intro h
        exact ⟨(List.pairwise_cons.mp h).1 (kb, vb) (by simp), (List.pairwise_cons.mp h).2⟩

/-- The canonical form as lists: keys strictly rising, no default. -/
theorem wf_iff [DecidableEq α] (d : α) (m : SMap α) :
    wf d m = true ↔ m.Pairwise (fun a b => a.1 < b.1) ∧ ∀ e ∈ m, e.2 ≠ d := by simp [wf, rising_iff]

@[simp] theorem wf_nil [DecidableEq α] (d : α) : wf d ([] : SMap α) = true := rfl

theorem wf_filter [DecidableEq α] (d : α) (m : SMap α) (f : Nat × α → Bool) (h : wf d m = true) : wf d (m.filter f) = true := by
  rw [wf_iff] at *
  exact ⟨h.1.filter f, fun e he => h.2 e (List.mem_filter.mp he).1⟩

theorem wf_erase [DecidableEq α] (d : α) (m : SMap α) (k : Nat) (h : wf d m = true) : wf d (erase m k) = true := wf_filter d m _ h

theorem wf_clearRange [DecidableEq α] (d : α) (m : SMap α) (lo n : Nat) (h : wf d m = true) : wf d (clearRange m lo n) = true :=
  wf_filter d m _ h

theorem mem_ins (k : Nat) (v : α) (m : SMap α) (e : Nat × α) : e ∈ ins k v m ↔ e = (k, v) ∨ e ∈ m := by
  induction m with
  | nil => simp [ins]
  | cons a t ih =>
    obtain ⟨k', v'⟩ := a
    simp only [ins]
    split
    · simp
    · simp only [List.mem_cons, ih]; tauto

theorem wf_ins [DecidableEq α] (d : α) (k : Nat) (v : α) (m : SMap α) (h : wf d m = true) (ha : ∀ e ∈ m, e.1 ≠ k) (hv : v ≠ d) :
    wf d (ins k v m) = true := by
  rw [wf_iff] at *
  refine ⟨?_, fun e he => ?_⟩
  · obtain ⟨hp, -⟩ := h
    induction m with
    | nil => simp [ins]
    | cons a t ih =>
      obtain ⟨k', v'⟩ := a
      have hk : k' ≠ k := ha (k', v') (by simp)
      have ⟨hp1, hp2⟩ := List.pairwise_cons.mp hp
      simp only [ins]
      split
      · next hlt =>
        refine List.pairwise_cons.mpr ⟨?_, hp⟩
        intro e he
        rcases List.mem_cons.mp he with rfl | he
        · exact hlt
        · exact Nat.lt_trans hlt (hp1 e he)
      · next hle =>
        refine List.pairwise_cons.mpr ⟨?_, ih (fun e he => ha e (by simp [he])) hp2⟩
        intro e he
        rcases (mem_ins k v t e).mp he with rfl | he
        · simp only; omega
        · exact hp1 e he
  · rcases (mem_ins k v m e).mp he with rfl | he
    · exact hv
    · exact h.2 e he

/-- A write keeps the canonical form. -/
theorem wf_set [DecidableEq α] (d : α) (m : SMap α) (k : Nat) (v : α) (h : wf d m = true) : wf d (set d m k v) = true := by
  unfold set
  split
  · exact wf_erase d m k h
  · next hv => exact wf_ins d k v _ (wf_erase d m k h) (absent_erase m k) hv

/-- Where `f` keeps the default, a mapped map reads as `f` of what the map read. -/
theorem get_mapVal [DecidableEq α] (d : α) (f : Nat → α → α) (m : SMap α) (k : Nat) (h : f k d = d) :
    get d (mapVal d f m) k = f k (get d m k) := by
  unfold mapVal
  split
  · next hr =>
    rw [rising_iff] at hr
    induction m with
    | nil => exact h.symm
    | cons e t ih =>
      obtain ⟨h1, h2⟩ := List.pairwise_cons.mp hr
      have absent : e.1 = k → get d t k = d := fun x => get_of_absent d t k (fun y hy => by have := h1 y hy; omega)
      rw [List.filterMap_cons]
      by_cases hk : e.1 = k
      · by_cases hd : f e.1 e.2 = d
        · rw [if_pos hd]
          simp only
          rw [ih h2, absent hk, h]
          simpa [get, hk] using hd.symm
        · rw [if_neg hd]
          simp [get, hk]
      · by_cases hd : f e.1 e.2 = d
        · rw [if_pos hd]
          simp only
          rw [ih h2]
          simp [get, hk]
        · rw [if_neg hd]
          simp [get, hk, ih h2]
  · clear * - h
    induction m with
    | nil => exact h.symm
    | cons e t ih =>
      rw [List.foldr_cons, get_set, ih]
      by_cases hk : e.1 = k
      · subst hk
        simp [get]
      · rw [if_neg (fun x => hk x.symm)]
        simp [get, hk]

theorem wf_mapVal [DecidableEq α] (d : α) (f : Nat → α → α) (m : SMap α) : wf d (mapVal d f m) = true := by
  unfold mapVal
  split
  · next hr =>
    rw [rising_iff] at hr
    rw [wf_iff]
    refine ⟨?_, ?_⟩
    · refine List.Pairwise.filterMap _ ?_ hr
      intro a a' hlt b hb b' hb'
      split at hb <;> split at hb' <;> simp_all
      obtain ⟨rfl⟩ := hb
      obtain ⟨rfl⟩ := hb'
      exact hlt
    · intro e he
      obtain ⟨a, -, ha⟩ := List.mem_filterMap.mp he
      split at ha
      · simp at ha
      · simp only [Option.some.injEq] at ha; subst ha; assumption
  · clear * -
    induction m with
    | nil => rfl
    | cons e t ih => exact wf_set d _ _ _ ih

/-- Maps in canonical form that read alike are equal. -/
theorem ext_of_wf [DecidableEq α] (d : α) : ∀ m n : SMap α, wf d m = true → wf d n = true → (∀ k, get d m k = get d n k) → m = n := by
  intro m
  induction m with
  | nil =>
    intro n _ hn h
    cases n with
    | nil => rfl
    | cons e t =>
      obtain ⟨k, v⟩ := e
      have := h k
      simp only [get, if_true] at this
      exact absurd this.symm (((wf_iff d _).mp hn).2 (k, v) (by simp))
  | cons a t ih =>
    intro n hm hn h
    obtain ⟨k, v⟩ := a
    have hm' := (wf_iff d _).mp hm
    have hn' := (wf_iff d _).mp hn
    have hlow : ∀ (j : Nat) (l : SMap α), (∀ e ∈ l, j < e.1) → get d l j = d := fun j l hl =>
      get_of_absent d l j (fun e he => Nat.ne_of_gt (hl e he))
    have ⟨pm1, pm2⟩ := List.pairwise_cons.mp hm'.1
    have hv : v ≠ d := hm'.2 (k, v) (by simp)
    cases n with
    | nil => have := h k; simp only [get, if_true] at this; exact absurd this hv
    | cons b u =>
      obtain ⟨k2, v2⟩ := b
      have ⟨pn1, pn2⟩ := List.pairwise_cons.mp hn'.1
      have hv2 : v2 ≠ d := hn'.2 (k2, v2) (by simp)
      have hk : k = k2 := by
        rcases Nat.lt_trichotomy k k2 with hlt | he | hgt
        · have := h k
          rw [hlow k ((k2, v2) :: u) (by intro e he; rcases List.mem_cons.mp he with rfl | he; exact hlt; exact Nat.lt_trans hlt (pn1 e he))] at this
          simp only [get, if_true] at this
          exact absurd this hv
        · exact he
        · have := h k2
          rw [hlow k2 ((k, v) :: t) (by intro e he; rcases List.mem_cons.mp he with rfl | he; exact hgt; exact Nat.lt_trans hgt (pm1 e he))] at this
          simp only [get, if_true] at this
          exact absurd this.symm hv2
      subst hk
      have hvv : v = v2 := by have := h k; simpa [get] using this
      subst hvv
      have : t = u := ih u ((wf_iff d t).mpr ⟨pm2, fun e he => hm'.2 e (by simp [he])⟩)
        ((wf_iff d u).mpr ⟨pn2, fun e he => hn'.2 e (by simp [he])⟩) (fun j => by
          by_cases hj : k = j
          · subst hj; rw [hlow k t pm1, hlow k u pn1]
          · have := h j; simpa [get, hj] using this)
      rw [this]

end Sys2Proof.SMap
end

