-- ==== Sys2Proof/Laws/State.lean ====
section
/-! SUPPORT. What each update of State leaves of each field, and what the accessors read after it. -/

namespace Sys2Proof.Machine.State

variable (s : State)

/-! ### setWave -/

@[simp] theorem setWave_turn (p : Nat) (w : Wave) : (s.setWave p w).turn = s.turn := rfl
@[simp] theorem setWave_tick (p : Nat) (w : Wave) : (s.setWave p w).tick = s.tick := rfl
@[simp] theorem setWave_nextId (p : Nat) (w : Wave) : (s.setWave p w).nextId = s.nextId := rfl
@[simp] theorem setWave_cur (p : Nat) (w : Wave) : (s.setWave p w).cur = s.cur := rfl
@[simp] theorem setWave_clock (p : Nat) (w : Wave) : (s.setWave p w).clock = s.clock := rfl
@[simp] theorem setWave_elems (p : Nat) (w : Wave) : (s.setWave p w).elems = s.elems := rfl
@[simp] theorem setWave_bad (p : Nat) (w : Wave) : (s.setWave p w).bad = s.bad := rfl
@[simp] theorem setWave_rows (p : Nat) (w : Wave) : (s.setWave p w).rows = s.rows := rfl
@[simp] theorem setWave_ceilWrites (p : Nat) (w : Wave) : (s.setWave p w).ceilWrites = s.ceilWrites := rfl
@[simp] theorem setWave_mem (p : Nat) (w : Wave) : (s.setWave p w).mem = s.mem := rfl
@[simp] theorem setWave_badMem (p : Nat) (w : Wave) : (s.setWave p w).badMem = s.badMem := rfl
@[simp] theorem setWave_cores (p : Nat) (w : Wave) : (s.setWave p w).cores = s.cores := rfl
@[simp] theorem setWave_tlb2 (p : Nat) (w : Wave) : (s.setWave p w).tlb2 = s.tlb2 := rfl
@[simp] theorem setWave_corrected (p : Nat) (w : Wave) : (s.setWave p w).corrected = s.corrected := rfl
@[simp] theorem setWave_throttled (p : Nat) (w : Wave) : (s.setWave p w).throttled = s.throttled := rfl
@[simp] theorem setWave_ops (p : Nat) (w : Wave) : (s.setWave p w).ops = s.ops := rfl
@[simp] theorem setWave_copies (p : Nat) (w : Wave) : (s.setWave p w).copies = s.copies := rfl
@[simp] theorem setWave_remotes (p : Nat) (w : Wave) : (s.setWave p w).remotes = s.remotes := rfl
@[simp] theorem setWave_blocks (p : Nat) (w : Wave) : (s.setWave p w).blocks = s.blocks := rfl
@[simp] theorem setWave_launches (p : Nat) (w : Wave) : (s.setWave p w).launches = s.launches := rfl
@[simp] theorem setWave_nextLid (p : Nat) (w : Wave) : (s.setWave p w).nextLid = s.nextLid := rfl
@[simp] theorem setWave_launchReqs (p : Nat) (w : Wave) : (s.setWave p w).launchReqs = s.launchReqs := rfl
@[simp] theorem setWave_served (p : Nat) (w : Wave) : (s.setWave p w).served = s.served := rfl
@[simp] theorem setWave_events (p : Nat) (w : Wave) : (s.setWave p w).events = s.events := rfl
@[simp] theorem setWave_images (p : Nat) (w : Wave) : (s.setWave p w).images = s.images := rfl
@[simp] theorem setWave_loadStatus (p : Nat) (w : Wave) : (s.setWave p w).loadStatus = s.loadStatus := rfl
@[simp] theorem setWave_streams (p : Nat) (w : Wave) : (s.setWave p w).streams = s.streams := rfl
@[simp] theorem setWave_unitQ (p : Nat) (w : Wave) : (s.setWave p w).unitQ = s.unitQ := rfl
@[simp] theorem setWave_jobs (p : Nat) (w : Wave) : (s.setWave p w).jobs = s.jobs := rfl
@[simp] theorem setWave_abr (p : Nat) (w : Wave) : (s.setWave p w).abr = s.abr := rfl
@[simp] theorem setWave_selected (p : Nat) (w : Wave) : (s.setWave p w).selected = s.selected := rfl
@[simp] theorem setWave_matched (p : Nat) (w : Wave) : (s.setWave p w).matched = s.matched := rfl
@[simp] theorem setWave_outvoted (p : Nat) (w : Wave) : (s.setWave p w).outvoted = s.outvoted := rfl
@[simp] theorem setWave_ringPos (p : Nat) (w : Wave) : (s.setWave p w).ringPos = s.ringPos := rfl
@[simp] theorem setWave_samplePos (p : Nat) (w : Wave) : (s.setWave p w).samplePos = s.samplePos := rfl
@[simp] theorem setWave_sampleDue (p : Nat) (w : Wave) : (s.setWave p w).sampleDue = s.sampleDue := rfl
@[simp] theorem setWave_saved (p : Nat) (w : Wave) : (s.setWave p w).saved = s.saved := rfl
@[simp] theorem setWave_window (p : Nat) (w : Wave) : (s.setWave p w).window = s.window := rfl
@[simp] theorem setWave_sent (p : Nat) (w : Wave) : (s.setWave p w).sent = s.sent := rfl
@[simp] theorem setWave_inputs (p : Nat) (w : Wave) : (s.setWave p w).inputs = s.inputs := rfl
@[simp] theorem setWave_arriving (p : Nat) (w : Wave) : (s.setWave p w).arriving = s.arriving := rfl
@[simp] theorem setWave_nextTag (p : Nat) (w : Wave) : (s.setWave p w).nextTag = s.nextTag := rfl
@[simp] theorem setWave_withdrawn (p : Nat) (w : Wave) : (s.setWave p w).withdrawn = s.withdrawn := rfl
@[simp] theorem setWave_boot (p : Nat) (w : Wave) : (s.setWave p w).boot = s.boot := rfl
@[simp] theorem setWave_primary (p : Nat) (w : Wave) : (s.setWave p w).primary = s.primary := rfl
@[simp] theorem setWave_backup (p : Nat) (w : Wave) : (s.setWave p w).backup = s.backup := rfl
@[simp] theorem setWave_running (p : Nat) (w : Wave) : (s.setWave p w).running = s.running := rfl
@[simp] theorem setWave_staged (p : Nat) (w : Wave) : (s.setWave p w).staged = s.staged := rfl
@[simp] theorem setWave_config (p : Nat) (w : Wave) : (s.setWave p w).config = s.config := rfl
@[simp] theorem setWave_applied (p : Nat) (w : Wave) : (s.setWave p w).applied = s.applied := rfl
@[simp] theorem setWave_modules (p : Nat) (w : Wave) : (s.setWave p w).modules = s.modules := rfl
@[simp] theorem setWave_ports (p : Nat) (w : Wave) : (s.setWave p w).ports = s.ports := rfl
@[simp] theorem setWave_islands (p : Nat) (w : Wave) : (s.setWave p w).islands = s.islands := rfl

/-! ### setCore -/

@[simp] theorem setCore_turn (c : Nat) (v : Core) : (s.setCore c v).turn = s.turn := rfl
@[simp] theorem setCore_tick (c : Nat) (v : Core) : (s.setCore c v).tick = s.tick := rfl
@[simp] theorem setCore_nextId (c : Nat) (v : Core) : (s.setCore c v).nextId = s.nextId := rfl
@[simp] theorem setCore_cur (c : Nat) (v : Core) : (s.setCore c v).cur = s.cur := rfl
@[simp] theorem setCore_clock (c : Nat) (v : Core) : (s.setCore c v).clock = s.clock := rfl
@[simp] theorem setCore_elems (c : Nat) (v : Core) : (s.setCore c v).elems = s.elems := rfl
@[simp] theorem setCore_bad (c : Nat) (v : Core) : (s.setCore c v).bad = s.bad := rfl
@[simp] theorem setCore_rows (c : Nat) (v : Core) : (s.setCore c v).rows = s.rows := rfl
@[simp] theorem setCore_ceilWrites (c : Nat) (v : Core) : (s.setCore c v).ceilWrites = s.ceilWrites := rfl
@[simp] theorem setCore_mem (c : Nat) (v : Core) : (s.setCore c v).mem = s.mem := rfl
@[simp] theorem setCore_badMem (c : Nat) (v : Core) : (s.setCore c v).badMem = s.badMem := rfl
@[simp] theorem setCore_waves (c : Nat) (v : Core) : (s.setCore c v).waves = s.waves := rfl
@[simp] theorem setCore_tlb2 (c : Nat) (v : Core) : (s.setCore c v).tlb2 = s.tlb2 := rfl
@[simp] theorem setCore_corrected (c : Nat) (v : Core) : (s.setCore c v).corrected = s.corrected := rfl
@[simp] theorem setCore_throttled (c : Nat) (v : Core) : (s.setCore c v).throttled = s.throttled := rfl
@[simp] theorem setCore_ops (c : Nat) (v : Core) : (s.setCore c v).ops = s.ops := rfl
@[simp] theorem setCore_copies (c : Nat) (v : Core) : (s.setCore c v).copies = s.copies := rfl
@[simp] theorem setCore_remotes (c : Nat) (v : Core) : (s.setCore c v).remotes = s.remotes := rfl
@[simp] theorem setCore_blocks (c : Nat) (v : Core) : (s.setCore c v).blocks = s.blocks := rfl
@[simp] theorem setCore_launches (c : Nat) (v : Core) : (s.setCore c v).launches = s.launches := rfl
@[simp] theorem setCore_nextLid (c : Nat) (v : Core) : (s.setCore c v).nextLid = s.nextLid := rfl
@[simp] theorem setCore_launchReqs (c : Nat) (v : Core) : (s.setCore c v).launchReqs = s.launchReqs := rfl
@[simp] theorem setCore_served (c : Nat) (v : Core) : (s.setCore c v).served = s.served := rfl
@[simp] theorem setCore_events (c : Nat) (v : Core) : (s.setCore c v).events = s.events := rfl
@[simp] theorem setCore_images (c : Nat) (v : Core) : (s.setCore c v).images = s.images := rfl
@[simp] theorem setCore_loadStatus (c : Nat) (v : Core) : (s.setCore c v).loadStatus = s.loadStatus := rfl
@[simp] theorem setCore_streams (c : Nat) (v : Core) : (s.setCore c v).streams = s.streams := rfl
@[simp] theorem setCore_unitQ (c : Nat) (v : Core) : (s.setCore c v).unitQ = s.unitQ := rfl
@[simp] theorem setCore_jobs (c : Nat) (v : Core) : (s.setCore c v).jobs = s.jobs := rfl
@[simp] theorem setCore_abr (c : Nat) (v : Core) : (s.setCore c v).abr = s.abr := rfl
@[simp] theorem setCore_selected (c : Nat) (v : Core) : (s.setCore c v).selected = s.selected := rfl
@[simp] theorem setCore_matched (c : Nat) (v : Core) : (s.setCore c v).matched = s.matched := rfl
@[simp] theorem setCore_outvoted (c : Nat) (v : Core) : (s.setCore c v).outvoted = s.outvoted := rfl
@[simp] theorem setCore_ringPos (c : Nat) (v : Core) : (s.setCore c v).ringPos = s.ringPos := rfl
@[simp] theorem setCore_samplePos (c : Nat) (v : Core) : (s.setCore c v).samplePos = s.samplePos := rfl
@[simp] theorem setCore_sampleDue (c : Nat) (v : Core) : (s.setCore c v).sampleDue = s.sampleDue := rfl
@[simp] theorem setCore_saved (c : Nat) (v : Core) : (s.setCore c v).saved = s.saved := rfl
@[simp] theorem setCore_window (c : Nat) (v : Core) : (s.setCore c v).window = s.window := rfl
@[simp] theorem setCore_sent (c : Nat) (v : Core) : (s.setCore c v).sent = s.sent := rfl
@[simp] theorem setCore_inputs (c : Nat) (v : Core) : (s.setCore c v).inputs = s.inputs := rfl
@[simp] theorem setCore_arriving (c : Nat) (v : Core) : (s.setCore c v).arriving = s.arriving := rfl
@[simp] theorem setCore_nextTag (c : Nat) (v : Core) : (s.setCore c v).nextTag = s.nextTag := rfl
@[simp] theorem setCore_withdrawn (c : Nat) (v : Core) : (s.setCore c v).withdrawn = s.withdrawn := rfl
@[simp] theorem setCore_boot (c : Nat) (v : Core) : (s.setCore c v).boot = s.boot := rfl
@[simp] theorem setCore_primary (c : Nat) (v : Core) : (s.setCore c v).primary = s.primary := rfl
@[simp] theorem setCore_backup (c : Nat) (v : Core) : (s.setCore c v).backup = s.backup := rfl
@[simp] theorem setCore_running (c : Nat) (v : Core) : (s.setCore c v).running = s.running := rfl
@[simp] theorem setCore_staged (c : Nat) (v : Core) : (s.setCore c v).staged = s.staged := rfl
@[simp] theorem setCore_config (c : Nat) (v : Core) : (s.setCore c v).config = s.config := rfl
@[simp] theorem setCore_applied (c : Nat) (v : Core) : (s.setCore c v).applied = s.applied := rfl
@[simp] theorem setCore_modules (c : Nat) (v : Core) : (s.setCore c v).modules = s.modules := rfl
@[simp] theorem setCore_ports (c : Nat) (v : Core) : (s.setCore c v).ports = s.ports := rfl
@[simp] theorem setCore_islands (c : Nat) (v : Core) : (s.setCore c v).islands = s.islands := rfl

/-! ### setMeta -/

@[simp] theorem setMeta_turn (r : Nat) (m : RowMeta) : (s.setMeta r m).turn = s.turn := rfl
@[simp] theorem setMeta_tick (r : Nat) (m : RowMeta) : (s.setMeta r m).tick = s.tick := rfl
@[simp] theorem setMeta_nextId (r : Nat) (m : RowMeta) : (s.setMeta r m).nextId = s.nextId := rfl
@[simp] theorem setMeta_cur (r : Nat) (m : RowMeta) : (s.setMeta r m).cur = s.cur := rfl
@[simp] theorem setMeta_clock (r : Nat) (m : RowMeta) : (s.setMeta r m).clock = s.clock := rfl
@[simp] theorem setMeta_elems (r : Nat) (m : RowMeta) : (s.setMeta r m).elems = s.elems := rfl
@[simp] theorem setMeta_bad (r : Nat) (m : RowMeta) : (s.setMeta r m).bad = s.bad := rfl
@[simp] theorem setMeta_ceilWrites (r : Nat) (m : RowMeta) : (s.setMeta r m).ceilWrites = s.ceilWrites := rfl
@[simp] theorem setMeta_mem (r : Nat) (m : RowMeta) : (s.setMeta r m).mem = s.mem := rfl
@[simp] theorem setMeta_badMem (r : Nat) (m : RowMeta) : (s.setMeta r m).badMem = s.badMem := rfl
@[simp] theorem setMeta_waves (r : Nat) (m : RowMeta) : (s.setMeta r m).waves = s.waves := rfl
@[simp] theorem setMeta_cores (r : Nat) (m : RowMeta) : (s.setMeta r m).cores = s.cores := rfl
@[simp] theorem setMeta_tlb2 (r : Nat) (m : RowMeta) : (s.setMeta r m).tlb2 = s.tlb2 := rfl
@[simp] theorem setMeta_corrected (r : Nat) (m : RowMeta) : (s.setMeta r m).corrected = s.corrected := rfl
@[simp] theorem setMeta_throttled (r : Nat) (m : RowMeta) : (s.setMeta r m).throttled = s.throttled := rfl
@[simp] theorem setMeta_ops (r : Nat) (m : RowMeta) : (s.setMeta r m).ops = s.ops := rfl
@[simp] theorem setMeta_copies (r : Nat) (m : RowMeta) : (s.setMeta r m).copies = s.copies := rfl
@[simp] theorem setMeta_remotes (r : Nat) (m : RowMeta) : (s.setMeta r m).remotes = s.remotes := rfl
@[simp] theorem setMeta_blocks (r : Nat) (m : RowMeta) : (s.setMeta r m).blocks = s.blocks := rfl
@[simp] theorem setMeta_launches (r : Nat) (m : RowMeta) : (s.setMeta r m).launches = s.launches := rfl
@[simp] theorem setMeta_nextLid (r : Nat) (m : RowMeta) : (s.setMeta r m).nextLid = s.nextLid := rfl
@[simp] theorem setMeta_launchReqs (r : Nat) (m : RowMeta) : (s.setMeta r m).launchReqs = s.launchReqs := rfl
@[simp] theorem setMeta_served (r : Nat) (m : RowMeta) : (s.setMeta r m).served = s.served := rfl
@[simp] theorem setMeta_events (r : Nat) (m : RowMeta) : (s.setMeta r m).events = s.events := rfl
@[simp] theorem setMeta_images (r : Nat) (m : RowMeta) : (s.setMeta r m).images = s.images := rfl
@[simp] theorem setMeta_loadStatus (r : Nat) (m : RowMeta) : (s.setMeta r m).loadStatus = s.loadStatus := rfl
@[simp] theorem setMeta_streams (r : Nat) (m : RowMeta) : (s.setMeta r m).streams = s.streams := rfl
@[simp] theorem setMeta_unitQ (r : Nat) (m : RowMeta) : (s.setMeta r m).unitQ = s.unitQ := rfl
@[simp] theorem setMeta_jobs (r : Nat) (m : RowMeta) : (s.setMeta r m).jobs = s.jobs := rfl
@[simp] theorem setMeta_abr (r : Nat) (m : RowMeta) : (s.setMeta r m).abr = s.abr := rfl
@[simp] theorem setMeta_selected (r : Nat) (m : RowMeta) : (s.setMeta r m).selected = s.selected := rfl
@[simp] theorem setMeta_matched (r : Nat) (m : RowMeta) : (s.setMeta r m).matched = s.matched := rfl
@[simp] theorem setMeta_outvoted (r : Nat) (m : RowMeta) : (s.setMeta r m).outvoted = s.outvoted := rfl
@[simp] theorem setMeta_ringPos (r : Nat) (m : RowMeta) : (s.setMeta r m).ringPos = s.ringPos := rfl
@[simp] theorem setMeta_samplePos (r : Nat) (m : RowMeta) : (s.setMeta r m).samplePos = s.samplePos := rfl
@[simp] theorem setMeta_sampleDue (r : Nat) (m : RowMeta) : (s.setMeta r m).sampleDue = s.sampleDue := rfl
@[simp] theorem setMeta_saved (r : Nat) (m : RowMeta) : (s.setMeta r m).saved = s.saved := rfl
@[simp] theorem setMeta_window (r : Nat) (m : RowMeta) : (s.setMeta r m).window = s.window := rfl
@[simp] theorem setMeta_sent (r : Nat) (m : RowMeta) : (s.setMeta r m).sent = s.sent := rfl
@[simp] theorem setMeta_inputs (r : Nat) (m : RowMeta) : (s.setMeta r m).inputs = s.inputs := rfl
@[simp] theorem setMeta_arriving (r : Nat) (m : RowMeta) : (s.setMeta r m).arriving = s.arriving := rfl
@[simp] theorem setMeta_nextTag (r : Nat) (m : RowMeta) : (s.setMeta r m).nextTag = s.nextTag := rfl
@[simp] theorem setMeta_withdrawn (r : Nat) (m : RowMeta) : (s.setMeta r m).withdrawn = s.withdrawn := rfl
@[simp] theorem setMeta_boot (r : Nat) (m : RowMeta) : (s.setMeta r m).boot = s.boot := rfl
@[simp] theorem setMeta_primary (r : Nat) (m : RowMeta) : (s.setMeta r m).primary = s.primary := rfl
@[simp] theorem setMeta_backup (r : Nat) (m : RowMeta) : (s.setMeta r m).backup = s.backup := rfl
@[simp] theorem setMeta_running (r : Nat) (m : RowMeta) : (s.setMeta r m).running = s.running := rfl
@[simp] theorem setMeta_staged (r : Nat) (m : RowMeta) : (s.setMeta r m).staged = s.staged := rfl
@[simp] theorem setMeta_config (r : Nat) (m : RowMeta) : (s.setMeta r m).config = s.config := rfl
@[simp] theorem setMeta_applied (r : Nat) (m : RowMeta) : (s.setMeta r m).applied = s.applied := rfl
@[simp] theorem setMeta_modules (r : Nat) (m : RowMeta) : (s.setMeta r m).modules = s.modules := rfl
@[simp] theorem setMeta_ports (r : Nat) (m : RowMeta) : (s.setMeta r m).ports = s.ports := rfl
@[simp] theorem setMeta_islands (r : Nat) (m : RowMeta) : (s.setMeta r m).islands = s.islands := rfl

/-! ### putElem -/

@[simp] theorem putElem_turn (k : Nat) (v : Word) (b : Bool) : (s.putElem k v b).turn = s.turn := rfl
@[simp] theorem putElem_tick (k : Nat) (v : Word) (b : Bool) : (s.putElem k v b).tick = s.tick := rfl
@[simp] theorem putElem_nextId (k : Nat) (v : Word) (b : Bool) : (s.putElem k v b).nextId = s.nextId := rfl
@[simp] theorem putElem_cur (k : Nat) (v : Word) (b : Bool) : (s.putElem k v b).cur = s.cur := rfl
@[simp] theorem putElem_clock (k : Nat) (v : Word) (b : Bool) : (s.putElem k v b).clock = s.clock := rfl
@[simp] theorem putElem_rows (k : Nat) (v : Word) (b : Bool) : (s.putElem k v b).rows = s.rows := rfl
@[simp] theorem putElem_mem (k : Nat) (v : Word) (b : Bool) : (s.putElem k v b).mem = s.mem := rfl
@[simp] theorem putElem_badMem (k : Nat) (v : Word) (b : Bool) : (s.putElem k v b).badMem = s.badMem := rfl
@[simp] theorem putElem_waves (k : Nat) (v : Word) (b : Bool) : (s.putElem k v b).waves = s.waves := rfl
@[simp] theorem putElem_cores (k : Nat) (v : Word) (b : Bool) : (s.putElem k v b).cores = s.cores := rfl
@[simp] theorem putElem_tlb2 (k : Nat) (v : Word) (b : Bool) : (s.putElem k v b).tlb2 = s.tlb2 := rfl
@[simp] theorem putElem_corrected (k : Nat) (v : Word) (b : Bool) : (s.putElem k v b).corrected = s.corrected := rfl
@[simp] theorem putElem_throttled (k : Nat) (v : Word) (b : Bool) : (s.putElem k v b).throttled = s.throttled := rfl
@[simp] theorem putElem_ops (k : Nat) (v : Word) (b : Bool) : (s.putElem k v b).ops = s.ops := rfl
@[simp] theorem putElem_copies (k : Nat) (v : Word) (b : Bool) : (s.putElem k v b).copies = s.copies := rfl
@[simp] theorem putElem_remotes (k : Nat) (v : Word) (b : Bool) : (s.putElem k v b).remotes = s.remotes := rfl
@[simp] theorem putElem_blocks (k : Nat) (v : Word) (b : Bool) : (s.putElem k v b).blocks = s.blocks := rfl
@[simp] theorem putElem_launches (k : Nat) (v : Word) (b : Bool) : (s.putElem k v b).launches = s.launches := rfl
@[simp] theorem putElem_nextLid (k : Nat) (v : Word) (b : Bool) : (s.putElem k v b).nextLid = s.nextLid := rfl
@[simp] theorem putElem_launchReqs (k : Nat) (v : Word) (b : Bool) : (s.putElem k v b).launchReqs = s.launchReqs := rfl
@[simp] theorem putElem_served (k : Nat) (v : Word) (b : Bool) : (s.putElem k v b).served = s.served := rfl
@[simp] theorem putElem_events (k : Nat) (v : Word) (b : Bool) : (s.putElem k v b).events = s.events := rfl
@[simp] theorem putElem_images (k : Nat) (v : Word) (b : Bool) : (s.putElem k v b).images = s.images := rfl
@[simp] theorem putElem_loadStatus (k : Nat) (v : Word) (b : Bool) : (s.putElem k v b).loadStatus = s.loadStatus := rfl
@[simp] theorem putElem_streams (k : Nat) (v : Word) (b : Bool) : (s.putElem k v b).streams = s.streams := rfl
@[simp] theorem putElem_unitQ (k : Nat) (v : Word) (b : Bool) : (s.putElem k v b).unitQ = s.unitQ := rfl
@[simp] theorem putElem_jobs (k : Nat) (v : Word) (b : Bool) : (s.putElem k v b).jobs = s.jobs := rfl
@[simp] theorem putElem_abr (k : Nat) (v : Word) (b : Bool) : (s.putElem k v b).abr = s.abr := rfl
@[simp] theorem putElem_selected (k : Nat) (v : Word) (b : Bool) : (s.putElem k v b).selected = s.selected := rfl
@[simp] theorem putElem_matched (k : Nat) (v : Word) (b : Bool) : (s.putElem k v b).matched = s.matched := rfl
@[simp] theorem putElem_outvoted (k : Nat) (v : Word) (b : Bool) : (s.putElem k v b).outvoted = s.outvoted := rfl
@[simp] theorem putElem_ringPos (k : Nat) (v : Word) (b : Bool) : (s.putElem k v b).ringPos = s.ringPos := rfl
@[simp] theorem putElem_samplePos (k : Nat) (v : Word) (b : Bool) : (s.putElem k v b).samplePos = s.samplePos := rfl
@[simp] theorem putElem_sampleDue (k : Nat) (v : Word) (b : Bool) : (s.putElem k v b).sampleDue = s.sampleDue := rfl
@[simp] theorem putElem_saved (k : Nat) (v : Word) (b : Bool) : (s.putElem k v b).saved = s.saved := rfl
@[simp] theorem putElem_window (k : Nat) (v : Word) (b : Bool) : (s.putElem k v b).window = s.window := rfl
@[simp] theorem putElem_sent (k : Nat) (v : Word) (b : Bool) : (s.putElem k v b).sent = s.sent := rfl
@[simp] theorem putElem_inputs (k : Nat) (v : Word) (b : Bool) : (s.putElem k v b).inputs = s.inputs := rfl
@[simp] theorem putElem_arriving (k : Nat) (v : Word) (b : Bool) : (s.putElem k v b).arriving = s.arriving := rfl
@[simp] theorem putElem_nextTag (k : Nat) (v : Word) (b : Bool) : (s.putElem k v b).nextTag = s.nextTag := rfl
@[simp] theorem putElem_withdrawn (k : Nat) (v : Word) (b : Bool) : (s.putElem k v b).withdrawn = s.withdrawn := rfl
@[simp] theorem putElem_boot (k : Nat) (v : Word) (b : Bool) : (s.putElem k v b).boot = s.boot := rfl
@[simp] theorem putElem_primary (k : Nat) (v : Word) (b : Bool) : (s.putElem k v b).primary = s.primary := rfl
@[simp] theorem putElem_backup (k : Nat) (v : Word) (b : Bool) : (s.putElem k v b).backup = s.backup := rfl
@[simp] theorem putElem_running (k : Nat) (v : Word) (b : Bool) : (s.putElem k v b).running = s.running := rfl
@[simp] theorem putElem_staged (k : Nat) (v : Word) (b : Bool) : (s.putElem k v b).staged = s.staged := rfl
@[simp] theorem putElem_config (k : Nat) (v : Word) (b : Bool) : (s.putElem k v b).config = s.config := rfl
@[simp] theorem putElem_applied (k : Nat) (v : Word) (b : Bool) : (s.putElem k v b).applied = s.applied := rfl
@[simp] theorem putElem_modules (k : Nat) (v : Word) (b : Bool) : (s.putElem k v b).modules = s.modules := rfl
@[simp] theorem putElem_ports (k : Nat) (v : Word) (b : Bool) : (s.putElem k v b).ports = s.ports := rfl
@[simp] theorem putElem_islands (k : Nat) (v : Word) (b : Bool) : (s.putElem k v b).islands = s.islands := rfl

/-! ### modBlock -/

@[simp] theorem modBlock_turn (i : Nat) (f : Block → Block) : (s.modBlock i f).turn = s.turn := rfl
@[simp] theorem modBlock_tick (i : Nat) (f : Block → Block) : (s.modBlock i f).tick = s.tick := rfl
@[simp] theorem modBlock_nextId (i : Nat) (f : Block → Block) : (s.modBlock i f).nextId = s.nextId := rfl
@[simp] theorem modBlock_cur (i : Nat) (f : Block → Block) : (s.modBlock i f).cur = s.cur := rfl
@[simp] theorem modBlock_clock (i : Nat) (f : Block → Block) : (s.modBlock i f).clock = s.clock := rfl
@[simp] theorem modBlock_elems (i : Nat) (f : Block → Block) : (s.modBlock i f).elems = s.elems := rfl
@[simp] theorem modBlock_bad (i : Nat) (f : Block → Block) : (s.modBlock i f).bad = s.bad := rfl
@[simp] theorem modBlock_rows (i : Nat) (f : Block → Block) : (s.modBlock i f).rows = s.rows := rfl
@[simp] theorem modBlock_ceilWrites (i : Nat) (f : Block → Block) : (s.modBlock i f).ceilWrites = s.ceilWrites := rfl
@[simp] theorem modBlock_mem (i : Nat) (f : Block → Block) : (s.modBlock i f).mem = s.mem := rfl
@[simp] theorem modBlock_badMem (i : Nat) (f : Block → Block) : (s.modBlock i f).badMem = s.badMem := rfl
@[simp] theorem modBlock_waves (i : Nat) (f : Block → Block) : (s.modBlock i f).waves = s.waves := rfl
@[simp] theorem modBlock_cores (i : Nat) (f : Block → Block) : (s.modBlock i f).cores = s.cores := rfl
@[simp] theorem modBlock_tlb2 (i : Nat) (f : Block → Block) : (s.modBlock i f).tlb2 = s.tlb2 := rfl
@[simp] theorem modBlock_corrected (i : Nat) (f : Block → Block) : (s.modBlock i f).corrected = s.corrected := rfl
@[simp] theorem modBlock_throttled (i : Nat) (f : Block → Block) : (s.modBlock i f).throttled = s.throttled := rfl
@[simp] theorem modBlock_ops (i : Nat) (f : Block → Block) : (s.modBlock i f).ops = s.ops := rfl
@[simp] theorem modBlock_copies (i : Nat) (f : Block → Block) : (s.modBlock i f).copies = s.copies := rfl
@[simp] theorem modBlock_remotes (i : Nat) (f : Block → Block) : (s.modBlock i f).remotes = s.remotes := rfl
@[simp] theorem modBlock_launches (i : Nat) (f : Block → Block) : (s.modBlock i f).launches = s.launches := rfl
@[simp] theorem modBlock_nextLid (i : Nat) (f : Block → Block) : (s.modBlock i f).nextLid = s.nextLid := rfl
@[simp] theorem modBlock_launchReqs (i : Nat) (f : Block → Block) : (s.modBlock i f).launchReqs = s.launchReqs := rfl
@[simp] theorem modBlock_served (i : Nat) (f : Block → Block) : (s.modBlock i f).served = s.served := rfl
@[simp] theorem modBlock_events (i : Nat) (f : Block → Block) : (s.modBlock i f).events = s.events := rfl
@[simp] theorem modBlock_images (i : Nat) (f : Block → Block) : (s.modBlock i f).images = s.images := rfl
@[simp] theorem modBlock_loadStatus (i : Nat) (f : Block → Block) : (s.modBlock i f).loadStatus = s.loadStatus := rfl
@[simp] theorem modBlock_streams (i : Nat) (f : Block → Block) : (s.modBlock i f).streams = s.streams := rfl
@[simp] theorem modBlock_unitQ (i : Nat) (f : Block → Block) : (s.modBlock i f).unitQ = s.unitQ := rfl
@[simp] theorem modBlock_jobs (i : Nat) (f : Block → Block) : (s.modBlock i f).jobs = s.jobs := rfl
@[simp] theorem modBlock_abr (i : Nat) (f : Block → Block) : (s.modBlock i f).abr = s.abr := rfl
@[simp] theorem modBlock_selected (i : Nat) (f : Block → Block) : (s.modBlock i f).selected = s.selected := rfl
@[simp] theorem modBlock_matched (i : Nat) (f : Block → Block) : (s.modBlock i f).matched = s.matched := rfl
@[simp] theorem modBlock_outvoted (i : Nat) (f : Block → Block) : (s.modBlock i f).outvoted = s.outvoted := rfl
@[simp] theorem modBlock_ringPos (i : Nat) (f : Block → Block) : (s.modBlock i f).ringPos = s.ringPos := rfl
@[simp] theorem modBlock_samplePos (i : Nat) (f : Block → Block) : (s.modBlock i f).samplePos = s.samplePos := rfl
@[simp] theorem modBlock_sampleDue (i : Nat) (f : Block → Block) : (s.modBlock i f).sampleDue = s.sampleDue := rfl
@[simp] theorem modBlock_saved (i : Nat) (f : Block → Block) : (s.modBlock i f).saved = s.saved := rfl
@[simp] theorem modBlock_window (i : Nat) (f : Block → Block) : (s.modBlock i f).window = s.window := rfl
@[simp] theorem modBlock_sent (i : Nat) (f : Block → Block) : (s.modBlock i f).sent = s.sent := rfl
@[simp] theorem modBlock_inputs (i : Nat) (f : Block → Block) : (s.modBlock i f).inputs = s.inputs := rfl
@[simp] theorem modBlock_arriving (i : Nat) (f : Block → Block) : (s.modBlock i f).arriving = s.arriving := rfl
@[simp] theorem modBlock_nextTag (i : Nat) (f : Block → Block) : (s.modBlock i f).nextTag = s.nextTag := rfl
@[simp] theorem modBlock_withdrawn (i : Nat) (f : Block → Block) : (s.modBlock i f).withdrawn = s.withdrawn := rfl
@[simp] theorem modBlock_boot (i : Nat) (f : Block → Block) : (s.modBlock i f).boot = s.boot := rfl
@[simp] theorem modBlock_primary (i : Nat) (f : Block → Block) : (s.modBlock i f).primary = s.primary := rfl
@[simp] theorem modBlock_backup (i : Nat) (f : Block → Block) : (s.modBlock i f).backup = s.backup := rfl
@[simp] theorem modBlock_running (i : Nat) (f : Block → Block) : (s.modBlock i f).running = s.running := rfl
@[simp] theorem modBlock_staged (i : Nat) (f : Block → Block) : (s.modBlock i f).staged = s.staged := rfl
@[simp] theorem modBlock_config (i : Nat) (f : Block → Block) : (s.modBlock i f).config = s.config := rfl
@[simp] theorem modBlock_applied (i : Nat) (f : Block → Block) : (s.modBlock i f).applied = s.applied := rfl
@[simp] theorem modBlock_modules (i : Nat) (f : Block → Block) : (s.modBlock i f).modules = s.modules := rfl
@[simp] theorem modBlock_ports (i : Nat) (f : Block → Block) : (s.modBlock i f).ports = s.ports := rfl
@[simp] theorem modBlock_islands (i : Nat) (f : Block → Block) : (s.modBlock i f).islands = s.islands := rfl

/-! ### modLaunch -/

@[simp] theorem modLaunch_turn (i : Nat) (f : Launch → Launch) : (s.modLaunch i f).turn = s.turn := rfl
@[simp] theorem modLaunch_tick (i : Nat) (f : Launch → Launch) : (s.modLaunch i f).tick = s.tick := rfl
@[simp] theorem modLaunch_nextId (i : Nat) (f : Launch → Launch) : (s.modLaunch i f).nextId = s.nextId := rfl
@[simp] theorem modLaunch_cur (i : Nat) (f : Launch → Launch) : (s.modLaunch i f).cur = s.cur := rfl
@[simp] theorem modLaunch_clock (i : Nat) (f : Launch → Launch) : (s.modLaunch i f).clock = s.clock := rfl
@[simp] theorem modLaunch_elems (i : Nat) (f : Launch → Launch) : (s.modLaunch i f).elems = s.elems := rfl
@[simp] theorem modLaunch_bad (i : Nat) (f : Launch → Launch) : (s.modLaunch i f).bad = s.bad := rfl
@[simp] theorem modLaunch_rows (i : Nat) (f : Launch → Launch) : (s.modLaunch i f).rows = s.rows := rfl
@[simp] theorem modLaunch_ceilWrites (i : Nat) (f : Launch → Launch) : (s.modLaunch i f).ceilWrites = s.ceilWrites := rfl
@[simp] theorem modLaunch_mem (i : Nat) (f : Launch → Launch) : (s.modLaunch i f).mem = s.mem := rfl
@[simp] theorem modLaunch_badMem (i : Nat) (f : Launch → Launch) : (s.modLaunch i f).badMem = s.badMem := rfl
@[simp] theorem modLaunch_waves (i : Nat) (f : Launch → Launch) : (s.modLaunch i f).waves = s.waves := rfl
@[simp] theorem modLaunch_cores (i : Nat) (f : Launch → Launch) : (s.modLaunch i f).cores = s.cores := rfl
@[simp] theorem modLaunch_tlb2 (i : Nat) (f : Launch → Launch) : (s.modLaunch i f).tlb2 = s.tlb2 := rfl
@[simp] theorem modLaunch_corrected (i : Nat) (f : Launch → Launch) : (s.modLaunch i f).corrected = s.corrected := rfl
@[simp] theorem modLaunch_throttled (i : Nat) (f : Launch → Launch) : (s.modLaunch i f).throttled = s.throttled := rfl
@[simp] theorem modLaunch_ops (i : Nat) (f : Launch → Launch) : (s.modLaunch i f).ops = s.ops := rfl
@[simp] theorem modLaunch_copies (i : Nat) (f : Launch → Launch) : (s.modLaunch i f).copies = s.copies := rfl
@[simp] theorem modLaunch_remotes (i : Nat) (f : Launch → Launch) : (s.modLaunch i f).remotes = s.remotes := rfl
@[simp] theorem modLaunch_blocks (i : Nat) (f : Launch → Launch) : (s.modLaunch i f).blocks = s.blocks := rfl
@[simp] theorem modLaunch_nextLid (i : Nat) (f : Launch → Launch) : (s.modLaunch i f).nextLid = s.nextLid := rfl
@[simp] theorem modLaunch_launchReqs (i : Nat) (f : Launch → Launch) : (s.modLaunch i f).launchReqs = s.launchReqs := rfl
@[simp] theorem modLaunch_served (i : Nat) (f : Launch → Launch) : (s.modLaunch i f).served = s.served := rfl
@[simp] theorem modLaunch_events (i : Nat) (f : Launch → Launch) : (s.modLaunch i f).events = s.events := rfl
@[simp] theorem modLaunch_images (i : Nat) (f : Launch → Launch) : (s.modLaunch i f).images = s.images := rfl
@[simp] theorem modLaunch_loadStatus (i : Nat) (f : Launch → Launch) : (s.modLaunch i f).loadStatus = s.loadStatus := rfl
@[simp] theorem modLaunch_streams (i : Nat) (f : Launch → Launch) : (s.modLaunch i f).streams = s.streams := rfl
@[simp] theorem modLaunch_unitQ (i : Nat) (f : Launch → Launch) : (s.modLaunch i f).unitQ = s.unitQ := rfl
@[simp] theorem modLaunch_jobs (i : Nat) (f : Launch → Launch) : (s.modLaunch i f).jobs = s.jobs := rfl
@[simp] theorem modLaunch_abr (i : Nat) (f : Launch → Launch) : (s.modLaunch i f).abr = s.abr := rfl
@[simp] theorem modLaunch_selected (i : Nat) (f : Launch → Launch) : (s.modLaunch i f).selected = s.selected := rfl
@[simp] theorem modLaunch_matched (i : Nat) (f : Launch → Launch) : (s.modLaunch i f).matched = s.matched := rfl
@[simp] theorem modLaunch_outvoted (i : Nat) (f : Launch → Launch) : (s.modLaunch i f).outvoted = s.outvoted := rfl
@[simp] theorem modLaunch_ringPos (i : Nat) (f : Launch → Launch) : (s.modLaunch i f).ringPos = s.ringPos := rfl
@[simp] theorem modLaunch_samplePos (i : Nat) (f : Launch → Launch) : (s.modLaunch i f).samplePos = s.samplePos := rfl
@[simp] theorem modLaunch_sampleDue (i : Nat) (f : Launch → Launch) : (s.modLaunch i f).sampleDue = s.sampleDue := rfl
@[simp] theorem modLaunch_saved (i : Nat) (f : Launch → Launch) : (s.modLaunch i f).saved = s.saved := rfl
@[simp] theorem modLaunch_window (i : Nat) (f : Launch → Launch) : (s.modLaunch i f).window = s.window := rfl
@[simp] theorem modLaunch_sent (i : Nat) (f : Launch → Launch) : (s.modLaunch i f).sent = s.sent := rfl
@[simp] theorem modLaunch_inputs (i : Nat) (f : Launch → Launch) : (s.modLaunch i f).inputs = s.inputs := rfl
@[simp] theorem modLaunch_arriving (i : Nat) (f : Launch → Launch) : (s.modLaunch i f).arriving = s.arriving := rfl
@[simp] theorem modLaunch_nextTag (i : Nat) (f : Launch → Launch) : (s.modLaunch i f).nextTag = s.nextTag := rfl
@[simp] theorem modLaunch_withdrawn (i : Nat) (f : Launch → Launch) : (s.modLaunch i f).withdrawn = s.withdrawn := rfl
@[simp] theorem modLaunch_boot (i : Nat) (f : Launch → Launch) : (s.modLaunch i f).boot = s.boot := rfl
@[simp] theorem modLaunch_primary (i : Nat) (f : Launch → Launch) : (s.modLaunch i f).primary = s.primary := rfl
@[simp] theorem modLaunch_backup (i : Nat) (f : Launch → Launch) : (s.modLaunch i f).backup = s.backup := rfl
@[simp] theorem modLaunch_running (i : Nat) (f : Launch → Launch) : (s.modLaunch i f).running = s.running := rfl
@[simp] theorem modLaunch_staged (i : Nat) (f : Launch → Launch) : (s.modLaunch i f).staged = s.staged := rfl
@[simp] theorem modLaunch_config (i : Nat) (f : Launch → Launch) : (s.modLaunch i f).config = s.config := rfl
@[simp] theorem modLaunch_applied (i : Nat) (f : Launch → Launch) : (s.modLaunch i f).applied = s.applied := rfl
@[simp] theorem modLaunch_modules (i : Nat) (f : Launch → Launch) : (s.modLaunch i f).modules = s.modules := rfl
@[simp] theorem modLaunch_ports (i : Nat) (f : Launch → Launch) : (s.modLaunch i f).ports = s.ports := rfl
@[simp] theorem modLaunch_islands (i : Nat) (f : Launch → Launch) : (s.modLaunch i f).islands = s.islands := rfl

/-! ### modJob -/

@[simp] theorem modJob_turn (i : Nat) (f : Job → Job) : (s.modJob i f).turn = s.turn := rfl
@[simp] theorem modJob_tick (i : Nat) (f : Job → Job) : (s.modJob i f).tick = s.tick := rfl
@[simp] theorem modJob_nextId (i : Nat) (f : Job → Job) : (s.modJob i f).nextId = s.nextId := rfl
@[simp] theorem modJob_cur (i : Nat) (f : Job → Job) : (s.modJob i f).cur = s.cur := rfl
@[simp] theorem modJob_clock (i : Nat) (f : Job → Job) : (s.modJob i f).clock = s.clock := rfl
@[simp] theorem modJob_elems (i : Nat) (f : Job → Job) : (s.modJob i f).elems = s.elems := rfl
@[simp] theorem modJob_bad (i : Nat) (f : Job → Job) : (s.modJob i f).bad = s.bad := rfl
@[simp] theorem modJob_rows (i : Nat) (f : Job → Job) : (s.modJob i f).rows = s.rows := rfl
@[simp] theorem modJob_ceilWrites (i : Nat) (f : Job → Job) : (s.modJob i f).ceilWrites = s.ceilWrites := rfl
@[simp] theorem modJob_mem (i : Nat) (f : Job → Job) : (s.modJob i f).mem = s.mem := rfl
@[simp] theorem modJob_badMem (i : Nat) (f : Job → Job) : (s.modJob i f).badMem = s.badMem := rfl
@[simp] theorem modJob_waves (i : Nat) (f : Job → Job) : (s.modJob i f).waves = s.waves := rfl
@[simp] theorem modJob_cores (i : Nat) (f : Job → Job) : (s.modJob i f).cores = s.cores := rfl
@[simp] theorem modJob_tlb2 (i : Nat) (f : Job → Job) : (s.modJob i f).tlb2 = s.tlb2 := rfl
@[simp] theorem modJob_corrected (i : Nat) (f : Job → Job) : (s.modJob i f).corrected = s.corrected := rfl
@[simp] theorem modJob_throttled (i : Nat) (f : Job → Job) : (s.modJob i f).throttled = s.throttled := rfl
@[simp] theorem modJob_ops (i : Nat) (f : Job → Job) : (s.modJob i f).ops = s.ops := rfl
@[simp] theorem modJob_copies (i : Nat) (f : Job → Job) : (s.modJob i f).copies = s.copies := rfl
@[simp] theorem modJob_remotes (i : Nat) (f : Job → Job) : (s.modJob i f).remotes = s.remotes := rfl
@[simp] theorem modJob_blocks (i : Nat) (f : Job → Job) : (s.modJob i f).blocks = s.blocks := rfl
@[simp] theorem modJob_launches (i : Nat) (f : Job → Job) : (s.modJob i f).launches = s.launches := rfl
@[simp] theorem modJob_nextLid (i : Nat) (f : Job → Job) : (s.modJob i f).nextLid = s.nextLid := rfl
@[simp] theorem modJob_launchReqs (i : Nat) (f : Job → Job) : (s.modJob i f).launchReqs = s.launchReqs := rfl
@[simp] theorem modJob_served (i : Nat) (f : Job → Job) : (s.modJob i f).served = s.served := rfl
@[simp] theorem modJob_events (i : Nat) (f : Job → Job) : (s.modJob i f).events = s.events := rfl
@[simp] theorem modJob_images (i : Nat) (f : Job → Job) : (s.modJob i f).images = s.images := rfl
@[simp] theorem modJob_loadStatus (i : Nat) (f : Job → Job) : (s.modJob i f).loadStatus = s.loadStatus := rfl
@[simp] theorem modJob_streams (i : Nat) (f : Job → Job) : (s.modJob i f).streams = s.streams := rfl
@[simp] theorem modJob_unitQ (i : Nat) (f : Job → Job) : (s.modJob i f).unitQ = s.unitQ := rfl
@[simp] theorem modJob_abr (i : Nat) (f : Job → Job) : (s.modJob i f).abr = s.abr := rfl
@[simp] theorem modJob_selected (i : Nat) (f : Job → Job) : (s.modJob i f).selected = s.selected := rfl
@[simp] theorem modJob_matched (i : Nat) (f : Job → Job) : (s.modJob i f).matched = s.matched := rfl
@[simp] theorem modJob_outvoted (i : Nat) (f : Job → Job) : (s.modJob i f).outvoted = s.outvoted := rfl
@[simp] theorem modJob_ringPos (i : Nat) (f : Job → Job) : (s.modJob i f).ringPos = s.ringPos := rfl
@[simp] theorem modJob_samplePos (i : Nat) (f : Job → Job) : (s.modJob i f).samplePos = s.samplePos := rfl
@[simp] theorem modJob_sampleDue (i : Nat) (f : Job → Job) : (s.modJob i f).sampleDue = s.sampleDue := rfl
@[simp] theorem modJob_saved (i : Nat) (f : Job → Job) : (s.modJob i f).saved = s.saved := rfl
@[simp] theorem modJob_window (i : Nat) (f : Job → Job) : (s.modJob i f).window = s.window := rfl
@[simp] theorem modJob_sent (i : Nat) (f : Job → Job) : (s.modJob i f).sent = s.sent := rfl
@[simp] theorem modJob_inputs (i : Nat) (f : Job → Job) : (s.modJob i f).inputs = s.inputs := rfl
@[simp] theorem modJob_arriving (i : Nat) (f : Job → Job) : (s.modJob i f).arriving = s.arriving := rfl
@[simp] theorem modJob_nextTag (i : Nat) (f : Job → Job) : (s.modJob i f).nextTag = s.nextTag := rfl
@[simp] theorem modJob_withdrawn (i : Nat) (f : Job → Job) : (s.modJob i f).withdrawn = s.withdrawn := rfl
@[simp] theorem modJob_boot (i : Nat) (f : Job → Job) : (s.modJob i f).boot = s.boot := rfl
@[simp] theorem modJob_primary (i : Nat) (f : Job → Job) : (s.modJob i f).primary = s.primary := rfl
@[simp] theorem modJob_backup (i : Nat) (f : Job → Job) : (s.modJob i f).backup = s.backup := rfl
@[simp] theorem modJob_running (i : Nat) (f : Job → Job) : (s.modJob i f).running = s.running := rfl
@[simp] theorem modJob_staged (i : Nat) (f : Job → Job) : (s.modJob i f).staged = s.staged := rfl
@[simp] theorem modJob_config (i : Nat) (f : Job → Job) : (s.modJob i f).config = s.config := rfl
@[simp] theorem modJob_applied (i : Nat) (f : Job → Job) : (s.modJob i f).applied = s.applied := rfl
@[simp] theorem modJob_modules (i : Nat) (f : Job → Job) : (s.modJob i f).modules = s.modules := rfl
@[simp] theorem modJob_ports (i : Nat) (f : Job → Job) : (s.modJob i f).ports = s.ports := rfl
@[simp] theorem modJob_islands (i : Nat) (f : Job → Job) : (s.modJob i f).islands = s.islands := rfl

/-! ### modStream -/

@[simp] theorem modStream_turn (n : Nat) (f : Stream → Stream) : (s.modStream n f).turn = s.turn := rfl
@[simp] theorem modStream_tick (n : Nat) (f : Stream → Stream) : (s.modStream n f).tick = s.tick := rfl
@[simp] theorem modStream_nextId (n : Nat) (f : Stream → Stream) : (s.modStream n f).nextId = s.nextId := rfl
@[simp] theorem modStream_cur (n : Nat) (f : Stream → Stream) : (s.modStream n f).cur = s.cur := rfl
@[simp] theorem modStream_clock (n : Nat) (f : Stream → Stream) : (s.modStream n f).clock = s.clock := rfl
@[simp] theorem modStream_elems (n : Nat) (f : Stream → Stream) : (s.modStream n f).elems = s.elems := rfl
@[simp] theorem modStream_bad (n : Nat) (f : Stream → Stream) : (s.modStream n f).bad = s.bad := rfl
@[simp] theorem modStream_rows (n : Nat) (f : Stream → Stream) : (s.modStream n f).rows = s.rows := rfl
@[simp] theorem modStream_ceilWrites (n : Nat) (f : Stream → Stream) : (s.modStream n f).ceilWrites = s.ceilWrites := rfl
@[simp] theorem modStream_mem (n : Nat) (f : Stream → Stream) : (s.modStream n f).mem = s.mem := rfl
@[simp] theorem modStream_badMem (n : Nat) (f : Stream → Stream) : (s.modStream n f).badMem = s.badMem := rfl
@[simp] theorem modStream_waves (n : Nat) (f : Stream → Stream) : (s.modStream n f).waves = s.waves := rfl
@[simp] theorem modStream_cores (n : Nat) (f : Stream → Stream) : (s.modStream n f).cores = s.cores := rfl
@[simp] theorem modStream_tlb2 (n : Nat) (f : Stream → Stream) : (s.modStream n f).tlb2 = s.tlb2 := rfl
@[simp] theorem modStream_corrected (n : Nat) (f : Stream → Stream) : (s.modStream n f).corrected = s.corrected := rfl
@[simp] theorem modStream_throttled (n : Nat) (f : Stream → Stream) : (s.modStream n f).throttled = s.throttled := rfl
@[simp] theorem modStream_ops (n : Nat) (f : Stream → Stream) : (s.modStream n f).ops = s.ops := rfl
@[simp] theorem modStream_copies (n : Nat) (f : Stream → Stream) : (s.modStream n f).copies = s.copies := rfl
@[simp] theorem modStream_remotes (n : Nat) (f : Stream → Stream) : (s.modStream n f).remotes = s.remotes := rfl
@[simp] theorem modStream_blocks (n : Nat) (f : Stream → Stream) : (s.modStream n f).blocks = s.blocks := rfl
@[simp] theorem modStream_launches (n : Nat) (f : Stream → Stream) : (s.modStream n f).launches = s.launches := rfl
@[simp] theorem modStream_nextLid (n : Nat) (f : Stream → Stream) : (s.modStream n f).nextLid = s.nextLid := rfl
@[simp] theorem modStream_launchReqs (n : Nat) (f : Stream → Stream) : (s.modStream n f).launchReqs = s.launchReqs := rfl
@[simp] theorem modStream_served (n : Nat) (f : Stream → Stream) : (s.modStream n f).served = s.served := rfl
@[simp] theorem modStream_events (n : Nat) (f : Stream → Stream) : (s.modStream n f).events = s.events := rfl
@[simp] theorem modStream_images (n : Nat) (f : Stream → Stream) : (s.modStream n f).images = s.images := rfl
@[simp] theorem modStream_loadStatus (n : Nat) (f : Stream → Stream) : (s.modStream n f).loadStatus = s.loadStatus := rfl
@[simp] theorem modStream_unitQ (n : Nat) (f : Stream → Stream) : (s.modStream n f).unitQ = s.unitQ := rfl
@[simp] theorem modStream_jobs (n : Nat) (f : Stream → Stream) : (s.modStream n f).jobs = s.jobs := rfl
@[simp] theorem modStream_abr (n : Nat) (f : Stream → Stream) : (s.modStream n f).abr = s.abr := rfl
@[simp] theorem modStream_selected (n : Nat) (f : Stream → Stream) : (s.modStream n f).selected = s.selected := rfl
@[simp] theorem modStream_matched (n : Nat) (f : Stream → Stream) : (s.modStream n f).matched = s.matched := rfl
@[simp] theorem modStream_outvoted (n : Nat) (f : Stream → Stream) : (s.modStream n f).outvoted = s.outvoted := rfl
@[simp] theorem modStream_ringPos (n : Nat) (f : Stream → Stream) : (s.modStream n f).ringPos = s.ringPos := rfl
@[simp] theorem modStream_samplePos (n : Nat) (f : Stream → Stream) : (s.modStream n f).samplePos = s.samplePos := rfl
@[simp] theorem modStream_sampleDue (n : Nat) (f : Stream → Stream) : (s.modStream n f).sampleDue = s.sampleDue := rfl
@[simp] theorem modStream_saved (n : Nat) (f : Stream → Stream) : (s.modStream n f).saved = s.saved := rfl
@[simp] theorem modStream_window (n : Nat) (f : Stream → Stream) : (s.modStream n f).window = s.window := rfl
@[simp] theorem modStream_sent (n : Nat) (f : Stream → Stream) : (s.modStream n f).sent = s.sent := rfl
@[simp] theorem modStream_inputs (n : Nat) (f : Stream → Stream) : (s.modStream n f).inputs = s.inputs := rfl
@[simp] theorem modStream_arriving (n : Nat) (f : Stream → Stream) : (s.modStream n f).arriving = s.arriving := rfl
@[simp] theorem modStream_nextTag (n : Nat) (f : Stream → Stream) : (s.modStream n f).nextTag = s.nextTag := rfl
@[simp] theorem modStream_withdrawn (n : Nat) (f : Stream → Stream) : (s.modStream n f).withdrawn = s.withdrawn := rfl
@[simp] theorem modStream_boot (n : Nat) (f : Stream → Stream) : (s.modStream n f).boot = s.boot := rfl
@[simp] theorem modStream_primary (n : Nat) (f : Stream → Stream) : (s.modStream n f).primary = s.primary := rfl
@[simp] theorem modStream_backup (n : Nat) (f : Stream → Stream) : (s.modStream n f).backup = s.backup := rfl
@[simp] theorem modStream_running (n : Nat) (f : Stream → Stream) : (s.modStream n f).running = s.running := rfl
@[simp] theorem modStream_staged (n : Nat) (f : Stream → Stream) : (s.modStream n f).staged = s.staged := rfl
@[simp] theorem modStream_config (n : Nat) (f : Stream → Stream) : (s.modStream n f).config = s.config := rfl
@[simp] theorem modStream_applied (n : Nat) (f : Stream → Stream) : (s.modStream n f).applied = s.applied := rfl
@[simp] theorem modStream_modules (n : Nat) (f : Stream → Stream) : (s.modStream n f).modules = s.modules := rfl
@[simp] theorem modStream_ports (n : Nat) (f : Stream → Stream) : (s.modStream n f).ports = s.ports := rfl
@[simp] theorem modStream_islands (n : Nat) (f : Stream → Stream) : (s.modStream n f).islands = s.islands := rfl

/-! ### Modifications are updates -/

theorem modWave_eq (p : Nat) (f : Wave → Wave) : s.modWave p f = s.setWave p (f (s.wave p)) := rfl
theorem modCore_eq (c : Nat) (f : Core → Core) : s.modCore c f = s.setCore c (f (s.core c)) := rfl
theorem modMeta_eq (r : Nat) (f : RowMeta → RowMeta) : s.modMeta r f = s.setMeta r (f (s.info r)) := rfl

/-! ### The accessors after an update -/

@[simp] theorem wave_setWave_same (p : Nat) (w : Wave) : (s.setWave p w).wave p = w := SMap.get_set_same ..
theorem wave_setWave_other {p q : Nat} (w : Wave) (h : q ≠ p) : (s.setWave p w).wave q = s.wave q := SMap.get_set_other _ _ _ h
theorem wave_setWave (p q : Nat) (w : Wave) : (s.setWave p w).wave q = if q = p then w else s.wave q := SMap.get_set ..
@[simp] theorem core_setCore_same (c : Nat) (v : Core) : (s.setCore c v).core c = v := SMap.get_set_same ..
theorem core_setCore_other {c d : Nat} (v : Core) (h : d ≠ c) : (s.setCore c v).core d = s.core d := SMap.get_set_other _ _ _ h
@[simp] theorem info_setMeta_same (r : Nat) (m : RowMeta) : (s.setMeta r m).info r = m := SMap.get_set_same ..
theorem info_setMeta_other {r q : Nat} (m : RowMeta) (h : q ≠ r) : (s.setMeta r m).info q = s.info q := SMap.get_set_other _ _ _ h
@[simp] theorem elem_putElem_same (k : Nat) (v : Word) (b : Bool) : (s.putElem k v b).elem k = v := SMap.get_set_same ..
theorem elem_putElem_other {k j : Nat} (v : Word) (b : Bool) (h : j ≠ k) : (s.putElem k v b).elem j = s.elem j := SMap.get_set_other _ _ _ h
@[simp] theorem poisoned_putElem_same (k : Nat) (v : Word) (b : Bool) : (s.putElem k v b).poisoned k = b := SMap.get_set_same ..
theorem poisoned_putElem_other {k j : Nat} (v : Word) (b : Bool) (h : j ≠ k) : (s.putElem k v b).poisoned j = s.poisoned j :=
  SMap.get_set_other _ _ _ h
@[simp] theorem stream_modStream_same (n : Nat) (f : Stream → Stream) : (s.modStream n f).stream n = f (s.stream n) := SMap.get_set_same ..
theorem stream_modStream_other {n k : Nat} (f : Stream → Stream) (h : k ≠ n) : (s.modStream n f).stream k = s.stream k :=
  SMap.get_set_other _ _ _ h

/-! ### What an accessor reads of a part that the update leaves -/

@[simp] theorem core_setWave (p : Nat) (w : Wave) (x : Nat) : (s.setWave p w).core x = s.core x := rfl
@[simp] theorem elem_setWave (p : Nat) (w : Wave) (x : Nat) : (s.setWave p w).elem x = s.elem x := rfl
@[simp] theorem poisoned_setWave (p : Nat) (w : Wave) (x : Nat) : (s.setWave p w).poisoned x = s.poisoned x := rfl
@[simp] theorem info_setWave (p : Nat) (w : Wave) (x : Nat) : (s.setWave p w).info x = s.info x := rfl
@[simp] theorem byte_setWave (p : Nat) (w : Wave) (x : Nat) : (s.setWave p w).byte x = s.byte x := rfl
@[simp] theorem blockOpt_setWave (p : Nat) (w : Wave) (x : Nat) : (s.setWave p w).block? x = s.block? x := rfl
@[simp] theorem launchOpt_setWave (p : Nat) (w : Wave) (x : Nat) : (s.setWave p w).launch? x = s.launch? x := rfl
@[simp] theorem block_setWave (p : Nat) (w : Wave) (x : Nat) : (s.setWave p w).block x = s.block x := rfl
@[simp] theorem launch_setWave (p : Nat) (w : Wave) (x : Nat) : (s.setWave p w).launch x = s.launch x := rfl
@[simp] theorem jobOpt_setWave (p : Nat) (w : Wave) (x : Nat) : (s.setWave p w).job? x = s.job? x := rfl
@[simp] theorem wave_setCore (c : Nat) (v : Core) (x : Nat) : (s.setCore c v).wave x = s.wave x := rfl
@[simp] theorem elem_setCore (c : Nat) (v : Core) (x : Nat) : (s.setCore c v).elem x = s.elem x := rfl
@[simp] theorem poisoned_setCore (c : Nat) (v : Core) (x : Nat) : (s.setCore c v).poisoned x = s.poisoned x := rfl
@[simp] theorem info_setCore (c : Nat) (v : Core) (x : Nat) : (s.setCore c v).info x = s.info x := rfl
@[simp] theorem byte_setCore (c : Nat) (v : Core) (x : Nat) : (s.setCore c v).byte x = s.byte x := rfl
@[simp] theorem blockOpt_setCore (c : Nat) (v : Core) (x : Nat) : (s.setCore c v).block? x = s.block? x := rfl
@[simp] theorem launchOpt_setCore (c : Nat) (v : Core) (x : Nat) : (s.setCore c v).launch? x = s.launch? x := rfl
@[simp] theorem block_setCore (c : Nat) (v : Core) (x : Nat) : (s.setCore c v).block x = s.block x := rfl
@[simp] theorem launch_setCore (c : Nat) (v : Core) (x : Nat) : (s.setCore c v).launch x = s.launch x := rfl
@[simp] theorem jobOpt_setCore (c : Nat) (v : Core) (x : Nat) : (s.setCore c v).job? x = s.job? x := rfl
@[simp] theorem wave_setMeta (r : Nat) (m : RowMeta) (x : Nat) : (s.setMeta r m).wave x = s.wave x := rfl
@[simp] theorem core_setMeta (r : Nat) (m : RowMeta) (x : Nat) : (s.setMeta r m).core x = s.core x := rfl
@[simp] theorem elem_setMeta (r : Nat) (m : RowMeta) (x : Nat) : (s.setMeta r m).elem x = s.elem x := rfl
@[simp] theorem poisoned_setMeta (r : Nat) (m : RowMeta) (x : Nat) : (s.setMeta r m).poisoned x = s.poisoned x := rfl
@[simp] theorem byte_setMeta (r : Nat) (m : RowMeta) (x : Nat) : (s.setMeta r m).byte x = s.byte x := rfl
@[simp] theorem blockOpt_setMeta (r : Nat) (m : RowMeta) (x : Nat) : (s.setMeta r m).block? x = s.block? x := rfl
@[simp] theorem launchOpt_setMeta (r : Nat) (m : RowMeta) (x : Nat) : (s.setMeta r m).launch? x = s.launch? x := rfl
@[simp] theorem block_setMeta (r : Nat) (m : RowMeta) (x : Nat) : (s.setMeta r m).block x = s.block x := rfl
@[simp] theorem launch_setMeta (r : Nat) (m : RowMeta) (x : Nat) : (s.setMeta r m).launch x = s.launch x := rfl
@[simp] theorem jobOpt_setMeta (r : Nat) (m : RowMeta) (x : Nat) : (s.setMeta r m).job? x = s.job? x := rfl
@[simp] theorem wave_putElem (k : Nat) (v : Word) (b : Bool) (x : Nat) : (s.putElem k v b).wave x = s.wave x := rfl
@[simp] theorem core_putElem (k : Nat) (v : Word) (b : Bool) (x : Nat) : (s.putElem k v b).core x = s.core x := rfl
@[simp] theorem info_putElem (k : Nat) (v : Word) (b : Bool) (x : Nat) : (s.putElem k v b).info x = s.info x := rfl
@[simp] theorem byte_putElem (k : Nat) (v : Word) (b : Bool) (x : Nat) : (s.putElem k v b).byte x = s.byte x := rfl
@[simp] theorem blockOpt_putElem (k : Nat) (v : Word) (b : Bool) (x : Nat) : (s.putElem k v b).block? x = s.block? x := rfl
@[simp] theorem launchOpt_putElem (k : Nat) (v : Word) (b : Bool) (x : Nat) : (s.putElem k v b).launch? x = s.launch? x := rfl
@[simp] theorem block_putElem (k : Nat) (v : Word) (b : Bool) (x : Nat) : (s.putElem k v b).block x = s.block x := rfl
@[simp] theorem launch_putElem (k : Nat) (v : Word) (b : Bool) (x : Nat) : (s.putElem k v b).launch x = s.launch x := rfl
@[simp] theorem jobOpt_putElem (k : Nat) (v : Word) (b : Bool) (x : Nat) : (s.putElem k v b).job? x = s.job? x := rfl
@[simp] theorem wave_modBlock (i : Nat) (f : Block → Block) (x : Nat) : (s.modBlock i f).wave x = s.wave x := rfl
@[simp] theorem core_modBlock (i : Nat) (f : Block → Block) (x : Nat) : (s.modBlock i f).core x = s.core x := rfl
@[simp] theorem elem_modBlock (i : Nat) (f : Block → Block) (x : Nat) : (s.modBlock i f).elem x = s.elem x := rfl
@[simp] theorem poisoned_modBlock (i : Nat) (f : Block → Block) (x : Nat) : (s.modBlock i f).poisoned x = s.poisoned x := rfl
@[simp] theorem info_modBlock (i : Nat) (f : Block → Block) (x : Nat) : (s.modBlock i f).info x = s.info x := rfl
@[simp] theorem byte_modBlock (i : Nat) (f : Block → Block) (x : Nat) : (s.modBlock i f).byte x = s.byte x := rfl
@[simp] theorem launchOpt_modBlock (i : Nat) (f : Block → Block) (x : Nat) : (s.modBlock i f).launch? x = s.launch? x := rfl
@[simp] theorem launch_modBlock (i : Nat) (f : Block → Block) (x : Nat) : (s.modBlock i f).launch x = s.launch x := rfl
@[simp] theorem jobOpt_modBlock (i : Nat) (f : Block → Block) (x : Nat) : (s.modBlock i f).job? x = s.job? x := rfl
@[simp] theorem wave_modLaunch (i : Nat) (f : Launch → Launch) (x : Nat) : (s.modLaunch i f).wave x = s.wave x := rfl
@[simp] theorem core_modLaunch (i : Nat) (f : Launch → Launch) (x : Nat) : (s.modLaunch i f).core x = s.core x := rfl
@[simp] theorem elem_modLaunch (i : Nat) (f : Launch → Launch) (x : Nat) : (s.modLaunch i f).elem x = s.elem x := rfl
@[simp] theorem poisoned_modLaunch (i : Nat) (f : Launch → Launch) (x : Nat) : (s.modLaunch i f).poisoned x = s.poisoned x := rfl
@[simp] theorem info_modLaunch (i : Nat) (f : Launch → Launch) (x : Nat) : (s.modLaunch i f).info x = s.info x := rfl
@[simp] theorem byte_modLaunch (i : Nat) (f : Launch → Launch) (x : Nat) : (s.modLaunch i f).byte x = s.byte x := rfl
@[simp] theorem blockOpt_modLaunch (i : Nat) (f : Launch → Launch) (x : Nat) : (s.modLaunch i f).block? x = s.block? x := rfl
@[simp] theorem block_modLaunch (i : Nat) (f : Launch → Launch) (x : Nat) : (s.modLaunch i f).block x = s.block x := rfl
@[simp] theorem jobOpt_modLaunch (i : Nat) (f : Launch → Launch) (x : Nat) : (s.modLaunch i f).job? x = s.job? x := rfl
@[simp] theorem wave_modJob (i : Nat) (f : Job → Job) (x : Nat) : (s.modJob i f).wave x = s.wave x := rfl
@[simp] theorem core_modJob (i : Nat) (f : Job → Job) (x : Nat) : (s.modJob i f).core x = s.core x := rfl
@[simp] theorem elem_modJob (i : Nat) (f : Job → Job) (x : Nat) : (s.modJob i f).elem x = s.elem x := rfl
@[simp] theorem poisoned_modJob (i : Nat) (f : Job → Job) (x : Nat) : (s.modJob i f).poisoned x = s.poisoned x := rfl
@[simp] theorem info_modJob (i : Nat) (f : Job → Job) (x : Nat) : (s.modJob i f).info x = s.info x := rfl
@[simp] theorem byte_modJob (i : Nat) (f : Job → Job) (x : Nat) : (s.modJob i f).byte x = s.byte x := rfl
@[simp] theorem blockOpt_modJob (i : Nat) (f : Job → Job) (x : Nat) : (s.modJob i f).block? x = s.block? x := rfl
@[simp] theorem launchOpt_modJob (i : Nat) (f : Job → Job) (x : Nat) : (s.modJob i f).launch? x = s.launch? x := rfl
@[simp] theorem block_modJob (i : Nat) (f : Job → Job) (x : Nat) : (s.modJob i f).block x = s.block x := rfl
@[simp] theorem launch_modJob (i : Nat) (f : Job → Job) (x : Nat) : (s.modJob i f).launch x = s.launch x := rfl
@[simp] theorem wave_modStream (n : Nat) (f : Stream → Stream) (x : Nat) : (s.modStream n f).wave x = s.wave x := rfl
@[simp] theorem core_modStream (n : Nat) (f : Stream → Stream) (x : Nat) : (s.modStream n f).core x = s.core x := rfl
@[simp] theorem elem_modStream (n : Nat) (f : Stream → Stream) (x : Nat) : (s.modStream n f).elem x = s.elem x := rfl
@[simp] theorem poisoned_modStream (n : Nat) (f : Stream → Stream) (x : Nat) : (s.modStream n f).poisoned x = s.poisoned x := rfl
@[simp] theorem info_modStream (n : Nat) (f : Stream → Stream) (x : Nat) : (s.modStream n f).info x = s.info x := rfl
@[simp] theorem byte_modStream (n : Nat) (f : Stream → Stream) (x : Nat) : (s.modStream n f).byte x = s.byte x := rfl
@[simp] theorem blockOpt_modStream (n : Nat) (f : Stream → Stream) (x : Nat) : (s.modStream n f).block? x = s.block? x := rfl
@[simp] theorem launchOpt_modStream (n : Nat) (f : Stream → Stream) (x : Nat) : (s.modStream n f).launch? x = s.launch? x := rfl
@[simp] theorem block_modStream (n : Nat) (f : Stream → Stream) (x : Nat) : (s.modStream n f).block x = s.block x := rfl
@[simp] theorem launch_modStream (n : Nat) (f : Stream → Stream) (x : Nat) : (s.modStream n f).launch x = s.launch x := rfl
@[simp] theorem jobOpt_modStream (n : Nat) (f : Stream → Stream) (x : Nat) : (s.modStream n f).job? x = s.job? x := rfl

end Sys2Proof.Machine.State
end

