-- ==== Sys2Proof/Laws/Memory.lean ====
section
/-! SUPPORT. Device memory: what a byte reads as after a store, and that every operation on memory, registers and row metadata keeps
their canonical form. -/

namespace Sys2Proof.Machine.State

/-! ### Reading a byte after a store (R324) -/

theorem putBytes_byte (bs : List Byte) : ∀ (s : State) (a x : Nat), (s.putBytes a bs).byte x =
    if a ≤ x ∧ x < a + bs.length ∧ x < memTop then bs.getD (x - a) 0 else s.byte x := by
  induction bs with
  | nil => intro s a x; simp [putBytes]; omega
  | cons b t ih =>
    intro s a x
    simp only [putBytes]
    rw [ih]
    by_cases h : a + 1 ≤ x ∧ x < a + 1 + t.length ∧ x < memTop
    · rw [if_pos h, if_pos ⟨by omega, by simp only [List.length_cons]; omega, h.2.2⟩]
      obtain ⟨k, hk⟩ : ∃ k, x - a = k + 1 := ⟨x - a - 1, by omega⟩
      rw [hk, List.getD_cons_succ, show x - (a + 1) = k by omega]
    · rw [if_neg h]
      by_cases hx : x = a
      · subst hx
        by_cases hm : x < memTop
        · simp [hm, byte, SMap.get_set_same]
        · simp [hm]
      · have hc : ¬(a ≤ x ∧ x < a + (b :: t).length ∧ x < memTop) := by
          simp only [List.length_cons]; intro hh; exact h ⟨by omega, by omega, hh.2.2⟩
        rw [if_neg hc]
        split
        · exact SMap.get_set_other _ _ _ hx
        · rfl

/-- A store changes the bytes it covers, inside device memory, and no other byte. -/
theorem store_byte (s : State) (a : Nat) (bs : List Byte) (x : Nat) : (s.store a bs).byte x =
    if a ≤ x ∧ x < a + bs.length ∧ x < memTop then bs.getD (x - a) 0 else s.byte x := by
  rw [← putBytes_byte]
  unfold store
  simp only
  split <;> rfl

theorem storePoison_byte (s : State) (a n x : Nat) : (s.storePoison a n).byte x = s.byte x := rfl

theorem putBytes_only (bs : List Byte) : ∀ (s : State) (a : Nat), ∃ m, s.putBytes a bs = { s with mem := m } := by
  induction bs with
  | nil => intro s a; exact ⟨s.mem, rfl⟩
  | cons b t ih =>
    intro s a
    simp only [putBytes]
    obtain ⟨m, hm⟩ := ih (if a < memTop then { s with mem := s.mem.set 0 a b } else s) (a + 1)
    refine ⟨m, ?_⟩
    rw [hm]
    split <;> rfl

/-- A store changes memory and the poison of its units, nothing else. -/
theorem store_only (s : State) (a : Nat) (bs : List Byte) : ∃ m q, s.store a bs = { s with mem := m, badMem := q } := by
  obtain ⟨m, hm⟩ := putBytes_only bs s a
  unfold store
  simp only [hm]
  split
  · exact ⟨m, _, rfl⟩
  · exact ⟨m, s.badMem, rfl⟩

/-! ### The canonical form -/

/-- What StepKeepsCanonical is about, as one property. -/
def Good (s : State) : Prop := s.canonical = true ∧ s.memInside = true

theorem good_iff (s : State) : s.Good ↔ s.mem.wf 0 = true ∧ s.elems.wf 0 = true ∧ s.bad.wf false = true ∧ s.badMem.wf false = true ∧
    s.rows.wf {} = true ∧ ∀ e ∈ s.mem, e.1 < memTop := by
  simp only [Good, canonical, memInside, Memory.wf, Bool.and_eq_true, List.all_eq_true, decide_eq_true_eq]
  tauto

theorem good_reset : State.reset.Good := by rw [good_iff]; exact ⟨rfl, rfl, rfl, rfl, rfl, fun e he => by cases he⟩

/-- Only these five fields matter. -/
theorem Good.congr {s t : State} (h : s.Good) (h1 : t.mem = s.mem) (h2 : t.elems = s.elems) (h3 : t.bad = s.bad) (h4 : t.badMem = s.badMem)
    (h5 : t.rows = s.rows) : t.Good := by
  rw [good_iff] at *
  rw [h1, h2, h3, h4, h5]
  exact h

theorem Good.setWave {s : State} (h : s.Good) (p : Nat) (w : Wave) : (s.setWave p w).Good := h
theorem Good.modWave {s : State} (h : s.Good) (p : Nat) (f : Wave → Wave) : (s.modWave p f).Good := h
theorem Good.setCore {s : State} (h : s.Good) (c : Nat) (v : Core) : (s.setCore c v).Good := h
theorem Good.modCore {s : State} (h : s.Good) (c : Nat) (f : Core → Core) : (s.modCore c f).Good := h
theorem Good.modBay {s : State} (h : s.Good) (c b : Nat) (f : Bay → Bay) : (s.modBay c b f).Good := h
theorem Good.modGeode {s : State} (h : s.Good) (c g : Nat) (f : Geode → Geode) : (s.modGeode c g f).Good := h
theorem Good.modBlock {s : State} (h : s.Good) (i : Nat) (f : Block → Block) : (s.modBlock i f).Good := h
theorem Good.modLaunch {s : State} (h : s.Good) (i : Nat) (f : Launch → Launch) : (s.modLaunch i f).Good := h
theorem Good.modJob {s : State} (h : s.Good) (i : Nat) (f : Job → Job) : (s.modJob i f).Good := h
theorem Good.modStream {s : State} (h : s.Good) (n : Nat) (f : Stream → Stream) : (s.modStream n f).Good := h

theorem Good.setMeta {s : State} (h : s.Good) (r : Nat) (m : RowMeta) : (s.setMeta r m).Good := by
  rw [good_iff] at *
  exact ⟨h.1, h.2.1, h.2.2.1, h.2.2.2.1, SMap.wf_set _ _ _ _ h.2.2.2.2.1, h.2.2.2.2.2⟩

theorem Good.modMeta {s : State} (h : s.Good) (r : Nat) (f : RowMeta → RowMeta) : (s.modMeta r f).Good := h.setMeta r _

theorem Good.putElem {s : State} (h : s.Good) (k : Nat) (v : Word) (b : Bool) : (s.putElem k v b).Good := by
  rw [good_iff] at *
  exact ⟨h.1, SMap.wf_set _ _ _ _ h.2.1, SMap.wf_set _ _ _ _ h.2.2.1, h.2.2.2⟩

theorem Good.foldl {α : Type} {f : State → α → State} (hf : ∀ s x, s.Good → (f s x).Good) (l : List α) :
    ∀ s : State, s.Good → (l.foldl f s).Good := by
  induction l with
  | nil => exact fun s h => h
  | cons a t ih => exact fun s h => ih _ (hf s a h)

theorem Good.vput {s : State} (h : s.Good) (p v : Nat) (m : LaneMask) (f : Nat → Word) : (s.vput p v m f).Good :=
  Good.foldl (fun _ _ h => h.putElem _ _ _) _ s h

theorem Good.pend {s : State} (h : s.Good) (id : Nat) (rows : List Nat) : (s.pend id rows).Good :=
  Good.foldl (fun _ _ h => h.modMeta _ _) _ s h

theorem Good.unpend {s : State} (h : s.Good) (id : Nat) (rows : List Nat) : (s.unpend id rows).Good :=
  Good.foldl (fun s r h => by split; exacts [h.modMeta _ _, h]) _ s h

theorem Good.markRows {s : State} (h : s.Good) (p : Nat) (rows : List (Nat × Bool)) : (s.markRows p rows).Good :=
  Good.foldl (fun s r h => by split; exacts [h.setMeta _ _, h]) _ s h

theorem Good.putRow (ws : List Word) : ∀ {s : State} {bs : List Bool} (_ : s.Good) (row e : Nat), (s.putRow row e ws bs).Good := by
  induction ws with
  | nil => intro s bs h row e; exact h
  | cons w t ih => intro s bs h row e; exact ih (h.putElem _ _ _) row (e + 1)

theorem Good.zeroRows {s : State} (h : s.Good) (row n : Nat) : (s.zeroRows row n).Good := by
  rw [good_iff] at *
  exact ⟨h.1, SMap.wf_clearRange _ _ _ _ h.2.1, SMap.wf_clearRange _ _ _ _ h.2.2.1, h.2.2.2.1, SMap.wf_clearRange _ _ _ _ h.2.2.2.2.1,
    h.2.2.2.2.2⟩

theorem mem_set_key {α : Type} [DecidableEq α] (d : α) (m : SMap α) (k : Nat) (v : α) (e : Nat × α) (he : e ∈ m.set d k v) :
    e.1 = k ∨ e ∈ m := by
  unfold SMap.set at he
  split at he
  · exact .inr (List.mem_filter.mp he).1
  · rcases (SMap.mem_ins _ _ _ _).mp he with rfl | he
    · exact .inl rfl
    · exact .inr (List.mem_filter.mp he).1

theorem Good.putBytes (bs : List Byte) : ∀ {s : State} (_ : s.Good) (a : Nat), (s.putBytes a bs).Good := by
  induction bs with
  | nil => intro s h a; exact h
  | cons b t ih =>
    intro s h a
    refine ih ?_ (a + 1)
    split
    · next ha =>
      rw [good_iff] at *
      refine ⟨SMap.wf_set _ _ _ _ h.1, h.2.1, h.2.2.1, h.2.2.2.1, h.2.2.2.2.1, fun e he => ?_⟩
      rcases mem_set_key _ _ _ _ e he with hk | hm
      · omega
      · exact h.2.2.2.2.2 e hm
    · exact h

theorem Good.store {s : State} (h : s.Good) (a : Nat) (bs : List Byte) : (s.store a bs).Good := by
  have hp := Good.putBytes bs h a
  unfold State.store
  simp only
  split
  · rw [good_iff] at *
    exact ⟨hp.1, hp.2.1, hp.2.2.1, SMap.wf_clearRange _ _ _ _ hp.2.2.2.1, hp.2.2.2.2⟩
  · exact hp

theorem Good.storePoison {s : State} (h : s.Good) (a n : Nat) : (s.storePoison a n).Good := by
  have hw : ∀ (l : List Nat) (m : SMap Bool), m.wf false = true → (l.foldl (fun m i => m.set false (a / 8 + i) true) m).wf false = true := by
    intro l
    induction l with
    | nil => exact fun m h => h
    | cons i t ih => exact fun m h => ih _ (SMap.wf_set _ _ _ _ h)
  rw [good_iff] at *
  exact ⟨h.1, h.2.1, h.2.2.1, hw _ _ h.2.2.2.1, h.2.2.2.2⟩

theorem Good.send {s : State} (h : s.Good) (m : HostMsg) : (s.send m).Good := by unfold State.send; split <;> exact h
theorem Good.reply {s : State} (h : s.Good) (m : HostMsg) (st : Nat) (pl : List Byte) : (s.reply m st pl).Good := h.send _
theorem Good.report {s : State} (h : s.Good) (m : HostMsg) : (s.report m).Good := by unfold State.report; split; exacts [h.send _, h]
theorem Good.notify {s : State} (h : s.Good) (n a : Nat) : (s.notify n a).Good := h.report _

/-- Memories in canonical form that read alike are the same memory. -/
theorem Memory.ext {m n : SMap Byte} (hm : Memory.wf m = true) (hn : Memory.wf n = true) (h : ∀ a, m.get 0 a = n.get 0 a) : m = n :=
  SMap.ext_of_wf 0 m n hm hn h

end Sys2Proof.Machine.State
end

