-- ==== Sys2Proof/Laws/Ops.lean ====
section
/-! SUPPORT. What each shared operation does, said once: guards, registers, rows, messages, the way of a word to its registers. -/

namespace Sys2Proof.Machine

/-! ### Guards -/

theorem onWave_running {s : State} (f : Nat → State) (h : (s.wave s.cur).status = .running) : onWave s f = .next (f s.cur) := by
  simp [onWave, h]

/-- A word instruction answers a next state only for a running wave, and then the one its meaning gives. -/
theorem onWave_next {s t : State} {f : Nat → State} (h : onWave s f = .next t) : (s.wave s.cur).status = .running ∧ t = f s.cur := by
  unfold onWave at h
  split at h
  · next hr => exact ⟨hr, by simpa using h.symm⟩
  · simp at h

theorem when_true {n : String} {c : Bool} {s' : State} (h : c = true) : when n c s' = .next s' := by simp [when, h]

/-- A step that has no word answers a next state only under its condition. -/
theorem when_next {n : String} {c : Bool} {s' t : State} (h : when n c s' = .next t) : c = true ∧ t = s' := by
  unfold when at h
  split at h
  · next hc => exact ⟨hc, by simpa using h.symm⟩
  · simp at h

/-! ### Scalar registers and the wave -/

theorem sget_sput_same (w : Wave) {r : Nat} (v : Word) (h : r < 60) : (w.sput r v).sget r = v := by
  simp [Wave.sget, Wave.sput, h]

/-- s63 reads as 0 and discards writes (R134). -/
theorem sget_63 (w : Wave) : w.sget 63 = 0 := rfl
theorem sput_63 (w : Wave) (v : Word) : w.sput 63 v = w := rfl

theorem sget_sput_other (w : Wave) {r q : Nat} (v : Word) (hr : r < 60) (h : q ≠ r) : (w.sput r v).sget q = w.sget q := by
  simp only [Wave.sget, Wave.sput, hr, if_true]
  split
  · exact SMap.get_set_other _ _ _ h
  · rfl

theorem sput_present (w : Wave) {r : Nat} (v : Word) (h : r < 60) : (w.sput r v).present = w.present := by simp [Wave.sput, h]

@[simp] theorem advance_sget (w : Wave) (n r : Nat) : (w.advance n).sget r = w.sget r := rfl
@[simp] theorem advance_present (w : Wave) (n : Nat) : (w.advance n).present = w.present := rfl
@[simp] theorem advance_pc (w : Wave) (n : Nat) : (w.advance n).pc = w.pc + BitVec.ofNat 64 (4 * n) := rfl
@[simp] theorem jump_pc (w : Wave) (a : DWord) : (w.jump a).pc = a := rfl

namespace State

/-- A wave with a lane left does not end. -/
theorem endIfEmpty_of_present {s : State} {p : Nat} (h : (s.wave p).present ≠ 0) : s.endIfEmpty p = s := by
  unfold endIfEmpty
  rw [if_neg (fun hh => h hh.1)]

/-! ### Rows and registers -/

/-- Taking accesses into the metadata changes row metadata only. -/
theorem markRows_only (s : State) (p : Nat) (rows : List (Nat × Bool)) : ∃ r, s.markRows p rows = { s with rows := r } := by
  induction rows generalizing s with
  | nil => exact ⟨s.rows, rfl⟩
  | cons a t ih =>
    simp only [markRows, List.foldl_cons]
    split
    · next m _ => obtain ⟨r, hr⟩ := ih (s.setMeta a.1 m); exact ⟨r, hr⟩
    · exact ih s

@[simp] theorem wave_markRows (s : State) (p q : Nat) (rows : List (Nat × Bool)) : (s.markRows p rows).wave q = s.wave q := by
  obtain ⟨r, h⟩ := s.markRows_only p rows; rw [h]; rfl
@[simp] theorem elem_markRows (s : State) (p k : Nat) (rows : List (Nat × Bool)) : (s.markRows p rows).elem k = s.elem k := by
  obtain ⟨r, h⟩ := s.markRows_only p rows; rw [h]; rfl
@[simp] theorem poisoned_markRows (s : State) (p k : Nat) (rows : List (Nat × Bool)) : (s.markRows p rows).poisoned k = s.poisoned k := by
  obtain ⟨r, h⟩ := s.markRows_only p rows; rw [h]; rfl
@[simp] theorem byte_markRows (s : State) (p a : Nat) (rows : List (Nat × Bool)) : (s.markRows p rows).byte a = s.byte a := by
  obtain ⟨r, h⟩ := s.markRows_only p rows; rw [h]; rfl

/-- Marking rows pending changes row metadata only. -/
theorem pend_only (s : State) (id : Nat) (rows : List Nat) : ∃ r, s.pend id rows = { s with rows := r } := by
  induction rows generalizing s with
  | nil => exact ⟨s.rows, rfl⟩
  | cons a t ih =>
    obtain ⟨r, hr⟩ := ih (s.modMeta a (fun m => { m with pnd := true, owner := id }))
    exact ⟨r, hr⟩

/-- The rows of an operation are pending under its number. -/
theorem pend_info (s : State) (id : Nat) (rows : List Nat) (r : Nat) :
    (s.pend id rows).info r = if r ∈ rows then { s.info r with pnd := true, owner := id } else s.info r := by
  induction rows generalizing s with
  | nil => simp [pend]
  | cons a t ih =>
    have h := ih (s.modMeta a (fun m => { m with pnd := true, owner := id }))
    simp only [pend, List.foldl_cons] at h ⊢
    rw [h]
    by_cases ha : r = a
    · subst ha; simp [modMeta]
    · simp [modMeta, info_setMeta_other _ _ ha, ha]

/-- A register write changes elements and their poison (and the marks of ceiling rows), nothing else. -/
theorem vput_only (s : State) (p v : Nat) (m : LaneMask) (f : Nat → Word) :
    ∃ e b c, s.vput p v m f = { s with elems := e, bad := b, ceilWrites := c } := by
  unfold vput
  generalize lanesOf m = ls
  induction ls generalizing s with
  | nil => exact ⟨s.elems, s.bad, s.ceilWrites, rfl⟩
  | cons a t ih =>
    obtain ⟨e, b, c, h⟩ := ih (s.putElem (velem p v a) (f a) false)
    exact ⟨e, b, c, h⟩

theorem velem_lane_inj {p v l l' : Nat} (h : velem p v l = velem p v l') : l = l' := by
  unfold velem elemKey vrow slotRow rowKey at h
  omega

theorem vput_elem_other (s : State) (p v : Nat) (m : LaneMask) (f : Nat → Word) {k : Nat}
    (h : ∀ l ∈ lanesOf m, k ≠ velem p v l) : (s.vput p v m f).elem k = s.elem k := by
  unfold vput
  generalize lanesOf m = ls at h
  induction ls generalizing s with
  | nil => rfl
  | cons a t ih =>
    rw [List.foldl_cons, ih _ (fun l hl => h l (by simp [hl]))]
    exact elem_putElem_other s (f a) false (h a (by simp))

/-- A register write gives each lane of the mask its value. -/
theorem vput_vget (s : State) (p v : Nat) (m : LaneMask) (f : Nat → Word) {l : Nat} (h : l ∈ lanesOf m) :
    (s.vput p v m f).vget p v l = f l := by
  have key : ∀ (ls : List Nat) (s : State), ls.Nodup → l ∈ ls →
      (ls.foldl (fun s l => s.putElem (velem p v l) (f l) false) s).elem (velem p v l) = f l := by
    intro ls
    induction ls with
    | nil => intro s _ h; simp at h
    | cons a t ih =>
      intro s hn hl
      rw [List.foldl_cons]
      have ⟨ha, ht⟩ := List.nodup_cons.mp hn
      rcases List.mem_cons.mp hl with rfl | hl
      · have hz : ∀ (ls : List Nat) (s : State), l ∉ ls →
            (ls.foldl (fun s l => s.putElem (velem p v l) (f l) false) s).elem (velem p v l) = s.elem (velem p v l) := by
          intro ls
          induction ls with
          | nil => intro s _; rfl
          | cons b u ihu =>
            intro s hb
            rw [List.foldl_cons, ihu _ (fun h => hb (by simp [h]))]
            exact elem_putElem_other s (f b) false (fun h => hb (by simp [velem_lane_inj h]))
        rw [hz t _ ha, elem_putElem_same]
      · exact ih _ ht hl
  exact key _ s (List.nodup_range.filter _) h

/-! ### The way of a word to its registers (R46, R47, R55, R77) -/

/-- No open register is named: the form goes on. -/
theorem opened_ready {s : State} {p : Nat} {vecs scals : List Nat} (go : State → State)
    (h : ∀ o ∈ (s.wave p).opens, (∀ v ∈ vecs, v ∉ o.vecs) ∧ ∀ r ∈ scals, r ∉ o.scals) : s.opened p vecs scals go = go s := by
  have hf : (s.wave p).opens.any (fun o => o.vecs.any vecs.contains || o.scals.any scals.contains) = false := by
    rw [Bool.eq_false_iff]
    intro ht
    obtain ⟨o, ho, hx⟩ := List.any_eq_true.mp ht
    rcases Bool.or_eq_true _ _ |>.mp hx with hv | hv
    · obtain ⟨v, hv1, hv2⟩ := List.any_eq_true.mp hv
      exact (h o ho).1 v (by simpa using hv2) hv1
    · obtain ⟨v, hv1, hv2⟩ := List.any_eq_true.mp hv
      exact (h o ho).2 v (by simpa using hv2) hv1
  simp [opened, hf]

/-- Nothing holds the form: it goes on. -/
theorem unlessHeld_free {s : State} {p : Nat} {reasons : BitVec 10} (go : State → State) (h : reasons = 0) :
    s.unlessHeld p reasons go = go s := by simp [unlessHeld, h]

/-- No FENCE holds row accesses, no earlier write the writes, and no row waits: no reason to wait stands. -/
theorem rowReasons_clear {s : State} {p : Nat} {srcs dsts : Regs} (hf : s.fenced p (rowClasses p srcs dsts) = false)
    (hw : rowsOf p dsts ≠ [] → s.writesOut p = false) (hb : ∀ r ∈ accesses p srcs dsts, s.rowBlocked p r.1 = false) : s.rowReasons p srcs dsts = 0 := by
  have h : (accesses p srcs dsts).any (fun r => s.rowBlocked p r.1) = false := by
    rw [Bool.eq_false_iff]
    intro ht
    obtain ⟨r, h1, h2⟩ := List.any_eq_true.mp ht
    rw [hb r h1] at h2
    exact Bool.noConfusion h2
  have hd : (rowsOf p dsts != [] && s.writesOut p) = false := by
    rcases hx : rowsOf p dsts with _ | ⟨a, t⟩
    · rfl
    · simp [hw (by simp [hx])]
  simp [rowReasons, reason, hf, hd, h]

/-- Nothing holds the rows and none races: the accesses go into the metadata and the form goes on. -/
theorem access_clear {s : State} {p : Nat} {srcs dsts : Regs} {scals : List Nat} (go : State → State)
    (ho : ∀ o ∈ (s.wave p).opens, (∀ v ∈ (srcs ++ dsts).map (·.1), v ∉ o.vecs) ∧ ∀ r ∈ scals, r ∉ o.scals)
    (hf : s.fenced p (rowClasses p srcs dsts) = false) (hw : rowsOf p dsts ≠ [] → s.writesOut p = false)
    (hb : ∀ r ∈ accesses p srcs dsts, s.rowBlocked p r.1 = false) (hr : s.racing p (accesses p srcs dsts) = []) :
    s.access p srcs dsts scals go = go (s.markRows p (accesses p srcs dsts)) := by
  rw [access, opened_ready _ ho, unlessHeld_free _ (rowReasons_clear hf hw hb)]
  simp [accessRows, hr]

/-- No element consumed is poisoned: the form goes on. -/
theorem consume_clean {s : State} {p : Nat} {srcs : Regs} (go : State → State)
    (h : ∀ r ∈ srcs, ∀ l ∈ lanesOf r.2, s.poisoned (velem p r.1 l) = false) : s.consume p srcs go = go s := by
  have hb : s.badIn p srcs = [] := by
    unfold badIn
    refine List.flatMap_eq_nil_iff.mpr (fun r hr => ?_)
    rw [List.map_eq_nil_iff, List.filter_eq_nil_iff]
    intro l hl
    simp [h r (List.mem_dedup.mp hr) l hl]
  simp [consume, hb]

/-- A form that raises no condition md enables retires to the next word, its conditions in flg. -/
theorem retire_plain {s : State} {p n : Nat} {flags : SMap (BitVec 6)} (h : orFlags flags &&& (s.wave p).enables = 0) :
    s.retire p n flags = (s.setWave p { (s.wave p).advance n with flg := (s.wave p).flg ||| orFlags flags }).endIfEmpty p := by
  simp [retire, h]

theorem retireScalar_plain {s : State} {p n : Nat} {m : LaneMask} {f : BitVec 6} (h : f &&& (s.wave p).enables = 0) :
    s.retireScalar p n m f = (s.setWave p { (s.wave p).advance n with flg := (s.wave p).flg ||| f }).endIfEmpty p := by
  simp [retireScalar, h]

/-- A scalar form whose conditions are not enabled, or that left no lane, ends its wave if no lane is left and takes no trap. -/
theorem retireScalar_quiet {s : State} {p n : Nat} {m : LaneMask} {f : BitVec 6}
    (h : f &&& (s.wave p).enables = 0 ∨ (s.wave p).present = 0) :
    s.retireScalar p n m f =
      (s.setWave p { (s.wave p).advance n with flg := (s.wave p).flg ||| f }).endIfEmpty p := by
  unfold retireScalar
  rcases h with h | h <;> simp [h]

/-- A met wait that closes no due trap goes on, its flags closed. -/
theorem closeWait_none {s : State} {p : Nat} {mask : BitVec 12} {addr : DWord} {k : Nat} (go : State → State)
    (h : (s.wave p).due = []) : s.closeWait p mask addr k go = go (s.modWave p (fun w => { w.closeFlags mask with due := [] })) := by
  simp [closeWait, modWave, h]

/-! ### What holds a row -/

theorem rowHeld_of_pending {s : State} {r : Nat} (h : (s.info r).pnd = true) : s.rowHeld r = true := by simp [rowHeld, rowPending, h]

theorem rowBlocked_of_held {s : State} {p r : Nat} (h : s.rowHeld r = true) : s.rowBlocked p r = true := by simp [rowBlocked, h]

theorem rowHeld_free {s : State} {r : Nat} (hp : (s.info r).pnd = false) (he : (s.info r).exp = false)
    (hf : (s.core (r / rowsPerCore)).forced = []) : s.rowHeld r = false := by simp [rowHeld, rowPending, phaseHeld, hp, he, hf]

theorem copyTouch_free {s : State} {p r : Nat} (h : s.copies = []) : s.copyTouch p r = false := by simp [copyTouch, h]

theorem handleTouch_free {s : State} {p r : Nat} (ho : s.ops = []) (hc : s.copies = []) : s.handleTouch p r = false := by
  simp [handleTouch, ho, copyTouch_free hc]

theorem boundTouch_free {s : State} {p r : Nat} (h : (s.core (coreOf p)).geodeQ = []) : s.boundTouch p r = false := by simp [boundTouch, h]

theorem writesOut_free {s : State} {p : Nat} (ho : s.ops = []) (hc : s.copies = []) : s.writesOut p = false := by simp [writesOut, ho, hc]

theorem accessBefore_free {s : State} {p id : Nat} (h : s.ops = []) : s.accessBefore p id = false := by simp [accessBefore, h]

/-- A row that nothing holds, in a machine with nothing in flight, holds no access of any wave. -/
theorem rowBlocked_free {s : State} {p r : Nat} (hh : s.rowHeld r = false) (ho : s.ops = []) (hc : s.copies = [])
    (hg : (s.core (coreOf p)).geodeQ = []) : s.rowBlocked p r = false := by
  simp [rowBlocked, ownTouch, hh, handleTouch_free ho hc, boundTouch_free hg]

/-! ### Arrivals -/

theorem outcomeFixed_iff (b : Block) (now : DWord) : b.outcomeFixed now = true ↔ ∃ c, b.landed = some c ∧ c ≠ now := by
  cases h : b.landed <;> simp [Block.outcomeFixed, h]

theorem land_only (s : State) (c : DWord) : ∃ bs, s.land c = { s with blocks := bs } := ⟨_, rfl⟩

/-! ### Time passes (R33, R271, R272) -/

/-- Looking afresh at what a wave waits for writes that wave at most. -/
theorem recheck_only (s : State) (p : Nat) : ∃ ws, s.recheck p = { s with waves := ws } := by
  unfold recheck
  dsimp only
  split
  · exact ⟨_, rfl⟩
  split
  · split
    · split <;> exact ⟨_, rfl⟩
    · exact ⟨_, rfl⟩
  · exact ⟨_, rfl⟩

/-- It changes the wave's reasons, its time at a flag, its place in the active set and the pages it missed, and no other wave. -/
theorem recheck_wave (s : State) (p q : Nat) :
    ∃ r l a m, (s.recheck p).wave q = { s.wave q with reasons := r, flagWaitSince := l, active := a, missed := m } := by
  have keep : ∃ r l a m, s.wave q = { s.wave q with reasons := r, flagWaitSince := l, active := a, missed := m } := ⟨_, _, _, _, rfl⟩
  have upd : ∀ f : Wave → Wave, (∀ w, ∃ r l a m, f w = { w with reasons := r, flagWaitSince := l, active := a, missed := m }) →
      ∃ r l a m, (s.modWave p f).wave q = { s.wave q with reasons := r, flagWaitSince := l, active := a, missed := m } := by
    intro f hf
    by_cases h : q = p
    · subst h
      simpa [modWave] using hf (s.wave q)
    · rw [modWave, wave_setWave_other _ _ h]
      exact keep
  unfold recheck
  dsimp only
  split
  · exact keep
  split
  · split
    · split
      · exact upd _ fun _ => ⟨_, _, _, _, rfl⟩
      · exact keep
    · exact upd _ fun _ => ⟨_, _, _, _, rfl⟩
  · exact keep

theorem recheckAll_only (s : State) : ∃ ws, s.recheckAll = { s with waves := ws } := by
  unfold recheckAll
  generalize s.waves.filter _ = l
  induction l generalizing s with
  | nil => exact ⟨_, rfl⟩
  | cons x l ih =>
    obtain ⟨ws, h⟩ := recheck_only s x.1
    obtain ⟨vs, h'⟩ := ih (s.recheck x.1)
    exact ⟨vs, by rw [List.foldl_cons, h', h]⟩

theorem recheckAll_wave (s : State) (q : Nat) :
    ∃ r l a m, s.recheckAll.wave q = { s.wave q with reasons := r, flagWaitSince := l, active := a, missed := m } := by
  unfold recheckAll
  generalize s.waves.filter _ = ws
  induction ws generalizing s with
  | nil => exact ⟨_, _, _, _, rfl⟩
  | cons x ws ih =>
    obtain ⟨r, l, a, m, h⟩ := recheck_wave s x.1 q
    obtain ⟨r', l', a', m', h'⟩ := ih (s.recheck x.1)
    exact ⟨r', l', a', m', by rw [List.foldl_cons, h', h]⟩

theorem renew_wave (s : State) (q : Nat) : ∃ t, s.renew.wave q = { s.wave q with readySince := t } := by
  simp only [renew, wave]
  rw [SMap.get_mapVal {} _ s.waves q (by simp)]
  split
  · exact ⟨_, rfl⟩
  · exact ⟨_, rfl⟩

/-- A collection that is over, or one that is not (R42). -/
theorem collect_wave (s : State) (q : Nat) : ∃ g e, s.collect.wave q = { s.wave q with gathered := g, gathering := e } := by
  simp only [collect, wave]
  rw [SMap.get_mapVal {} _ s.waves q (by simp)]
  split
  · split <;> exact ⟨_, _, rfl⟩
  · exact ⟨_, _, rfl⟩

/-- Before a move a wave's registers, its place in its code and its status stay. -/
theorem elapse_wave (s : State) (q : Nat) : ∃ r l a m t g e,
    s.elapse.wave q = { s.wave q with
      reasons := r, flagWaitSince := l, active := a, missed := m, readySince := t, gathered := g, gathering := e } := by
  let u : State := State.land { s with tick := s.tick + 1, clock := s.clock + BitVec.ofNat 64 (Config.delay s.tick) } s.clock
  obtain ⟨g, e, hg⟩ := collect_wave u q
  obtain ⟨t, ht⟩ := renew_wave u.collect q
  obtain ⟨r, l, a, m, h⟩ := recheckAll_wave u.collect.renew q
  exact ⟨r, l, a, m, t, g, e, h.trans (by rw [ht, hg]; rfl)⟩

/-- Before a move only clocks, waves, the landing of arrivals and the corrected errors change. -/
theorem elapse_only (s : State) : ∃ n c ws bs e, s.elapse = { s with tick := n, clock := c, waves := ws, blocks := bs, corrected := e } := by
  have key : ∀ u : State, ∃ ws e, u.recheckAll.correct = { u with waves := ws, corrected := e } := fun u => by
    obtain ⟨ws, h⟩ := recheckAll_only u
    rw [h]
    exact ⟨_, _, rfl⟩
  obtain ⟨ws, e, h⟩ := key (State.renew (State.collect (State.land
    { s with tick := s.tick + 1, clock := s.clock + BitVec.ofNat 64 (Config.delay s.tick) } s.clock)))
  exact ⟨_, _, ws, _, e, h⟩

/-! ### The turn of an agent (R42, R50) -/

@[simp] theorem correct_wave (s : State) (p : Nat) : s.correct.wave p = s.wave p := rfl
@[simp] theorem correct_elem (s : State) (k : Nat) : s.correct.elem k = s.elem k := rfl
@[simp] theorem correct_byte (s : State) (a : Nat) : s.correct.byte a = s.byte a := rfl
@[simp] theorem correct_core (s : State) (c : Nat) : s.correct.core c = s.core c := rfl
@[simp] theorem gather_elem (s : State) (p n k : Nat) : (s.gather p n).elem k = s.elem k := rfl
@[simp] theorem gather_byte (s : State) (p n a : Nat) : (s.gather p n).byte a = s.byte a := rfl

/-- A wave that collects stays at its word until the collection is over, which a second turn does not put off. -/
theorem gather_wave (s : State) (p n : Nat) :
    ((s.gather p n).wave p).pc = (s.wave p).pc ∧ ((s.gather p n).wave p).k = (s.wave p).k ∧
    ((s.gather p n).wave p).gathering = some ((s.wave p).gathering.getD (s.clock + BitVec.ofNat 64 n)) := by
  simp [gather, stall, stallAll, modWave]

/-- Only a decoded word whose operands are in hand takes its pipe's port (R271, R273). -/
theorem takesPort_word {s : State} {p : Nat} (h : s.takesPort p = true) :
    (s.wave p).k ≠ 0 ∧ (s.wave p).trap = none ∧ s.dueNow p = none ∧
    ∃ i, (s.wave p).nextInstr = .ok i ∧ (s.wave p).collects i = false := by
  unfold takesPort at h
  cases hi : (s.wave p).nextInstr <;> simp_all

/-! ### Exceptions -/

/-- A trap whose handler can be entered is entered (R115, R116). -/
theorem tryTrap_ready {s : State} {p : Nat} {t : TrapReq} (h : s.trapReady p = true) (hr : s.racing p (trapRows p) = []) :
    s.tryTrap p t = s.enterTrap p t := by simp [tryTrap, h, hr]

/-- Without a handler a trap halts the context with its own cause and detail (R115). -/
theorem trap_no_handler {s : State} {p : Nat} {t : TrapReq} (h : s.trapVector p = 0) : s.trap p t = s.halt p t.cause t.detail t.lanes := by
  simp [trap, h]

/-- Inside the handler it halts with cause 0x0023 and its cause as detail (R115). -/
theorem trap_in_handler {s : State} {p : Nat} {t : TrapReq} (h : s.trapVector p ≠ 0) (hh : (s.wave p).hnd = true) :
    s.trap p t = s.halt p 0x23 t.cause t.lanes := by
  unfold trap
  simp only
  rw [if_neg h, if_pos hh]

/-! ### Messages (R320, R321) -/

theorem send_up {s : State} {m : HostMsg} (h : (s.modules.get {} m.module).up = true) : s.send m = { s with sent := s.sent ++ [m] } := by
  simp [send, h]

/-- A reply on a module that is up is the last message sent. -/
theorem reply_answers {s : State} {m : HostMsg} (st : Nat) (pl : List Byte) (h : (s.modules.get {} m.module).up = true) :
    (s.reply m st pl).answers m st pl := by
  rw [answers, reply, send_up (by simpa using h)]
  simp

/-- A message that its handler hears is acted on. -/
theorem receive_hears {s : State} {m : HostMsg} {typ sub limit : Nat} {mask : DWord} (go : State → State) (h : s.hears m typ sub limit mask) :
    s.receive m typ sub limit mask go = go s := by
  obtain ⟨h1, h2, h3, h4, h5, h6, h7, h8, h9⟩ := h
  unfold receive
  rw [if_neg (by simp [h1, h3]; omega), if_neg (by simp [h1]), if_neg]
  rintro (h | h | h | h | h | h)
  · simp [h4] at h
  · exact h h5
  · exact h h6
  · omega
  · exact h h8
  · rcases h9 with h9 | h9
    · exact h.1 h9
    · exact h.2 h9

end State

/-! ### Scalar forms (R134 to R136) -/

/-- A scalar form that ignores TYPE writes its destination and goes on. -/
theorem scalarMove_ready {s : State} {p n d : Nat} {reads : List Nat} (f : Wave → Word)
    (h : ∀ o ∈ (s.wave p).opens, ∀ r ∈ d :: reads, r ∉ o.scals) :
    s.scalarMove p n reads d f = (s.setWave p (((s.wave p).sput d (f (s.wave p))).advance n)).endIfEmpty p := by
  unfold State.scalarMove
  rw [State.opened_ready _ (fun o ho => ⟨by simp, h o ho⟩)]
  rfl

/-- A typed scalar form whose conditions md does not enable writes its destination and flg and goes on. -/
theorem scalarArith_plain {s : State} {p n d : Nat} {ok : EType → Bool} {reads : List Nat} (f : Mode → EType → Wave → Nat × BitVec 6)
    (hok : ok (typeOf (s.wave p).md) = true) (h : ∀ o ∈ (s.wave p).opens, ∀ r ∈ d :: reads, r ∉ o.scals)
    (hc : (f (modeOf (s.wave p).md) (scalarType (s.wave p).md) (s.wave p)).2 &&&
      ((s.wave p).sput d (BitVec.ofNat 32 (f (modeOf (s.wave p).md) (scalarType (s.wave p).md) (s.wave p)).1)).enables = 0) :
    s.scalarArith p n ok reads d f =
      let r := f (modeOf (s.wave p).md) (scalarType (s.wave p).md) (s.wave p)
      let w := (s.wave p).sput d (BitVec.ofNat 32 r.1)
      ((s.setWave p w).setWave p { w.advance n with flg := w.flg ||| r.2 }).endIfEmpty p := by
  unfold State.scalarArith
  simp only [hok]
  rw [if_neg (by simp), State.opened_ready _ (fun o ho => ⟨by simp, h o ho⟩), State.retireScalar_plain (by simpa using hc)]
  simp

/-! ### The audit log -/

theorem leBytes_length (n v : Nat) : (leBytes n v).length = n := by
  induction n generalizing v with
  | zero => rfl
  | succ n ih => simp [leBytes, ih]

/-- An entry takes the bytes that the log counts for it (R294). -/
theorem entryImage_length (e : LogEntry) : (entryImage e).length = entryBytes e.data := by
  have h : (e.data.flatMap (fun x => leBytes 4 x.toNat)).length = 4 * e.data.length := by
    induction e.data with
    | nil => rfl
    | cons x t ih => simp only [List.flatMap_cons, List.length_append, leBytes_length, ih, List.length_cons]; omega
  simp only [entryImage, entryBytes, List.length_append, leBytes_length, h, List.length_replicate]
  omega

/-- The place of an entry lies in the region and meets no other entry's. -/
theorem State.logPlace_fits {s : State} {job n a : Nat} (h : s.logPlace job n = some a) :
    a + n ≤ s.logSize ∧ ∀ x ∈ s.logTaken, a + n ≤ x.1 ∨ x.2 ≤ a := by
  have key : ∀ {l : List Nat} {f : Nat → Bool}, ((l.find? f).or l.head?) = some a → a ∈ l := by
    intro l f h
    cases hf : l.find? f with
    | some b => rw [hf] at h; simp at h; exact h ▸ List.mem_of_find?_eq_some hf
    | none => rw [hf] at h; simp at h; exact List.mem_of_head? h
  simpa using (List.mem_filter.mp (List.mem_mergeSort.mp (key h))).2

/-- The logger writes nothing more, gives the audit up for want of room, or writes the wave's next entry and goes on. -/
theorem State.flushLog_cases (s : State) (job wave n : Nat) :
    s.flushLog job wave (n + 1) = s ∨ s.flushLog job wave (n + 1) = s.abandon job 2 ∨
    ∃ e a, e.wave = wave ∧ e.place = none ∧ s.logPlace job (entryBytes e.data) = some a ∧ s.flushLog job wave (n + 1) =
      ((s.store (s.logBase + a) (entryImage e)).modJob job
        (fun j => { j with log := j.log.map (fun x => if x = e then { x with place := some a } else x) })).flushLog job wave n := by
  simp only [State.flushLog]
  cases hl : (s.job? job).map (·.log) with
  | none => exact .inl rfl
  | some log =>
    cases he : log.find? (fun e => e.wave == wave && e.seq == (log.filter (fun e => e.wave == wave && e.place.isSome)).length && e.place.isNone) with
    | none => simp only [he]; exact .inl trivial
    | some e =>
      have hm := List.find?_some he
      simp only [Bool.and_eq_true, beq_iff_eq, Option.isNone_iff_eq_none] at hm
      cases ha : s.logPlace job (entryBytes e.data) with
      | none => simp only [he, ha]; exact .inr (.inl trivial)
      | some a => simp only [he, ha]; exact .inr (.inr ⟨e, a, hm.1.1, hm.2, ha, rfl⟩)

/-- An entry is put into the job's log and the logger goes on, or the audit is abandoned with ABR 2 or 3. -/
theorem State.putEntry_cases (s : State) (job : Nat) (e : LogEntry) (go : State → State) :
    s.putEntry job e go = s.abandon job 2 ∨ s.putEntry job e go = s.abandon job 3 ∨
    ∃ n, s.putEntry job e go =
      go ((s.modJob job (fun j => { j with log := j.log ++ [e], bytes := j.bytes + entryBytes e.data })).flushLog job e.wave n) := by
  by_cases hb : 65536 < entryBytes e.data
  · exact .inr (.inl (by simp only [State.putEntry, if_pos hb]))
  by_cases h : s.logSize < s.logUsed + entryBytes e.data
  · exact .inl (by simp only [State.putEntry, if_neg hb, if_pos h])
  by_cases hr : Config.loggerOverrun s.tick = true
  · exact .inr (.inl (by simp only [State.putEntry, if_neg hb, if_neg h, if_pos hr]))
  exact .inr (.inr ⟨_, by simp only [State.putEntry, if_neg hb, if_neg h, if_neg hr]; rfl⟩)

/-- An entry that the logger's buffer cannot hold abandons the audit with ABR 3 (R294, R301). -/
theorem State.putEntry_large (s : State) (job : Nat) (e : LogEntry) (go : State → State) (h : 65536 < entryBytes e.data) :
    s.putEntry job e go = s.abandon job 3 := if_pos h

/-! ### Scrubs, runs taken off their core, the start of PREB -/

/-- A change of the metadata of `n` rows from `r0` on, and of nothing else. -/
theorem State.foldl_modMeta (f : RowMeta → RowMeta) (c r0 : Nat) (n : Nat) (s : State) :
    (∃ rows, (List.range n).foldl (fun s i => s.modMeta (rowKey c (r0 + i)) f) s = { s with rows := rows }) ∧
    ∀ r, ((List.range n).foldl (fun s i => s.modMeta (rowKey c (r0 + i)) f) s).info r =
      if rowKey c r0 ≤ r ∧ r < rowKey c r0 + n then f (s.info r) else s.info r := by
  induction n with
  | zero => exact ⟨⟨s.rows, rfl⟩, fun r => by simp [show ¬(rowKey c r0 ≤ r ∧ r < rowKey c r0) by omega]⟩
  | succ n ih =>
    obtain ⟨⟨rows, h⟩, hi⟩ := ih
    simp only [List.range_succ, List.foldl_append, List.foldl_cons, List.foldl_nil]
    refine ⟨⟨_, by rw [h]; rfl⟩, fun r => ?_⟩
    have hk : rowKey c (r0 + n) = rowKey c r0 + n := by unfold rowKey; omega
    by_cases hr : r = rowKey c (r0 + n)
    · subst hr
      rw [State.modMeta_eq, State.info_setMeta_same, hi, if_neg (by omega), if_pos (by omega)]
    · rw [State.modMeta_eq, State.info_setMeta_other _ _ hr, hi]
      simp only [show (rowKey c r0 ≤ r ∧ r < rowKey c r0 + n) ↔ (rowKey c r0 ≤ r ∧ r < rowKey c r0 + (n + 1)) by omega]

/-- A scrub touches the metadata of the entry's rows alone, and leaves a row that an access of the phase has reached (R57). -/
theorem State.scrubRows_eq (s : State) (p entry : Nat) : ∃ rows, s.scrubRows p entry = { s with rows := rows } :=
  (State.foldl_modMeta _ _ _ _ s).1

theorem State.scrubRows_info (s : State) (p entry r : Nat) :
    let e : AditEntry := (s.wave p).adits.get {} entry
    (s.scrubRows p entry).info r = if rowKey (coreOf p) e.first ≤ r ∧ r < rowKey (coreOf p) e.first + e.rows ∧ (s.info r).stp ≠ e.phase then
      { s.info r with stp := e.phase - 1, pw := false, fr := false } else s.info r := by
  intro e
  rw [show s.scrubRows p entry = (List.range e.rows).foldl (fun s i => s.modMeta (rowKey (coreOf p) (e.first + i)) (fun m =>
    if m.stp = e.phase then m else { m with stp := e.phase - 1, pw := false, fr := false })) s from rfl, (State.foldl_modMeta _ _ _ _ s).2]
  by_cases h : (s.info r).stp = e.phase <;> simp [h]

/-- A run that is taken off its core changes neither elements nor rows nor memory. -/
theorem State.stopBlock_frame (s : State) (b : Block) :
    (s.stopBlock b).elems = s.elems ∧ (s.stopBlock b).rows = s.rows ∧ (s.stopBlock b).mem = s.mem ∧ (s.stopBlock b).jobs = s.jobs := by
  unfold State.stopBlock
  generalize s.livesOf b = l
  induction l generalizing s with
  | nil => exact ⟨rfl, rfl, rfl, rfl⟩
  | cons a t ih => exact ih (s.modWave a.2 _)

/-- A request that came while the core stalled starts PREB at the end of the counted time; an earlier one waits that time longer (R277). -/
theorem State.preemptAfter_request (a since m : DWord) (h : since.toNat < a.toNat) : preemptAfter a since m = if a.toNat < m.toNat then m else a :=
  if_pos h

theorem State.preemptAfter_earlier (a since m : DWord) (h : a.toNat ≤ since.toNat) :
    preemptAfter a since m = if since.toNat < m.toNat then a + (m - since) else a := if_neg (Nat.not_lt.mpr h)

/-! ### Fetching beyond 57 bits, images, restores -/

theorem State.translateFetch_of_lt (s : State) (p : Nat) (a : DWord) (h : a.toNat < 2 ^ 57) :
    s.translateFetch p a = s.translate (coreOf p) (s.launch (s.wave p).lid).ctx a.toNat { ex := true } := if_neg (Nat.not_le.mpr h)

theorem State.translateFetch_of_ge (s : State) (p : Nat) (a : DWord) (h : 2 ^ 57 ≤ a.toNat) : s.translateFetch p a = (.miss, s) := if_pos h

/-- A restore whose waves have legal modes changes nothing more (R87). -/
theorem State.checkModes_of_legal (s : State) (lid : Nat) (h : ∀ w ∈ s.liveWaves lid, mdLegal w.2.md = true) : s.checkModes lid = s := by
  unfold State.checkModes
  generalize s.liveWaves lid = l at h
  induction l with
  | nil => rfl
  | cons w t ih =>
    rw [List.foldl_cons, if_pos (h w (by simp))]
    exact ih (fun x hx => h x (by simp [hx]))

/-- An image that arrives changes no wave, block, element or byte (R2, R289). -/
theorem State.receiveImage_frame (s : State) (v : Saved) :
    (s.receiveImage v).waves = s.waves ∧ (s.receiveImage v).blocks = s.blocks ∧ (s.receiveImage v).elems = s.elems ∧
      (s.receiveImage v).mem = s.mem ∧ (s.receiveImage v).cores = s.cores := by
  unfold State.receiveImage; split <;> exact ⟨rfl, rfl, rfl, rfl, rfl⟩

theorem State.haltContext_of_original (s : State) (l : Launch) (cause : Nat) (h : l.replay = none) :
    s.haltContext l cause = s.raiseHalt l.lid ((State.coresOf l).headD 0) (128 * (State.coresOf l).headD 0) cause 0 0 0 0 := by
  simp [State.haltContext, h]

/-- An MDRN that a bay reads from has started, has not raced and has rows left to read (R201, R333). -/
theorem State.readAcc_started (s t : State) (c b : Nat) (cmd : BayCmd) (h : s.readAcc c b cmd = some t) :
    cmd.started = true ∧ cmd.raced = false ∧ cmd.allRead = false := by
  unfold State.readAcc at h
  split at h
  · split at h
    · cases h
    · simp_all
  · cases h

end Sys2Proof.Machine
end

