-- ==== Sys2Proof/Laws/PerInstr.lean ====
section
/-! SUPPORT. One lemma for every instruction: the encoding is at most two words (R81). -/

set_option Elab.async false

namespace Sys2Proof.Laws.Length

/-- The encoder gives at most two words; a step that has no word has none. -/
def Statement (i : Instr) : Prop := (encode i).length ≤ 2

theorem nop : Statement .nop := Nat.le_of_ble_eq_true rfl
theorem ifOpen : ∀ x0 x1, Statement (.ifOpen x0 x1) := fun _ _ => Nat.le_of_ble_eq_true rfl
theorem elseFlip : Statement .elseFlip := Nat.le_of_ble_eq_true rfl
theorem endIf : Statement .endIf := Nat.le_of_ble_eq_true rfl
theorem ifm : ∀ x0 x1, Statement (.ifm x0 x1) := fun _ _ => Nat.le_of_ble_eq_true rfl
theorem loop : ∀ x0 x1 x2, Statement (.loop x0 x1 x2) := fun _ _ _ => Nat.le_of_ble_eq_true rfl
theorem endl : ∀ x0 x1, Statement (.endl x0 x1) := fun _ _ => Nat.le_of_ble_eq_true rfl
theorem brk : ∀ x0, Statement (.brk x0) := fun _ => Nat.le_of_ble_eq_true rfl
theorem cont : ∀ x0, Statement (.cont x0) := fun _ => Nat.le_of_ble_eq_true rfl
theorem lbeg : Statement .lbeg := Nat.le_of_ble_eq_true rfl
theorem lend : ∀ x0 x1, Statement (.lend x0 x1) := fun _ _ => Nat.le_of_ble_eq_true rfl
theorem bra : ∀ x0 x1, Statement (.bra x0 x1) := fun _ _ => Nat.le_of_ble_eq_true rfl
theorem brc : ∀ x0 x1 x2, Statement (.brc x0 x1 x2) := fun _ _ _ => Nat.le_of_ble_eq_true rfl
theorem brx : ∀ x0, Statement (.brx x0) := fun _ => Nat.le_of_ble_eq_true rfl
theorem call : ∀ x0 x1, Statement (.call x0 x1) := fun _ _ => Nat.le_of_ble_eq_true rfl
theorem callx : ∀ x0 x1, Statement (.callx x0 x1) := fun _ _ => Nat.le_of_ble_eq_true rfl
theorem ret : ∀ x0, Statement (.ret x0) := fun _ => Nat.le_of_ble_eq_true rfl
theorem exit : Statement .exit := Nat.le_of_ble_eq_true rfl
theorem trap : ∀ x0, Statement (.trap x0) := fun _ => Nat.le_of_ble_eq_true rfl
theorem rte : Statement .rte := Nat.le_of_ble_eq_true rfl
theorem bkpt : ∀ x0, Statement (.bkpt x0) := fun _ => Nat.le_of_ble_eq_true rfl
theorem ppt : ∀ x0, Statement (.ppt x0) := fun _ => Nat.le_of_ble_eq_true rfl
theorem mode : ∀ x0, Statement (.mode x0) := fun _ => Nat.le_of_ble_eq_true rfl
theorem modes : ∀ x0, Statement (.modes x0) := fun _ => Nat.le_of_ble_eq_true rfl
theorem rdsr : ∀ x0 x1, Statement (.rdsr x0 x1) := fun _ _ => Nat.le_of_ble_eq_true rfl
theorem wrsr : ∀ x0 x1, Statement (.wrsr x0 x1) := fun _ _ => Nat.le_of_ble_eq_true rfl
theorem nsav : ∀ x0, Statement (.nsav x0) := fun _ => Nat.le_of_ble_eq_true rfl
theorem nrst : ∀ x0, Statement (.nrst x0) := fun _ => Nat.le_of_ble_eq_true rfl
theorem bar : ∀ x0 x1, Statement (.bar x0 x1) := fun _ _ => Nat.le_of_ble_eq_true rfl
theorem bara : ∀ x0, Statement (.bara x0) := fun _ => Nat.le_of_ble_eq_true rfl
theorem barw : ∀ x0, Statement (.barw x0) := fun _ => Nat.le_of_ble_eq_true rfl
theorem evpub : Statement .evpub := Nat.le_of_ble_eq_true rfl
theorem launch : ∀ x0, Statement (.launch x0) := fun _ => Nat.le_of_ble_eq_true rfl
theorem task : ∀ x0 x1, Statement (.task x0 x1) := fun _ _ => Nat.le_of_ble_eq_true rfl
theorem yield : Statement .yield := Nat.le_of_ble_eq_true rfl
theorem nap : ∀ x0, Statement (.nap x0) := fun _ => Nat.le_of_ble_eq_true rfl
theorem ilock : ∀ x0, Statement (.ilock x0) := fun _ => Nat.le_of_ble_eq_true rfl
theorem iunlk : ∀ x0, Statement (.iunlk x0) := fun _ => Nat.le_of_ble_eq_true rfl
theorem waitf : ∀ x0, Statement (.waitf x0) := fun _ => Nat.le_of_ble_eq_true rfl
theorem adrd : ∀ x0 x1, Statement (.adrd x0 x1) := fun _ _ => Nat.le_of_ble_eq_true rfl
theorem admix : ∀ x0 x1, Statement (.admix x0 x1) := fun _ _ => Nat.le_of_ble_eq_true rfl
theorem sadd : ∀ x0 x1 x2, Statement (.sadd x0 x1 x2) := fun _ _ _ => Nat.le_of_ble_eq_true rfl
theorem ssub : ∀ x0 x1 x2, Statement (.ssub x0 x1 x2) := fun _ _ _ => Nat.le_of_ble_eq_true rfl
theorem smul : ∀ x0 x1 x2, Statement (.smul x0 x1 x2) := fun _ _ _ => Nat.le_of_ble_eq_true rfl
theorem smulh : ∀ x0 x1 x2, Statement (.smulh x0 x1 x2) := fun _ _ _ => Nat.le_of_ble_eq_true rfl
theorem sand : ∀ x0 x1 x2, Statement (.sand x0 x1 x2) := fun _ _ _ => Nat.le_of_ble_eq_true rfl
theorem sor : ∀ x0 x1 x2, Statement (.sor x0 x1 x2) := fun _ _ _ => Nat.le_of_ble_eq_true rfl
theorem sxor : ∀ x0 x1 x2, Statement (.sxor x0 x1 x2) := fun _ _ _ => Nat.le_of_ble_eq_true rfl
theorem snot : ∀ x0 x1, Statement (.snot x0 x1) := fun _ _ => Nat.le_of_ble_eq_true rfl
theorem sshl : ∀ x0 x1 x2, Statement (.sshl x0 x1 x2) := fun _ _ _ => Nat.le_of_ble_eq_true rfl
theorem sshr : ∀ x0 x1 x2, Statement (.sshr x0 x1 x2) := fun _ _ _ => Nat.le_of_ble_eq_true rfl
theorem ssra : ∀ x0 x1 x2, Statement (.ssra x0 x1 x2) := fun _ _ _ => Nat.le_of_ble_eq_true rfl
theorem smin : ∀ x0 x1 x2, Statement (.smin x0 x1 x2) := fun _ _ _ => Nat.le_of_ble_eq_true rfl
theorem smax : ∀ x0 x1 x2, Statement (.smax x0 x1 x2) := fun _ _ _ => Nat.le_of_ble_eq_true rfl
theorem scmp : ∀ x0 x1 x2 x3, Statement (.scmp x0 x1 x2 x3) := fun _ _ _ _ => Nat.le_of_ble_eq_true rfl
theorem ssel : ∀ x0 x1 x2 x3, Statement (.ssel x0 x1 x2 x3) := fun _ _ _ _ => Nat.le_of_ble_eq_true rfl
theorem smov : ∀ x0 x1, Statement (.smov x0 x1) := fun _ _ => Nat.le_of_ble_eq_true rfl
theorem sli : ∀ x0 x1, Statement (.sli x0 x1) := fun _ _ => Nat.le_of_ble_eq_true rfl
theorem shi : ∀ x0 x1, Statement (.shi x0 x1) := fun _ _ => Nat.le_of_ble_eq_true rfl
theorem saddi : ∀ x0 x1, Statement (.saddi x0 x1) := fun _ _ => Nat.le_of_ble_eq_true rfl
theorem sbfe : ∀ x0 x1 x2 x3 x4, Statement (.sbfe x0 x1 x2 x3 x4) := fun _ _ _ _ _ => Nat.le_of_ble_eq_true rfl
theorem spopc : ∀ x0 x1, Statement (.spopc x0 x1) := fun _ _ => Nat.le_of_ble_eq_true rfl
theorem sclz : ∀ x0 x1, Statement (.sclz x0 x1) := fun _ _ => Nat.le_of_ble_eq_true rfl
theorem vadd : ∀ x0 x1 x2, Statement (.vadd x0 x1 x2) := fun _ _ _ => Nat.le_of_ble_eq_true rfl
theorem vsub : ∀ x0 x1 x2, Statement (.vsub x0 x1 x2) := fun _ _ _ => Nat.le_of_ble_eq_true rfl
theorem vmul : ∀ x0 x1 x2, Statement (.vmul x0 x1 x2) := fun _ _ _ => Nat.le_of_ble_eq_true rfl
theorem vmulh : ∀ x0 x1 x2, Statement (.vmulh x0 x1 x2) := fun _ _ _ => Nat.le_of_ble_eq_true rfl
theorem vfma : ∀ x0 x1 x2 x3, Statement (.vfma x0 x1 x2 x3) := fun _ _ _ _ => Nat.le_of_ble_eq_true rfl
theorem vmin : ∀ x0 x1 x2, Statement (.vmin x0 x1 x2) := fun _ _ _ => Nat.le_of_ble_eq_true rfl
theorem vmax : ∀ x0 x1 x2, Statement (.vmax x0 x1 x2) := fun _ _ _ => Nat.le_of_ble_eq_true rfl
theorem vabs : ∀ x0 x1, Statement (.vabs x0 x1) := fun _ _ => Nat.le_of_ble_eq_true rfl
theorem vneg : ∀ x0 x1, Statement (.vneg x0 x1) := fun _ _ => Nat.le_of_ble_eq_true rfl
theorem vand : ∀ x0 x1 x2, Statement (.vand x0 x1 x2) := fun _ _ _ => Nat.le_of_ble_eq_true rfl
theorem vor : ∀ x0 x1 x2, Statement (.vor x0 x1 x2) := fun _ _ _ => Nat.le_of_ble_eq_true rfl
theorem vxor : ∀ x0 x1 x2, Statement (.vxor x0 x1 x2) := fun _ _ _ => Nat.le_of_ble_eq_true rfl
theorem vnot : ∀ x0 x1, Statement (.vnot x0 x1) := fun _ _ => Nat.le_of_ble_eq_true rfl
theorem vshl : ∀ x0 x1 x2, Statement (.vshl x0 x1 x2) := fun _ _ _ => Nat.le_of_ble_eq_true rfl
theorem vshr : ∀ x0 x1 x2, Statement (.vshr x0 x1 x2) := fun _ _ _ => Nat.le_of_ble_eq_true rfl
theorem vsra : ∀ x0 x1 x2, Statement (.vsra x0 x1 x2) := fun _ _ _ => Nat.le_of_ble_eq_true rfl
theorem vcmp : ∀ x0 x1 x2 x3, Statement (.vcmp x0 x1 x2 x3) := fun _ _ _ _ => Nat.le_of_ble_eq_true rfl
theorem vsel : ∀ x0 x1 x2 x3, Statement (.vsel x0 x1 x2 x3) := fun _ _ _ _ => Nat.le_of_ble_eq_true rfl
theorem vmov : ∀ x0 x1, Statement (.vmov x0 x1) := fun _ _ => Nat.le_of_ble_eq_true rfl
theorem vli : ∀ x0 x1, Statement (.vli x0 x1) := fun _ _ => Nat.le_of_ble_eq_true rfl
theorem vbcs : ∀ x0 x1, Statement (.vbcs x0 x1) := fun _ _ => Nat.le_of_ble_eq_true rfl
theorem vcvt : ∀ x0 x1 x2 x3 x4, Statement (.vcvt x0 x1 x2 x3 x4) := fun _ _ _ _ _ => Nat.le_of_ble_eq_true rfl
theorem vscl : ∀ x0 x1 x2, Statement (.vscl x0 x1 x2) := fun _ _ _ => Nat.le_of_ble_eq_true rfl
theorem vbfe : ∀ x0 x1 x2 x3 x4, Statement (.vbfe x0 x1 x2 x3 x4) := fun _ _ _ _ _ => Nat.le_of_ble_eq_true rfl
theorem vbfi : ∀ x0 x1 x2 x3 x4, Statement (.vbfi x0 x1 x2 x3 x4) := fun _ _ _ _ _ => Nat.le_of_ble_eq_true rfl
theorem vpopc : ∀ x0 x1, Statement (.vpopc x0 x1) := fun _ _ => Nat.le_of_ble_eq_true rfl
theorem vclz : ∀ x0 x1, Statement (.vclz x0 x1) := fun _ _ => Nat.le_of_ble_eq_true rfl
theorem vdot : ∀ x0 x1 x2, Statement (.vdot x0 x1 x2) := fun _ _ _ => Nat.le_of_ble_eq_true rfl
theorem vdota : ∀ x0 x1 x2, Statement (.vdota x0 x1 x2) := fun _ _ _ => Nat.le_of_ble_eq_true rfl
theorem vrcp : ∀ x0 x1, Statement (.vrcp x0 x1) := fun _ _ => Nat.le_of_ble_eq_true rfl
theorem vrsq : ∀ x0 x1, Statement (.vrsq x0 x1) := fun _ _ => Nat.le_of_ble_eq_true rfl
theorem vsqrt : ∀ x0 x1, Statement (.vsqrt x0 x1) := fun _ _ => Nat.le_of_ble_eq_true rfl
theorem vex2 : ∀ x0 x1, Statement (.vex2 x0 x1) := fun _ _ => Nat.le_of_ble_eq_true rfl
theorem vlg2 : ∀ x0 x1, Statement (.vlg2 x0 x1) := fun _ _ => Nat.le_of_ble_eq_true rfl
theorem vsin : ∀ x0 x1, Statement (.vsin x0 x1) := fun _ _ => Nat.le_of_ble_eq_true rfl
theorem vcos : ∀ x0 x1, Statement (.vcos x0 x1) := fun _ _ => Nat.le_of_ble_eq_true rfl
theorem vlid : ∀ x0 x1 x2, Statement (.vlid x0 x1 x2) := fun _ _ _ => Nat.le_of_ble_eq_true rfl
theorem vshf : ∀ x0 x1 x2 x3 x4, Statement (.vshf x0 x1 x2 x3 x4) := fun _ _ _ _ _ => Nat.le_of_ble_eq_true rfl
theorem vshop : ∀ x0 x1 x2 x3 x4 x5, Statement (.vshop x0 x1 x2 x3 x4 x5) := fun _ _ _ _ _ _ => Nat.le_of_ble_eq_true rfl
theorem vsegop : ∀ x0 x1 x2 x3 x4, Statement (.vsegop x0 x1 x2 x3 x4) := fun _ _ _ _ _ => Nat.le_of_ble_eq_true rfl
theorem vbal : ∀ x0 x1 x2, Statement (.vbal x0 x1 x2) := fun _ _ _ => Nat.le_of_ble_eq_true rfl
theorem vany : ∀ x0 x1 x2, Statement (.vany x0 x1 x2) := fun _ _ _ => Nat.le_of_ble_eq_true rfl
theorem vall : ∀ x0 x1 x2, Statement (.vall x0 x1 x2) := fun _ _ _ => Nat.le_of_ble_eq_true rfl
theorem vmatch : ∀ x0 x1, Statement (.vmatch x0 x1) := fun _ _ => Nat.le_of_ble_eq_true rfl
theorem vffs : ∀ x0 x1 x2, Statement (.vffs x0 x1 x2) := fun _ _ _ => Nat.le_of_ble_eq_true rfl
theorem xget : ∀ x0 x1 x2, Statement (.xget x0 x1 x2) := fun _ _ _ => Nat.le_of_ble_eq_true rfl
theorem xput : ∀ x0 x1 x2, Statement (.xput x0 x1 x2) := fun _ _ _ => Nat.le_of_ble_eq_true rfl
theorem xgetw : ∀ x0 x1 x2, Statement (.xgetw x0 x1 x2) := fun _ _ _ => Nat.le_of_ble_eq_true rfl
theorem xputw : ∀ x0 x1 x2, Statement (.xputw x0 x1 x2) := fun _ _ _ => Nat.le_of_ble_eq_true rfl
theorem xatm : ∀ x0 x1 x2 x3 x4, Statement (.xatm x0 x1 x2 x3 x4) := fun _ _ _ _ _ => Nat.le_of_ble_eq_true rfl
theorem xexp : ∀ x0 x1 x2 x3 x4, Statement (.xexp x0 x1 x2 x3 x4) := fun _ _ _ _ _ => Nat.le_of_ble_eq_true rfl
theorem xrev : ∀ x0 x1, Statement (.xrev x0 x1) := fun _ _ => Nat.le_of_ble_eq_true rfl
theorem xatt : ∀ x0 x1 x2, Statement (.xatt x0 x1 x2) := fun _ _ _ => Nat.le_of_ble_eq_true rfl
theorem xdet : ∀ x0, Statement (.xdet x0) := fun _ => Nat.le_of_ble_eq_true rfl
theorem xalloc : ∀ x0 x1, Statement (.xalloc x0 x1) := fun _ _ => Nat.le_of_ble_eq_true rfl
theorem xfree : ∀ x0 x1 x2, Statement (.xfree x0 x1 x2) := fun _ _ _ => Nat.le_of_ble_eq_true rfl
theorem xprb : ∀ x0 x1 x2, Statement (.xprb x0 x1 x2) := fun _ _ _ => Nat.le_of_ble_eq_true rfl
theorem vldb : ∀ x0 x1 x2 x3, Statement (.vldb x0 x1 x2 x3) := fun _ _ _ _ => Nat.le_of_ble_eq_true rfl
theorem vldh : ∀ x0 x1 x2 x3, Statement (.vldh x0 x1 x2 x3) := fun _ _ _ _ => Nat.le_of_ble_eq_true rfl
theorem vldw : ∀ x0 x1 x2 x3, Statement (.vldw x0 x1 x2 x3) := fun _ _ _ _ => Nat.le_of_ble_eq_true rfl
theorem vldd : ∀ x0 x1 x2 x3, Statement (.vldd x0 x1 x2 x3) := fun _ _ _ _ => Nat.le_of_ble_eq_true rfl
theorem vstb : ∀ x0 x1 x2 x3, Statement (.vstb x0 x1 x2 x3) := fun _ _ _ _ => Nat.le_of_ble_eq_true rfl
theorem vsth : ∀ x0 x1 x2 x3, Statement (.vsth x0 x1 x2 x3) := fun _ _ _ _ => Nat.le_of_ble_eq_true rfl
theorem vstw : ∀ x0 x1 x2 x3, Statement (.vstw x0 x1 x2 x3) := fun _ _ _ _ => Nat.le_of_ble_eq_true rfl
theorem vstd : ∀ x0 x1 x2 x3, Statement (.vstd x0 x1 x2 x3) := fun _ _ _ _ => Nat.le_of_ble_eq_true rfl
theorem sldw : ∀ x0 x1 x2 x3, Statement (.sldw x0 x1 x2 x3) := fun _ _ _ _ => Nat.le_of_ble_eq_true rfl
theorem sldd : ∀ x0 x1 x2 x3, Statement (.sldd x0 x1 x2 x3) := fun _ _ _ _ => Nat.le_of_ble_eq_true rfl
theorem sstw : ∀ x0 x1 x2 x3, Statement (.sstw x0 x1 x2 x3) := fun _ _ _ _ => Nat.le_of_ble_eq_true rfl
theorem sstd : ∀ x0 x1 x2 x3, Statement (.sstd x0 x1 x2 x3) := fun _ _ _ _ => Nat.le_of_ble_eq_true rfl
theorem vamo : ∀ x0 x1 x2 x3 x4 x5 x6 x7, Statement (.vamo x0 x1 x2 x3 x4 x5 x6 x7) := fun _ _ _ _ _ _ _ _ => Nat.le_of_ble_eq_true rfl
theorem vamoc : ∀ x0 x1 x2 x3 x4 x5 x6, Statement (.vamoc x0 x1 x2 x3 x4 x5 x6) := fun _ _ _ _ _ _ _ => Nat.le_of_ble_eq_true rfl
theorem fence : ∀ x0 x1 x2, Statement (.fence x0 x1 x2) := fun _ _ _ => Nat.le_of_ble_eq_true rfl
theorem cpin : ∀ x0 x1 x2, Statement (.cpin x0 x1 x2) := fun _ _ _ => Nat.le_of_ble_eq_true rfl
theorem cpout : ∀ x0 x1 x2, Statement (.cpout x0 x1 x2) := fun _ _ _ => Nat.le_of_ble_eq_true rfl
theorem cprr : ∀ x0 x1 x2, Statement (.cprr x0 x1 x2) := fun _ _ _ => Nat.le_of_ble_eq_true rfl
theorem gath : ∀ x0 x1 x2 x3 x4, Statement (.gath x0 x1 x2 x3 x4) := fun _ _ _ _ _ => Nat.le_of_ble_eq_true rfl
theorem scat : ∀ x0 x1 x2 x3 x4, Statement (.scat x0 x1 x2 x3 x4) := fun _ _ _ _ _ => Nat.le_of_ble_eq_true rfl
theorem twall : ∀ x0, Statement (.twall x0) := fun _ => Nat.le_of_ble_eq_true rfl
theorem twany : ∀ x0 x1, Statement (.twany x0 x1) := fun _ _ => Nat.le_of_ble_eq_true rfl
theorem tffr : ∀ x0 x1, Statement (.tffr x0 x1) := fun _ _ => Nat.le_of_ble_eq_true rfl
theorem tclr : ∀ x0, Statement (.tclr x0) := fun _ => Nat.le_of_ble_eq_true rfl
theorem tstat : ∀ x0 x1, Statement (.tstat x0 x1) := fun _ _ => Nat.le_of_ble_eq_true rfl
theorem gang : ∀ x0 x1, Statement (.gang x0 x1) := fun _ _ => Nat.le_of_ble_eq_true rfl
theorem mwl : ∀ x0 x1 x2 x3, Statement (.mwl x0 x1 x2 x3) := fun _ _ _ _ => Nat.le_of_ble_eq_true rfl
theorem mma : ∀ x0 x1 x2, Statement (.mma x0 x1 x2) := fun _ _ _ => Nat.le_of_ble_eq_true rfl
theorem mdrn : ∀ x0 x1 x2 x3 x4 x5, Statement (.mdrn x0 x1 x2 x3 x4 x5) := fun _ _ _ _ _ _ => Nat.le_of_ble_eq_true rfl
theorem mzer : ∀ x0 x1 x2, Statement (.mzer x0 x1 x2) := fun _ _ _ => Nat.le_of_ble_eq_true rfl
theorem mhint : ∀ x0 x1, Statement (.mhint x0 x1) := fun _ _ => Nat.le_of_ble_eq_true rfl
theorem mstat : ∀ x0 x1 x2 x3, Statement (.mstat x0 x1 x2 x3) := fun _ _ _ _ => Nat.le_of_ble_eq_true rfl
theorem pbind : ∀ x0 x1 x2, Statement (.pbind x0 x1 x2) := fun _ _ _ => Nat.le_of_ble_eq_true rfl
theorem pinit : ∀ x0, Statement (.pinit x0) := fun _ => Nat.le_of_ble_eq_true rfl
theorem pmul : ∀ x0 x1 x2, Statement (.pmul x0 x1 x2) := fun _ _ _ => Nat.le_of_ble_eq_true rfl
theorem pdiv : ∀ x0 x1 x2, Statement (.pdiv x0 x1 x2) := fun _ _ _ => Nat.le_of_ble_eq_true rfl
theorem prsc : ∀ x0, Statement (.prsc x0) := fun _ => Nat.le_of_ble_eq_true rfl
theorem pout : ∀ x0 x1 x2, Statement (.pout x0 x1 x2) := fun _ _ _ => Nat.le_of_ble_eq_true rfl
theorem pdesc : ∀ x0 x1, Statement (.pdesc x0 x1) := fun _ _ => Nat.le_of_ble_eq_true rfl
theorem punb : ∀ x0, Statement (.punb x0) := fun _ => Nat.le_of_ble_eq_true rfl
theorem wemit : ∀ x0 x1 x2, Statement (.wemit x0 x1 x2) := fun _ _ _ => Nat.le_of_ble_eq_true rfl
theorem wmadv : ∀ x0 x1 x2, Statement (.wmadv x0 x1 x2) := fun _ _ _ => Nat.le_of_ble_eq_true rfl
theorem wmidl : ∀ x0 x1, Statement (.wmidl x0 x1) := fun _ _ => Nat.le_of_ble_eq_true rfl
theorem wmrd : ∀ x0 x1 x2, Statement (.wmrd x0 x1 x2) := fun _ _ _ => Nat.le_of_ble_eq_true rfl
theorem wrecv : ∀ x0 x1 x2 x3 x4, Statement (.wrecv x0 x1 x2 x3 x4) := fun _ _ _ _ _ => Nat.le_of_ble_eq_true rfl
theorem wlate : ∀ x0 x1 x2 x3 x4, Statement (.wlate x0 x1 x2 x3 x4) := fun _ _ _ _ _ => Nat.le_of_ble_eq_true rfl
theorem wnext : ∀ x0 x1 x2, Statement (.wnext x0 x1 x2) := fun _ _ _ => Nat.le_of_ble_eq_true rfl
theorem wpub : ∀ x0 x1 x2 x3, Statement (.wpub x0 x1 x2 x3) := fun _ _ _ _ => Nat.le_of_ble_eq_true rfl
theorem wamd : ∀ x0 x1 x2 x3, Statement (.wamd x0 x1 x2 x3) := fun _ _ _ _ => Nat.le_of_ble_eq_true rfl
theorem wrel : ∀ x0 x1 x2, Statement (.wrel x0 x1 x2) := fun _ _ _ => Nat.le_of_ble_eq_true rfl
theorem trmp : ∀ x0 x1, Statement (.trmp x0 x1) := fun _ _ => Nat.le_of_ble_eq_true rfl
theorem trmpr : ∀ x0 x1, Statement (.trmpr x0 x1) := fun _ _ => Nat.le_of_ble_eq_true rfl
theorem patch : ∀ x0, Statement (.patch x0) := fun _ => Nat.le_of_ble_eq_true rfl
theorem clauseIssue : ∀ x0, Statement (.clauseIssue x0) := fun _ => Nat.le_of_ble_eq_true rfl
theorem returningOperationComplete : ∀ x0, Statement (.returningOperationComplete x0) := fun _ => Nat.le_of_ble_eq_true rfl
theorem storePerformed : ∀ x0 x1, Statement (.storePerformed x0 x1) := fun _ _ => Nat.le_of_ble_eq_true rfl
theorem flagWaitDemotion : ∀ x0, Statement (.flagWaitDemotion x0) := fun _ => Nat.le_of_ble_eq_true rfl
theorem napExpiry : ∀ x0, Statement (.napExpiry x0) := fun _ => Nat.le_of_ble_eq_true rfl
theorem ageingDisplacement : ∀ x0 x1, Statement (.ageingDisplacement x0 x1) := fun _ _ => Nat.le_of_ble_eq_true rfl
theorem slotRelease : ∀ x0, Statement (.slotRelease x0) := fun _ => Nat.le_of_ble_eq_true rfl
theorem barrierGenerationComplete : ∀ x0, Statement (.barrierGenerationComplete x0) := fun _ => Nat.le_of_ble_eq_true rfl
theorem aditScrubEnd : ∀ x0 x1, Statement (.aditScrubEnd x0 x1) := fun _ _ => Nat.le_of_ble_eq_true rfl
theorem aditDrainComplete : ∀ x0 x1, Statement (.aditDrainComplete x0 x1) := fun _ _ => Nat.le_of_ble_eq_true rfl
theorem remoteAccessAccept : ∀ x0, Statement (.remoteAccessAccept x0) := fun _ => Nat.le_of_ble_eq_true rfl
theorem xattAnswer : ∀ x0, Statement (.xattAnswer x0) := fun _ => Nat.le_of_ble_eq_true rfl
theorem taskWaveFormation : ∀ x0, Statement (.taskWaveFormation x0) := fun _ => Nat.le_of_ble_eq_true rfl
theorem taskWaitTimeout : ∀ x0, Statement (.taskWaitTimeout x0) := fun _ => Nat.le_of_ble_eq_true rfl
theorem gangRendezvousComplete : ∀ x0 x1, Statement (.gangRendezvousComplete x0 x1) := fun _ _ => Nat.le_of_ble_eq_true rfl
theorem gangTimeout : ∀ x0 x1, Statement (.gangTimeout x0 x1) := fun _ _ => Nat.le_of_ble_eq_true rfl
theorem bayCommandStart : ∀ x0 x1 x2, Statement (.bayCommandStart x0 x1 x2) := fun _ _ _ => Nat.le_of_ble_eq_true rfl
theorem latchReady : ∀ x0 x1 x2, Statement (.latchReady x0 x1 x2) := fun _ _ _ => Nat.le_of_ble_eq_true rfl
theorem mmaRetire : ∀ x0 x1, Statement (.mmaRetire x0 x1) := fun _ _ => Nat.le_of_ble_eq_true rfl
theorem accumulationWrite : ∀ x0 x1, Statement (.accumulationWrite x0 x1) := fun _ _ => Nat.le_of_ble_eq_true rfl
theorem drainRowWrite : ∀ x0 x1, Statement (.drainRowWrite x0 x1) := fun _ _ => Nat.le_of_ble_eq_true rfl
theorem rampUpEnd : ∀ x0 x1, Statement (.rampUpEnd x0 x1) := fun _ _ => Nat.le_of_ble_eq_true rfl
theorem rampDownStart : ∀ x0 x1, Statement (.rampDownStart x0 x1) := fun _ _ => Nat.le_of_ble_eq_true rfl
theorem rampDownEnd : ∀ x0 x1, Statement (.rampDownEnd x0 x1) := fun _ _ => Nat.le_of_ble_eq_true rfl
theorem geodeCommandComplete : ∀ x0, Statement (.geodeCommandComplete x0) := fun _ => Nat.le_of_ble_eq_true rfl
theorem engineRowDelivery : ∀ x0 x1, Statement (.engineRowDelivery x0 x1) := fun _ _ => Nat.le_of_ble_eq_true rfl
theorem forcedWriteApply : ∀ x0, Statement (.forcedWriteApply x0) := fun _ => Nat.le_of_ble_eq_true rfl
theorem watermarkUnitEntry : ∀ x0, Statement (.watermarkUnitEntry x0) := fun _ => Nat.le_of_ble_eq_true rfl
theorem idleTimeout : ∀ x0 x1, Statement (.idleTimeout x0 x1) := fun _ _ => Nat.le_of_ble_eq_true rfl
theorem scaleOutRecord : ∀ x0 x1 x2 x3, Statement (.scaleOutRecord x0 x1 x2 x3) := fun _ _ _ _ => Nat.le_of_ble_eq_true rfl
theorem translationMiss : ∀ x0, Statement (.translationMiss x0) := fun _ => Nat.le_of_ble_eq_true rfl
theorem faultReply : ∀ x0, Statement (.faultReply x0) := fun _ => Nat.le_of_ble_eq_true rfl
theorem stallEscalation : ∀ x0, Statement (.stallEscalation x0) := fun _ => Nat.le_of_ble_eq_true rfl
theorem haltLineArrival : ∀ x0 x1, Statement (.haltLineArrival x0 x1) := fun _ _ => Nat.le_of_ble_eq_true rfl
theorem haltEnginesStopped : ∀ x0 x1, Statement (.haltEnginesStopped x0 x1) := fun _ _ => Nat.le_of_ble_eq_true rfl
theorem preemptionRequest : ∀ x0, Statement (.preemptionRequest x0) := fun _ => Nat.le_of_ble_eq_true rfl
theorem preemptionBoundExpiry : ∀ x0, Statement (.preemptionBoundExpiry x0) := fun _ => Nat.le_of_ble_eq_true rfl
theorem waveSave : ∀ x0, Statement (.waveSave x0) := fun _ => Nat.le_of_ble_eq_true rfl
theorem saveTimeout : ∀ x0, Statement (.saveTimeout x0) := fun _ => Nat.le_of_ble_eq_true rfl
theorem contextRestore : ∀ x0, Statement (.contextRestore x0) := fun _ => Nat.le_of_ble_eq_true rfl
theorem timeSliceExpiry : ∀ x0, Statement (.timeSliceExpiry x0) := fun _ => Nat.le_of_ble_eq_true rfl
theorem launchAcceptance : ∀ x0, Statement (.launchAcceptance x0) := fun _ => Nat.le_of_ble_eq_true rfl
theorem rectangleClaim : ∀ x0 x1, Statement (.rectangleClaim x0 x1) := fun _ _ => Nat.le_of_ble_eq_true rfl
theorem blockPlacement : ∀ x0, Statement (.blockPlacement x0) := fun _ => Nat.le_of_ble_eq_true rfl
theorem samplePeriodExpiry : Statement .samplePeriodExpiry := Nat.le_of_ble_eq_true rfl
theorem auditReplayStart : ∀ x0, Statement (.auditReplayStart x0) := fun _ => Nat.le_of_ble_eq_true rfl
theorem auditThirdRunStart : ∀ x0, Statement (.auditThirdRunStart x0) := fun _ => Nat.le_of_ble_eq_true rfl
theorem auditVerdict : ∀ x0, Statement (.auditVerdict x0) := fun _ => Nat.le_of_ble_eq_true rfl
theorem auditPlacementTimeout : ∀ x0, Statement (.auditPlacementTimeout x0) := fun _ => Nat.le_of_ble_eq_true rfl
theorem captureReplay : ∀ x0 x1, Statement (.captureReplay x0 x1) := fun _ _ => Nat.le_of_ble_eq_true rfl
theorem launchMessage : ∀ x0, Statement (.launchMessage x0) := fun _ => Nat.le_of_ble_eq_true rfl
theorem streamRecordsMessage : ∀ x0, Statement (.streamRecordsMessage x0) := fun _ => Nat.le_of_ble_eq_true rfl
theorem streamAdvanceMessage : ∀ x0, Statement (.streamAdvanceMessage x0) := fun _ => Nat.le_of_ble_eq_true rfl
theorem streamIdleMessage : ∀ x0, Statement (.streamIdleMessage x0) := fun _ => Nat.le_of_ble_eq_true rfl
theorem debugStop : ∀ x0, Statement (.debugStop x0) := fun _ => Nat.le_of_ble_eq_true rfl
theorem debugRelease : ∀ x0, Statement (.debugRelease x0) := fun _ => Nat.le_of_ble_eq_true rfl
theorem debugStep : ∀ x0, Statement (.debugStep x0) := fun _ => Nat.le_of_ble_eq_true rfl
theorem debugReadState : ∀ x0, Statement (.debugReadState x0) := fun _ => Nat.le_of_ble_eq_true rfl
theorem debugWriteState : ∀ x0, Statement (.debugWriteState x0) := fun _ => Nat.le_of_ble_eq_true rfl
theorem hostStop : ∀ x0, Statement (.hostStop x0) := fun _ => Nat.le_of_ble_eq_true rfl
theorem directMemoryRead : ∀ x0, Statement (.directMemoryRead x0) := fun _ => Nat.le_of_ble_eq_true rfl
theorem directMemoryWrite : ∀ x0, Statement (.directMemoryWrite x0) := fun _ => Nat.le_of_ble_eq_true rfl
theorem controlWindowRead : ∀ x0, Statement (.controlWindowRead x0) := fun _ => Nat.le_of_ble_eq_true rfl
theorem controlWindowWrite : ∀ x0, Statement (.controlWindowWrite x0) := fun _ => Nat.le_of_ble_eq_true rfl
theorem streamTableWrite : ∀ x0, Statement (.streamTableWrite x0) := fun _ => Nat.le_of_ble_eq_true rfl
theorem tlbInvalidation : ∀ x0, Statement (.tlbInvalidation x0) := fun _ => Nat.le_of_ble_eq_true rfl
theorem quarantineClear : ∀ x0, Statement (.quarantineClear x0) := fun _ => Nat.le_of_ble_eq_true rfl
theorem attestation : ∀ x0, Statement (.attestation x0) := fun _ => Nat.le_of_ble_eq_true rfl
theorem ucieModuleDown : ∀ x0, Statement (.ucieModuleDown x0) := fun _ => Nat.le_of_ble_eq_true rfl
theorem ucieLaneTrainDown : ∀ x0, Statement (.ucieLaneTrainDown x0) := fun _ => Nat.le_of_ble_eq_true rfl
theorem portLinkDown : ∀ x0, Statement (.portLinkDown x0) := fun _ => Nat.le_of_ble_eq_true rfl
theorem remoteRetransmissionFailure : ∀ x0, Statement (.remoteRetransmissionFailure x0) := fun _ => Nat.le_of_ble_eq_true rfl
theorem remoteWriteAck : ∀ x0 x1, Statement (.remoteWriteAck x0 x1) := fun _ _ => Nat.le_of_ble_eq_true rfl
theorem powerGood : Statement .powerGood := Nat.le_of_ble_eq_true rfl
theorem islandStateChange : ∀ x0 x1, Statement (.islandStateChange x0 x1) := fun _ _ => Nat.le_of_ble_eq_true rfl
theorem thermalThrottleStart : ∀ x0, Statement (.thermalThrottleStart x0) := fun _ => Nat.le_of_ble_eq_true rfl
theorem thermalThrottleEnd : ∀ x0, Statement (.thermalThrottleEnd x0) := fun _ => Nat.le_of_ble_eq_true rfl
theorem thermalShutdown : Statement .thermalShutdown := Nat.le_of_ble_eq_true rfl
theorem kernelImageLoad : ∀ x0, Statement (.kernelImageLoad x0) := fun _ => Nat.le_of_ble_eq_true rfl
theorem kernelImageUnload : ∀ x0, Statement (.kernelImageUnload x0) := fun _ => Nat.le_of_ble_eq_true rfl
theorem scaleOutCopyTraffic : ∀ x0 x1 x2 x3, Statement (.scaleOutCopyTraffic x0 x1 x2 x3) := fun _ _ _ _ => Nat.le_of_ble_eq_true rfl
theorem portSourceAdvance : ∀ x0 x1 x2 x3, Statement (.portSourceAdvance x0 x1 x2 x3) := fun _ _ _ _ => Nat.le_of_ble_eq_true rfl
theorem uncorrectableError : ∀ x0, Statement (.uncorrectableError x0) := fun _ => Nat.le_of_ble_eq_true rfl
theorem keptLogFree : ∀ x0, Statement (.keptLogFree x0) := fun _ => Nat.le_of_ble_eq_true rfl

end Sys2Proof.Laws.Length
end

