-- ==== Sys2Proof/Tests/Slice0.lean ====
section
/-! SUPPORT. Tests: words written out from the spec's encodings, the checks of WellFormed, one step on small states, and for every
statement with hypotheses a state and operands that meet them (witness_<statement>), with what the step then gives. -/

set_option Elab.async false

namespace Sys2Proof.Tests
open Sys2Proof Sys2Proof.Machine

/-! ### Decoding -/

def reads (x : Word × Option Word × Instr) : Bool :=
  match decodeInstr x.1 x.2.1 with
  | .ok r => r.1 == x.2.2 && r.2 == (if x.2.1.isSome then 2 else 1)
  | .error _ => false

def refuses (x : Word × Option Word × DecodeErr) : Bool :=
  match decodeInstr x.1 x.2.1 with
  | .ok _ => false
  | .error e => e == x.2.2

theorem test_decode_control : ([
    (0x01000000, none, .nop),
    (0x02000702, none, .ifOpen 7 .neg),
    (0x03000000, none, .elseFlip),
    (0x04000000, none, .endIf),
    (0x05003D01, none, .ifm 61 true),
    (0x06898001, none, .loop 2 9 0x8001),
    (0x077FFFFE, none, .endl 1 0x3FFFFE),
    (0x0800003E, none, .brk 62),
    (0x09000005, none, .cont 5),
    (0x0A000000, none, .lbeg),
    (0x0BBFFFFD, none, .lend 2 0x3FFFFD),
    (0x0CC00005, none, .bra 3 5),
    (0x0DD0C001, none, .brc .pos 33 0x4001),
    (0x0D200002, none, .brc .any 0 2),
    (0x0EE80000, none, .brx 29),
    (0x0FE40001, none, .call 28 0x40001),
    (0x101C4000, none, .callx 3 17),
    (0x11280000, none, .ret 5),
    (0x12000000, none, .exit),
    (0x1300BEEF, none, .trap 0xBEEF),
    (0x14000000, none, .rte),
    (0x15000001, none, .bkpt 1),
    (0x1600012C, none, .ppt 300),
    (0x17001F0B, none, .mode 0x1F0B),
    (0x18003F00, none, .modes 63),
    (0x19040010, none, .rdsr 4 .clock),
    (0x19FE0006, none, .rdsr 254 .wid),
    (0x19FF0005, none, .rdsr 255 (.wfield 5)),
    (0x1907000C, none, .rdsr 7 (.lc 2)),
    (0x1A3F0009, none, .wrsr .flg 63),
    (0x1A08000A, none, .wrsr (.lc 0) 8),
    (0x1BC80000, none, .nsav 200),
    (0x1C00C900, none, .nrst 201),
    (0x1D068001, none, .bar 6 0x8001),
    (0x1E004002, none, .bara 0x4002),
    (0x1F3F0000, none, .barw 63),
    (0x20000000, none, .evpub),
    (0x21F00000, none, .launch 60),
    (0x222000F0, none, .task 8 240),
    (0x23000000, none, .yield),
    (0x2400FFFF, none, .nap 65535),
    (0x25300000, none, .ilock 12),
    (0x26340000, none, .iunlk 13),
    (0x27000801, none, .waitf 0x801),
    (0x28090001, none, .adrd 9 1),
    (0x29000AFF, none, .admix 10 255),
    (0xE0400007, none, .trmp 1 7),
    (0xE13FFFFF, none, .trmpr 0 0x3FFFFF),
    (0xE2155555, none, .patch 0x155555)] : List (Word × Option Word × Instr)).all reads = true := by decide +kernel

theorem test_decode_scalar : ([
    (0x30030405, none, .sadd 3 4 5),
    (0x31030405, none, .ssub 3 4 5),
    (0x32030405, none, .smul 3 4 5),
    (0x33030405, none, .smulh 3 4 5),
    (0x34030405, none, .sand 3 4 5),
    (0x35030405, none, .sor 3 4 5),
    (0x36030405, none, .sxor 3 4 5),
    (0x38030405, none, .sshl 3 4 5),
    (0x39030405, none, .sshr 3 4 5),
    (0x3A030405, none, .ssra 3 4 5),
    (0x3B030405, none, .smin 3 4 5),
    (0x3C030405, none, .smax 3 4 5),
    (0x37030400, none, .snot 3 4),
    (0x3D030405, some 0xDF000007, .scmp 3 4 5 .uno),
    (0x3E030405, some 0xDF060000, .ssel 3 4 5 6),
    (0x3F3C3F00, none, .smov 60 63),
    (0x4001FFFF, none, .sli 1 0xFFFF),
    (0x41018000, none, .shi 1 0x8000),
    (0x4201FFFE, none, .saddi 1 0xFFFE),
    (0x43030400, some 0xDF000918, .sbfe 3 4 true 8 24),
    (0x44030400, none, .spopc 3 4),
    (0x45030400, none, .sclz 3 4)] : List (Word × Option Word × Instr)).all reads = true := by decide +kernel

theorem test_decode_vector : ([
    (0x50C80405, none, .vadd 200 4 5),
    (0x51C80405, none, .vsub 200 4 5),
    (0x52C80405, none, .vmul 200 4 5),
    (0x53C80405, none, .vmulh 200 4 5),
    (0x55C80405, none, .vmin 200 4 5),
    (0x56C80405, none, .vmax 200 4 5),
    (0x59C80405, none, .vand 200 4 5),
    (0x5AC80405, none, .vor 200 4 5),
    (0x5BC80405, none, .vxor 200 4 5),
    (0x5DC80405, none, .vshl 200 4 5),
    (0x5EC80405, none, .vshr 200 4 5),
    (0x5FC80405, none, .vsra 200 4 5),
    (0x66C80405, none, .vscl 200 4 5),
    (0x6BC80405, none, .vdot 200 4 5),
    (0x6CC80405, none, .vdota 200 4 5),
    (0x74C80405, none, .vlid 200 4 5),
    (0x57FF0600, none, .vabs 255 6),
    (0x58FF0600, none, .vneg 255 6),
    (0x5CFF0600, none, .vnot 255 6),
    (0x62FF0600, none, .vmov 255 6),
    (0x64FF0600, none, .vbcs 255 6),
    (0x69FF0600, none, .vpopc 255 6),
    (0x6AFF0600, none, .vclz 255 6),
    (0x6DFF0600, none, .vrcp 255 6),
    (0x6EFF0600, none, .vrsq 255 6),
    (0x6FFF0600, none, .vsqrt 255 6),
    (0x70FF0600, none, .vex2 255 6),
    (0x71FF0600, none, .vlg2 255 6),
    (0x72FF0600, none, .vsin 255 6),
    (0x73FF0600, none, .vcos 255 6),
    (0x54010203, some 0xDF040000, .vfma 1 2 3 4),
    (0x60010203, some 0xDF000002, .vcmp 1 2 3 .lt),
    (0x61010203, some 0xDFFF0000, .vsel 1 2 3 255),
    (0x63098000, none, .vli 9 0x8000),
    (0x65010282, some 0xDF000003, .vcvt 1 2 .t8x4 .f32 3),
    (0x67010200, some 0xDF000400, .vbfe 1 2 false 32 0),
    (0x68010203, some 0xDF00009C, .vbfi 1 2 3 4 28)] : List (Word × Option Word × Instr)).all reads = true := by decide +kernel

theorem test_decode_exchange : ([
    (0x78010200, some 0xDF00017D, .vshf 1 2 0 .up 95),
    (0x78010203, some 0xDF000003, .vshf 1 2 3 .index 0),
    (0x79010200, some 0xDF000A04, .vshop 1 2 0 .xor .xor 1),
    (0x7A010203, some 0xDF000401, .vsegop 1 2 3 .max true),
    (0x7B3D0201, none, .vbal 61 2 .z),
    (0x7C3F0200, none, .vany 63 2 .nz),
    (0x7D040203, none, .vall 4 2 .nneg),
    (0x7EFD0200, none, .vmatch 253 2),
    (0x7F040202, none, .vffs 4 2 .neg)] : List (Word × Option Word × Instr)).all reads = true := by decide +kernel

theorem test_decode_indexed : ([
    (0x80050402, none, .xget 5 4 (.handle 2)),
    (0x81050440, none, .xput 5 4 .slot),
    (0x82050480, none, .xgetw 5 4 .ceil),
    (0x83053F0F, none, .xputw 5 63 (.handle 15)),
    (0x84050440, some 0xDF060009, .xatm 5 4 6 .slot 9),
    (0x8524FB00, none, .xexp 9 15 .partition true true),
    (0x8609000F, none, .xrev 9 15),
    (0x87243800, none, .xatt 9 3 true),
    (0x8800000E, none, .xdet 14),
    (0x893E0500, none, .xalloc 62 5),
    (0x8A070506, none, .xfree 7 5 6),
    (0x8B080013, none, .xprb 8 true 3)] : List (Word × Option Word × Instr)).all reads = true := by decide +kernel

theorem test_decode_memory : ([
    (0x900908EF, none, .vldb 9 8 29 7),
    (0x910908EF, none, .vldh 9 8 29 7),
    (0x920908EF, none, .vldw 9 8 29 7),
    (0x930908EF, none, .vldd 9 8 29 7),
    (0x940908EF, none, .vstb 9 8 29 7),
    (0x950908EF, none, .vsth 9 8 29 7),
    (0x960908EF, none, .vstw 9 8 29 7),
    (0x970908EF, none, .vstd 9 8 29 7),
    (0x980A3F19, none, .sldw 10 63 3 1),
    (0x990A3F19, none, .sldd 10 63 3 1),
    (0x9A0A3F19, none, .sstw 10 63 3 1),
    (0x9B0A3F19, none, .sstd 10 63 3 1),
    (0x9C09083A, some 0xDF0B0058, .vamo 9 8 7 2 8 11 .system false),
    (0x9D09083A, some 0xDFFE00B0, .vamoc 9 8 7 2 254 .partition true),
    (0x9E0A5080, none, .fence 0x0A 0x50 .package)] : List (Word × Option Word × Instr)).all reads = true := by decide +kernel

theorem test_decode_copies : ([
    (0xA023F800, none, .cpin 8 63 .ceil),
    (0xA1201400, none, .cpout 8 1 .common),
    (0xA2201400, none, .cprr 8 1 true),
    (0xA3201A07, none, .gath 8 1 true 2 7),
    (0xA4201309, none, .scat 8 1 false 3 9),
    (0xA5003E00, none, .twall 62),
    (0xA6050400, none, .twany 5 4),
    (0xA7050400, none, .tffr 5 4),
    (0xA8000400, none, .tclr 4),
    (0xA93E0003, none, .tstat 62 3)] : List (Word × Option Word × Instr)).all reads = true := by decide +kernel

theorem test_decode_matrix : ([
    (0xB0050400, none, .gang 5 4),
    (0xB1A00403, none, .mwl 2 1 4 .t4),
    (0xB2C04001, none, .mma 192 64 1),
    (0xB3200400, none, .mdrn 8 0 .b16x2 false false false),
    (0xB3F020E0, none, .mdrn 60 2 .i32 true true true),
    (0xB400000C, none, .mzer 0 0 12),
    (0xB502FFFF, none, .mhint 2 65535),
    (0xB63E0102, none, .mstat 62 1 true false),
    (0xB6020101, none, .mstat 2 1 false true)] : List (Word × Option Word × Instr)).all reads = true := by decide +kernel

theorem test_decode_geode : ([
    (0xB8090507, none, .pbind 7 9 5),
    (0xB9000006, none, .pinit 6),
    (0xBA050809, none, .pmul 5 8 9),
    (0xBB040809, none, .pdiv 4 8 9),
    (0xBC000003, none, .prsc 3),
    (0xBD090502, none, .pout 9 2 5),
    (0xBE3C0001, none, .pdesc 60 1),
    (0xBF000007, none, .punb 7)] : List (Word × Option Word × Instr)).all reads = true := by decide +kernel

theorem test_decode_stream : ([
    (0xC0F00405, none, .wemit 240 4 5),
    (0xC103043E, none, .wmadv 3 4 62),
    (0xC2030400, none, .wmidl 3 4),
    (0xC33E0403, none, .wmrd 62 4 3),
    (0xC4405009, some 0xDF000005, .wrecv 64 80 9 1 true),
    (0xC5405009, some 0xDF000002, .wlate 64 80 9 2 false),
    (0xC60A0004, none, .wnext 10 0 true),
    (0xC7F00405, some 0xDF000003, .wpub 240 4 5 3),
    (0xC8010405, some 0xDF000001, .wamd 1 4 5 1),
    (0xC9030402, none, .wrel 3 4 2)] : List (Word × Option Word × Instr)).all reads = true := by decide +kernel
/-- Words that no instruction has: undefined opcodes (0x00, the ends of each gap of the map), a header, an operand word alone or missing,
reserved bits, registers and codes out of range, reserved tool codes (R71, R73, R80, R81, R101, R138). -/
theorem test_decode_refuses : ([
    (0x00000000, none, .undefinedOpcode), (0x2A000000, none, .undefinedOpcode), (0x46000000, none, .undefinedOpcode),
    (0x75000000, none, .undefinedOpcode), (0x8F000000, none, .undefinedOpcode), (0x9F000000, none, .undefinedOpcode),
    (0xAA000000, none, .undefinedOpcode), (0xB7000000, none, .undefinedOpcode), (0xCF000000, none, .undefinedOpcode),
    (0xD0000000, none, .undefinedOpcode), (0xEF000000, none, .undefinedOpcode), (0xFF000000, none, .headerInBody),
    (0xDF000000, none, .operandWord), (0x54010203, none, .operandWord), (0x54010203, some 0x50010203, .operandWord),
    (0x01000001, none, .reservedBit), (0x02010700, none, .reservedBit), (0x02000704, none, .reservedBit), (0x30400405, none, .range),
    (0x3703043F, none, .reservedBit), (0x05003E00, none, .range), (0x06C00000, none, .range), (0x0800003F, none, .reservedBit),
    (0x0EF00000, none, .range), (0x1700000C, none, .reservedBit), (0x19000016, none, .reservedBit), (0x1A000008, none, .reservedBit),
    (0x19050010, none, .range), (0x19FF0006, none, .range), (0x210400F4, none, .reservedBit), (0x21F40000, none, .range),
    (0x220000F1, none, .range), (0x3D030405, some 0xDF000008, .reservedBit), (0x43030400, some 0xDF000000, .reservedBit),
    (0x7BFE0200, none, .range), (0x7EFE0200, none, .range), (0x800504C0, none, .reservedBit), (0x80050441, none, .reservedBit),
    (0x84050480, some 0xDF060000, .reservedBit), (0x84050440, some 0xDF06000A, .reservedBit), (0x93FF0000, none, .range),
    (0x99030000, none, .range), (0x9CFF0000, some 0xDF000080, .reservedBit), (0x9C090000, some 0xDF000060, .reservedBit),
    (0xA0000C00, none, .reservedBit), (0xA5000100, none, .range), (0xA9000004, none, .reservedBit), (0xB1C00000, none, .range),
    (0xB2000000, none, .reservedBit), (0xB2C14000, none, .range), (0xB600000F, none, .reservedBit), (0xB8000008, none, .reservedBit),
    (0xBE3D0000, none, .range), (0xC0F10000, none, .range), (0xC3000004, none, .reservedBit), (0xC4FF0000, some 0xDF000000, .range),
    (0xE3000000, none, .reservedTool), (0xE7000000, none, .reservedTool)] : List (Word × Option Word × DecodeErr)).all refuses = true := by
  decide +kernel

/-- The table's numbering: the first word in bits 31 to 0; an operand word that the table gives no bits is zero (here none). -/
theorem test_tableWord : decodeTableWord 32 0x30030405 = some (.sadd 3 4 5) ∧ decodeTableWord 32 0x00000000 = none := by decide +kernel

/-! ### Well-formedness: one ill-formed term for each check -/

theorem test_wellFormed_refuses : ([
    .ifOpen 256 .nz, .ifm 62 true, .loop 3 0 0, .loop 0 64 0, .endl 3 0, .brk 63, .cont 63, .brc .any 1 0, .brc .z 64 0, .brx 30, .call 30 0,
    .callx 30 0, .callx 0 30, .ret 31, .ppt 65536, .mode 0x000C, .mode 0x4000, .modes 64, .rdsr 0 (.wfield 6), .rdsr 256 .lane, .rdsr 255 .wid,
    .rdsr 1 .clock, .rdsr 64 .md, .wrsr .md 0, .wrsr (.lc 3) 0, .wrsr .flg 64, .nsav 256, .nrst 256, .bar 64 0, .barw 64, .launch 61, .task 61 0,
    .task 0 241, .nap 65536, .ilock 61, .iunlk 61, .adrd 64 0, .adrd 0 2, .admix 256 0, .admix 0 256, .sadd 64 0 0, .ssub 0 64 0, .smul 0 0 64,
    .smulh 64 0 0, .sand 64 0 0, .sor 64 0 0, .sxor 64 0 0, .sshl 64 0 0, .sshr 64 0 0, .ssra 64 0 0, .smin 64 0 0, .smax 64 0 0, .snot 64 0,
    .smov 0 64, .spopc 64 0, .sclz 0 64, .scmp 64 0 0 .eq, .ssel 0 0 0 64, .sli 64 0, .shi 64 0, .saddi 64 0, .sbfe 0 0 false 0 0,
    .sbfe 0 0 false 32 1, .vadd 256 0 0, .vsub 0 256 0, .vmul 0 0 256, .vmulh 256 0 0, .vmin 256 0 0, .vmax 256 0 0, .vand 256 0 0, .vor 256 0 0,
    .vxor 256 0 0, .vshl 256 0 0, .vshr 256 0 0, .vsra 256 0 0, .vdot 256 0 0, .vdota 256 0 0, .vfma 0 0 0 256, .vsel 0 0 0 256, .vabs 256 0,
    .vneg 0 256, .vnot 256 0, .vmov 256 0, .vpopc 256 0, .vclz 256 0, .vrcp 256 0, .vrsq 256 0, .vsqrt 256 0, .vex2 256 0, .vlg2 256 0,
    .vsin 256 0, .vcos 256 0, .vcmp 256 0 0 .eq, .vli 256 0, .vbcs 0 64, .vcvt 0 0 .t8x4 .f32 4, .vscl 0 0 64, .vbfe 0 0 false 33 0,
    .vbfi 0 0 0 1 32, .vlid 0 64 0, .vshf 0 0 1 .xor 0, .vshf 0 0 0 .up 96, .vshf 0 0 256 .index 0, .vshop 0 0 0 .add .index 1, .vsegop 0 0 256 .add true,
    .vbal 62 0 .nz, .vany 64 0 .nz, .vall 64 0 .nz, .vffs 64 0 .nz, .vmatch 254 0, .xget 0 0 (.handle 16), .xput 256 0 .slot, .xgetw 0 64 .slot,
    .xputw 0 64 .slot, .xatm 0 0 0 .ceil 0, .xatm 0 0 0 .slot 10, .xexp 61 0 .block true true, .xexp 0 16 .block true true, .xrev 0 16, .xatt 0 16 true,
    .xdet 16, .xalloc 63 0, .xfree 64 0 0, .xprb 63 true 0, .xprb 0 true 16, .vldb 0 0 32 0, .vldh 0 0 0 8, .vldw 256 0 0 0, .vldd 255 0 0 0,
    .vstb 0 256 0 0, .vsth 0 0 32 0, .vstw 0 0 0 8, .vstd 255 0 0 0, .sldw 64 0 0 0, .sldd 1 0 0 0, .sstw 0 64 0 0, .sstd 63 0 0 0,
    .vamo 0 0 0 0 9 0 .wave false, .vamo 255 0 0 0 0 0 .wave true, .vamoc 0 0 0 0 255 .wave true, .cpin 61 0 .slot, .cpout 0 64 .slot,
    .cprr 61 0 true, .gath 0 0 false 4 0, .gath 0 0 true 3 0, .scat 0 0 false 0 256, .twall 1, .twany 0 3, .tffr 64 0, .tclr 64, .tstat 1 0, .tstat 0 4,
    .gang 64 0, .mwl 3 0 0 .t8, .mwl 0 2 0 .t8, .mma 0 0 0, .mma 0 65 0, .mma 200 60 0, .mma 0 1 2, .mdrn 61 0 .f32 false false false,
    .mdrn 0 3 .f32 false false false, .mzer 0 63 2, .mzer 0 0 0, .mhint 0 65536, .mstat 1 0 false false, .mstat 0 0 true true, .pbind 8 0 0,
    .pinit 8, .pmul 0 256 0, .pdiv 0 0 256, .prsc 8, .pout 256 0 0, .pdesc 61 0, .punb 8, .wemit 241 0 0, .wmadv 0 0 1, .wmidl 64 0, .wmrd 1 0 0,
    .wmrd 0 0 4, .wrecv 241 0 0 0 true, .wlate 0 255 0 0 true, .wnext 1 0 true, .wnext 0 4 true, .wpub 241 0 0 0, .wamd 0 0 0 4, .wrel 0 0 4,
    .clauseIssue 6144, .storePerformed 0 96, .ageingDisplacement 48 0, .ageingDisplacement 0 4, .aditScrubEnd 0 16, .bayCommandStart 0 3 0,
    .latchReady 0 0 2, .mmaRetire 48 0, .idleTimeout 64 0, .idleTimeout 0 16, .scaleOutRecord 16 0 0 [], .scaleOutRecord 0 0 0 [1],
    .portSourceAdvance 0 64 0 0, .haltLineArrival 0 48, .timeSliceExpiry 4, .rectangleClaim 16 none, .ucieModuleDown 4, .portLinkDown 16,
    .islandStateChange 56 .run, .scaleOutCopyTraffic 16 true 0 [], .scaleOutCopyTraffic 0 true (384 * 2 ^ 30) [0],
    .uncorrectableError (.unit 1), .uncorrectableError (.element 48 0 0), .uncorrectableError (.element 0 197376 0),
    .uncorrectableError (.element 0 0 32)] : List Instr).all (fun i => !i.wf) = true := by decide +kernel

/-! ### A small state: one running wave of four lanes in a block of its own, lane 1 outside execution -/

def im : Image :=
  { id := 1, base := 0, stepping := 0xA1, interlocked := false, reserve := false, roles := [{ budget := 256, waves := 1 }], trapVector := 0x200,
    records := [], textVa := 0, textPa := 0, textLen := 4096, pageSize := 65536 }

def w0 : Wave :=
  { status := .running, budget := 256, present := 0xF, exist := 0xF, cnt := [(1, 1)], md := 0, k := 1, pc := 0x104, body := [0, 0, 0, 0],
    active := true, sregs := [(1, 5), (2, 7), (3, 0xFFFFFFFF), (4, 0x1000), (6, 0x40)] }

def d0 : State :=
  { boot := .answering, images := [im], waves := [(0, w0)], nextId := 9, nextLid := 1
    launches := [{ lid := 0, prog := .resident, hdr := { roles := [{ budget := 256, waves := 1 }] }, total := 1, started := [(0, true)] }],
    blocks := [{ id := 0, lid := 0, parties := [(0, 0)] }],
    elems := [(96, 3), (98, 0x80000000), (99, 9), (192, 4), (194, 1), (195, 2), (288, 96), (290, 98), (291, 99)] }

/-- d0 with its wave changed. -/
def dw (f : Wave → Wave) : State := d0.modWave 0 f
/-- d0 with its launch changed. -/
def dl (f : Launch → Launch) : State := d0.modLaunch 0 f
/-- d0 with its block changed. -/
def db (f : Block → Block) : State := d0.modBlock 0 f

/-- What exec leaves. -/
def after (i : Instr) (s : State) : State := match exec i s with | .next t => t | _ => {}
def goes (i : Instr) (s : State) : Bool := match exec i s with | .next _ => true | _ => false
/-- The wave after one instruction. -/
def wave (i : Instr) (s : State) : Wave := (after i s).wave 0

/-! ### Control -/

theorem witness_decode : (Instr.sbfe 3 4 true 8 24).wf = true ∧ encode (.sbfe 3 4 true 8 24) ≠ [] ∧
    encode (.sbfe 3 4 true 8 24) = [0x43030400, 0xDF000918] := by decide +kernel

/-- Each kind of refusal of DecodeRefuses (R63, R65, R70, R73, R75). -/
theorem witness_refuses :
    [0x2A000000, 0x4F000000, 0x77123456, 0xCADE0000, 0xEF000000].all (fun x => refuses (x, none, .undefinedOpcode)) = true ∧
    refuses (0xE3000000, none, .reservedTool) = true ∧ refuses (0xDF000000, none, .operandWord) = true ∧ refuses (0xF5000000, none, .headerInBody) = true ∧
    reads (0x43030400, some 0xDF000918, .sbfe 3 4 true 8 24) = true ∧ refuses (0x43030400, none, .operandWord) = true ∧
    refuses (0x43030400, some 0x30030405, .operandWord) = true := by decide +kernel

/-- A clause of two words; BRA before the last word; a third special function; an operation with no flag. -/
theorem witness_decode_clause :
    ((decodeClause (!false) 0xF002FF10 [0x30030102, 0x0CC00005]).toOption).map (fun l => l.map (·.1)) = some [1, 2] ∧
    (match decodeClause (!false) 0xF002FF10 [0x0CC00005, 0x30030102] with | .error e => e == (1, .notLast) | _ => false) = true ∧
    (match decodeClause (!false) 0xF002FF00 (encode (.vrcp 1 2)) with | .error e => e == (1, .noFlag) | _ => false) = true ∧
    (match decodeClause (!false) 0xF0021120 (List.replicate 3 (encode (.vrcp 1 2))).flatten with | .error e => e == (3, .thirdLong) | _ => false) = true ∧
    (match decodeClause (!false) 0xE002FF00 [0x30030102] with | .error e => e == (0, .notHeader) | _ => false) = true ∧
    (match decodeClause (!false) 0xF002CF00 [0x30030102] with | .error e => e == (0, .badSet) | _ => false) = true := by decide +kernel

def s1 : State := { d0 with waves := [(0, { w0 with body := [0x30030102, 0, 0, 0] })], turn := some (.wave 0) }

theorem witness_step : s1.elapse.chosen = .wave 0 ∧
    (({ s1.elapse.begin (.wave 0) with cur := 0 } : State).wave 0).body[0]? = some 0x30030102 ∧
    decodeInstr 0x30030102 (({ s1.elapse.begin (.wave 0) with cur := 0 } : State).wave 0).body[1]? = .ok (.sadd 3 1 2, 1) ∧
    (({ s1.elapse.begin (.wave 0) with cur := 0 } : State).wave 0).trap = none ∧
    (({ s1.elapse.begin (.wave 0) with cur := 0 } : State).wave 0).due = [] ∧
    (({ s1.elapse.begin (.wave 0) with cur := 0 } : State).wave 0).gathered = false ∧ bankConflict (.sadd 3 1 2) = false ∧
    bankConflict (.vadd 1 2 18) = true ∧ (({ s1.elapse.begin (.wave 0) with cur := 0 } : State).wave 0).k ≠ 0 := by
  refine ⟨rfl, rfl, ?_, rfl, rfl, rfl, by decide, by decide, by decide⟩
  show decodeInstr 0x30030102 (some 0) = .ok (.sadd 3 1 2, 1)
  rfl

/-- At a header the step is the issue of its clause. -/
theorem witness_step_header : let u : State := { ({ d0 with waves := [(0, { w0 with k := 0 })], turn := some (.wave 0) } : State).elapse.begin (.wave 0) with cur := 0 }
    (u.wave 0).trap = none ∧ (u.wave 0).due = [] ∧ (u.wave 0).k = 0 := ⟨rfl, rfl, rfl⟩

theorem witness_counter : d0.me.status = .running ∧ (wave .elseFlip d0).cnt = [(0, 1), (2, 1), (3, 1)] ∧ (wave .endIf d0).cnt = [] ∧
    (wave (.brk 3) d0).cnt = [(0, 4), (1, 1), (2, 4), (3, 4)] ∧ (wave (.cont 0) d0).cont = 0xD ∧ (wave .nop d0).pc = 0x108 ∧
    (wave (.patch 5) d0).k = 2 := by decide +kernel

/-- IF v1, neg: lanes 0 and 3 leave, lane 1 counts one more, lane 2 stays. At 63 nothing changes. -/
theorem witness_region : d0.ready [1] [] ∧ d0.clear [(1, d0.me.activeMask)] [] ∧ d0.clean [(1, d0.me.activeMask)] ∧
    (∀ l < 96, d0.me.present.getLsbD l = true → d0.me.cnt.get 0 l ≠ 63) ∧
    (wave (.ifOpen 1 .neg) d0).cnt = [(0, 1), (1, 2), (3, 1)] ∧ d0.ready [] [1, 2, 3] ∧ (wave (.ifm 1 false) d0).cnt = [(1, 2), (3, 1)] ∧
    d0.ready [] [2] ∧ d0.me.sget 2 ≠ 0 ∧ (wave (.loop 1 2 9) d0).lc = [(1, 7)] ∧ d0.ready [] [] ∧ (wave .lbeg d0).cnt = [(1, 2)] := by decide +kernel

theorem witness_region_full : let s := dw (fun w => { w with cnt := [(1, 63)] })
    (∃ l < 96, s.me.present.getLsbD l = true ∧ s.me.cnt.get 0 l = 63) ∧ s.runOf s.cur = .original ∧ s.ready [] [] ∧
    (wave .lbeg s).cnt = [(1, 63)] ∧ (wave .lbeg s).status = .halted ∧ (wave .lbeg s).stop = some (0x11, 0, 0, 0) := by decide +kernel

theorem witness_loop_ends : d0.me.status = .running ∧ d0.ready [] [5] ∧ d0.me.sget 5 = 0 ∧ (wave (.loop 0 5 0xFFFE) d0).pc = 0xFC ∧
    (wave (.endl 0 0x3FFFFF) (dw (fun w => { w with lc := [(0, 2)] }))).pc = 0x100 ∧
    (wave (.endl 0 0x3FFFFF) (dw (fun w => { w with lc := [(0, 1)] }))).pc = 0x108 ∧ (wave (.lend 0 0x3FFFFE) d0).pc = 0xFC ∧
    (wave (.lend 0 0x3FFFFE) (dw (fun w => { w with cnt := [(0, 2), (1, 1), (2, 1), (3, 1)] }))).cnt = [(0, 1)] := by decide +kernel

/-- A lane at counter 1 with its continue bit runs the next pass; others keep both. -/
theorem witness_revive : let w : Wave := { w0 with cont := 3 }
    w.present.getLsbD 1 = true ∧ w.cont.getLsbD 1 = true ∧ w.cnt.get 0 1 = 1 ∧ w.revive.cnt.get 0 1 = 0 ∧ w.revive.cont = 1 := by decide +kernel

theorem witness_branches : d0.ready [] [] ∧ d0.ready [] [4, 5] ∧ d0.ready [] [8, 9] ∧ d0.ready [] [8, 9, 4, 5] ∧ d0.ready [] [52, 53] ∧
    d0.ready [] [1] ∧ d0.me.trb = false ∧ (d0.me.pair 4).toNat % 4 = 0 ∧ (wave (.bra 1 0x3FFFFE) d0).pc = 0xFC ∧ (wave (.brc .z 5 4) d0).pc = 0x114 ∧
    (wave (.brc .all 0 4) d0).pc = 0x108 ∧ (wave (.brx 2) d0).pc = 0x1000 ∧ (wave (.call 4 2) d0).pair 8 = 0x108 ∧
    (wave (.callx 4 2) d0).pc = 0x1000 ∧ (wave (.ret 2) d0).pc = 0x1000 ∧ (wave (.trmp 0 4) d0).trb = true ∧ (wave (.trmp 0 4) d0).sget 52 = 0x108 ∧
    (wave (.trmpr 0 4) d0).pc = 0x114 := by decide +kernel

/-- BRX to an address that is no multiple of 4. -/
theorem witness_branch_misaligned : d0.ready [] [2, 3] ∧ (d0.me.pair 2).toNat % 4 ≠ 0 ∧ d0.runOf d0.cur = .original ∧
    (wave (.brx 1) d0).stop = some (0x10, 4, 0, 0) := by decide +kernel

theorem witness_ending : d0.me.status = .running ∧ d0.me.present &&& ~~~d0.me.activeMask ≠ 0 ∧ (wave .exit d0).present = 2 ∧
    (wave (.ppt 3) d0).pc = 0x108 ∧ (dw (fun w => { w with cnt := [] })).me.present &&& ~~~(dw (fun w => { w with cnt := [] })).me.activeMask = 0 ∧
    (wave .exit (dw (fun w => { w with cnt := [] }))).status = .ended := by decide +kernel

theorem witness_evpub : d0.me.status = .running ∧ (d0.block? d0.me.blk).isSome = true ∧ (d0.block 0).run = .original ∧ (d0.block 0).task = false ∧
    (d0.launch (d0.block 0).lid).hdr.noev = false ∧ (d0.block 0).published = false ∧ d0.idsOf d0.cur 0x22 = [] ∧
    (after .evpub d0).events.get .clear 0 = .done ∧ (db (fun b => { b with published := true })).me.status = .running ∧
    after .evpub (db (fun b => { b with published := true })) = (db (fun b => { b with published := true })).setWave 0 (w0.advance 1) := by decide +kernel

/-! ### Exceptions -/

theorem witness_traps : d0.me.status = .running ∧ d0.unlogged ∧ d0.me.activeMask ≠ 0 ∧ d0.canEnter ∧ (d0.launch d0.me.lid).hdr.dbg = false ∧
    (wave (.trap 0xBEEF) d0).pc = 0x200 ∧ (wave (.trap 0xBEEF) d0).sget 58 = 0x0001BEEF ∧ (wave (.trap 0xBEEF) d0).sget 56 = 0x108 ∧
    (wave (.bkpt 7) d0).sget 58 = 0x00020007 ∧ (after (.trap 0) d0).vget 0 255 1 = 1 ∧ (wave (.trap 0) d0).cnt.get 0 1 = 1 ∧
    (dw (fun w => { w with trb := true })).canEnter ∧ (dw (fun w => { w with trb := true })).me.trb = true ∧
    (wave (.trmp 0 4) (dw (fun w => { w with trb := true }))).sget 58 = 0x00030000 := by decide +kernel

theorem witness_traps_idle : let s := dw (fun w => { w with cnt := [(0, 1), (1, 1), (2, 1), (3, 1)] })
    s.me.status = .running ∧ s.unlogged ∧ s.me.activeMask = 0 ∧ (wave (.trap 1) s).pc = 0x108 ∧
    (dl (fun l => { l with hdr := { l.hdr with dbg := true } })).unlogged ∧
    (wave (.bkpt 1) (dl (fun l => { l with hdr := { l.hdr with dbg := true } }))).debug = true := by decide +kernel

def noHandler : State := { d0 with images := [] }
def inHandler : State := dw (fun w => { w with hnd := true })
def f32s : State := dw (fun w => { w with md := 2 })

/-- No handler, inside the handler, RTE outside one. -/
theorem witness_halts : noHandler.me.status = .running ∧ noHandler.runOf noHandler.cur = .original ∧ noHandler.me.activeMask ≠ 0 ∧
    noHandler.trapVector noHandler.cur = 0 ∧ (wave (.trap 5) noHandler).stop = some (1, 5, 0, 0xD) ∧ inHandler.trapVector inHandler.cur ≠ 0 ∧
    inHandler.me.hnd = true ∧ (wave (.trap 5) inHandler).stop = some (0x23, 1, 0, 0xD) ∧ d0.me.hnd = false ∧
    (wave .rte d0).stop = some (0x24, 0, 0, 0) := by decide +kernel

/-- SMULH under f32; a form whose type it does not accept. -/
theorem witness_halts_types : typeOf f32s.me.md = .f32 ∧ (wave (.smulh 1 2 3) f32s).stop = some (0x13, 2, 0, 0) ∧
    ((vectorTyped f32s (.vmulh 1 2 3)).map (fun r => r.ok (typeOf f32s.me.md))) = some false ∧
    (wave (.vmulh 1 2 3) f32s).stop = some (0x13, 2, 0, 0) ∧ (specialOf d0.me (.vrcp 1 2)).isSome = true ∧ typeOf d0.me.md ≠ .f32 ∧
    typeOf d0.me.md ≠ .f16x2 ∧ typeOf d0.me.md ≠ .b16x2 ∧ (wave (.vrcp 1 2) d0).stop = some (0x13, 0, 0, 0) := by decide +kernel

theorem witness_rte : let s := dw (fun w => { w with hnd := true, sregs := [(56, 0x1000), (59, 9)] })
    s.me.hnd = true ∧ s.ready [255] [56, 57, 59] ∧ s.clear [(255, allLanes)] [] ∧ s.clean [(255, allLanes)] ∧
    mdLegal ((s.me.sget 59).setWidth 16) = true ∧ s.me.pair 56 = resumeWord 0x1000 0 ∧ (wave .rte s).pc = 0x1000 ∧ (wave .rte s).md = 9 ∧
    (wave .rte s).hnd = false := by decide +kernel

/-- A return into a clause whose fetch misses waits, and marks no row. -/
theorem witness_rte_miss : let s := dw (fun w => { w with hnd := true, sregs := [(56, 0x1004), (57, 0x08000000), (59, 9)] })
    s.me.pair 56 = resumeWord 0x1004 1 ∧ s.fetchClause 0 0x1000 = (.stalled 0x1000, (s.fetchClause 0 0x1000).2) ∧
    (wave .rte s).hnd = true ∧ (wave .rte s).missed = [0] ∧ (after .rte s).rows = s.rows ∧ ((after .rte s).core 0).misses.length = 1 := by decide +kernel

/-- A word beyond 57 bits misses (R113). -/
theorem witness_fetch_beyond : let s := dw (fun w => { w with k := 0, pc := 0x200000000000000 })
    s.me.mayIssue = true ∧ (wave (.clauseIssue 0) s).missed = [0x20000000000] ∧ ((after (.clauseIssue 0) s).core 0).misses.length = 1 ∧
    (wave (.clauseIssue 0) s).pc = 0x200000000000000 := by decide +kernel

/-- Registers that meet in a bank are collected for three cycles more, one in each beat, and the word executes then (R42). -/
theorem witness_collection : let s := dw (fun w => { w with body := encode (.vadd 1 2 18) })
    collectCycles (.vadd 1 2 18) = 3 ∧ s.takesPort 0 = false ∧ ((s.gather 0 3).wave 0).gathering = some (s.clock + 3) ∧ ((s.gather 0 3).wave 0).reasons = 4 ∧
    ((({ s.gather 0 3 with clock := 3 } : State).collect).wave 0).gathered = true ∧
    (({ s.gather 0 3 with clock := 3 } : State).collect).takesPort 0 = true := by decide +kernel

/-- A return right after a trap. -/
theorem witness_trap_rte : let t := after (.trap 3) d0
    d0.me.status = .running ∧ d0.unlogged ∧ d0.me.activeMask ≠ 0 ∧ d0.canEnter ∧ mdLegal d0.me.md = true ∧ d0.me.pc.toNat % 4 = 0 ∧
    goes (.trap 3) d0 = true ∧ t.clear [(255, allLanes)] [] ∧ (wave .rte t).pc = 0x108 ∧ (wave .rte t).cnt = [(1, 1)] := by decide +kernel

/-! ### Modes, special registers, barriers, launches, hints, locks -/

theorem witness_modes : d0.ready [] [] ∧ (0x1F0B : BitVec 16).toNat % 16 ≤ 11 ∧ (wave (.mode 0x1F0B) d0).md = 0x1F0B ∧ d0.ready [] [2] ∧
    (wave (.modes 2) d0).md = 7 ∧ d0.ready [] [3] ∧ d0.runOf d0.cur = .original ∧ (wave (.modes 3) d0).stop = some (0x12, 0, 0, 0) ∧
    (wave (.wrsr .flg 3) d0).flg = 0x3F ∧ (wave (.wrsr (.lc 2) 3) d0).lc = [(2, 0xFFFFFFFF)] := by decide +kernel

/-- A MODE with a reserved value does not decode (R81, R87). -/
theorem witness_mode_decode : reads (0x17001F0B, none, .mode 0x1F0B) = true ∧ refuses (0x1700000C, none, .reservedBit) = true ∧
    refuses (0x17004000, none, .reservedBit) = true ∧ refuses (0x1700800F, none, .reservedBit) = true := by decide +kernel

theorem witness_nesting : d0.ready [9] [] ∧ d0.clear [] [(9, allLanes)] ∧ (after (.nsav 9) d0).vget 0 9 1 = 1 ∧ d0.ready [1] [] ∧
    d0.clear [(1, d0.me.present)] [] ∧ d0.clean [(1, d0.me.present)] ∧ (wave (.nrst 1) d0).cnt = [(0, 3), (3, 9)] := by decide +kernel

theorem witness_readSpecial : d0.ready [] [8] ∧ d0.ready [] [8, 9] ∧ d0.unlogged ∧ d0.returningOut d0.cur = false ∧
    (wave (.rdsr 8 .stat) inHandler).sget 8 = 1 ∧ (wave (.rdsr 8 .step) d0).sget 8 = 0xA1 ∧ (wave (.rdsr 8 .flg) d0).pc = 0x108 ∧
    d0.ready [9] [] ∧ d0.clear [] [(9, d0.me.activeMask)] ∧ (after (.rdsr 9 .lane) d0).vget 0 9 3 = 3 ∧
    (after (.rdsr 9 .lane) d0).vget 0 9 1 = 0 := by decide +kernel

/-- WAVE and CORE of slot 5, pipe 3, wave 2 of core 9 (R121). -/
theorem test_readSpecial_wave : let s : State := { d0 with cur := 1157, waves := [(1157, { w0 with num := 2, pipe := 3 })] }
    (((after (.rdsr 8 .wave) s).wave 1157).sget 8, ((after (.rdsr 8 .core) s).wave 1157).sget 8) = (0x6142, 0x010109) := by decide +kernel

/-- A logged block; its log region has `n` bytes. -/
def logs (n : Nat) : State :=
  { db (fun b => { b with logging := true, selected := true, job := 7 }) with
    jobs := [{ id := 7, lid := 0, index := 0, hdr := {}, ctx := 0, native := !false, corg := 0 }], window := if n = 0 then [] else [(0x21008, BitVec.ofNat 8 n)] }

theorem witness_logged_read : let s := logs 64
    s.ready [] [8] ∧ s.ready [] [8, 9] ∧ (s.block s.me.blk).run = .original ∧ (s.block s.me.blk).logging = true ∧
    ((s.job? (s.block s.me.blk).job).map (·.resolved)) = some false ∧ s.logUsed + 32 ≤ s.logSize ∧ s.logBase + 64 ≤ memTop := by decide +kernel

theorem witness_log_full : let t := after (.rdsr 8 .step) (logs 0)
    (logs 0).ready [] [8] ∧ (logs 0).logSize < (logs 0).logUsed + 32 ∧ ((t.job? 7).map (·.resolved)) = some true ∧ t.abr.get 0 2 = 1 ∧
    (t.wave 0).sget 8 = 0xA1 ∧ (t.block 0).logging = false := by decide +kernel

/-- The two entries of the worked example of R304: headers and first pair, 80 bytes in all. -/
theorem test_log_entry :
    let a := entryImage { kind := 1, wave := 0, seq := 0, src := 0x20000, data := [0x20000, 0, 5, 0, 0x20004, 0, 7, 0] }
    let b := entryImage { kind := 8, wave := 0, seq := 1, src := 0, data := [1234, 0] }
    a.length + b.length = 80 ∧ a.take 16 = [0, 0, 0, 0, 32, 0, 0, 1, 0, 0, 2, 0, 0, 0, 0, 0] ∧
    (a.drop 16).take 16 = [0, 0, 2, 0, 0, 0, 0, 0, 5, 0, 0, 0, 0, 0, 0, 0] ∧
    b.take 24 = [1, 0, 0, 0, 8, 0, 0, 8, 0, 0, 0, 0, 0, 0, 0, 0, 0xD2, 4, 0, 0, 0, 0, 0, 0] := by decide +kernel

def arrivedAt (g now : Nat) : State := (dw (fun w => { w with arrived := some g })).modBlock 0 (fun b => { b with gen := now, abandoned := some 3 })

theorem witness_barriers : d0.ready [] [] ∧ d0.ready [] [8] ∧ (d0.block? d0.me.blk).isSome = true ∧ d0.me.arrived ≠ some (d0.block d0.me.blk).gen ∧
    (after (.bara 5) d0).wave 0 = { w0.advance 1 with arrived := some 0 } ∧ (wave (.bar 8 5) d0).wait = .barrier 8 ∧
    d0.me.arrived = none ∧ (wave (.barw 1) d0).sget 1 = 0 := by decide +kernel

theorem witness_barriers_done : (arrivedAt 2 3).ready [] [8] ∧ (arrivedAt 2 3).me.arrived = some 2 ∧ 2 ≠ ((arrivedAt 2 3).block 0).gen ∧
    (wave (.barw 8) (arrivedAt 2 3)).sget 8 = 0 ∧ (wave (.barw 8) (arrivedAt 3 4)).sget 8 = 1 ∧ (wave (.barw 8) (arrivedAt 3 4)).abn = true ∧
    (arrivedAt 3 3).me.arrived = some ((arrivedAt 3 3).block 0).gen ∧ (wave (.barw 8) (arrivedAt 3 3)).wait = .barrier 8 := by decide +kernel

/-- A page of 64 KiB at virtual address 0, which the core's buffer holds. -/
def mapped (ex wr : Bool) : State :=
  { d0 with cores := [(0, { tlb := [{ ctx := 0, va := 0, bits := 16, pa := 0x10000, ex := ex, wr := wr, rd := true }] })],
            window := [(0x10001, 0x40)] }

def launching : State := (mapped false false).modWave 0 (fun w => { w with sregs := [(4, 0x1000), (6, 15)] })

theorem witness_launch : launching.ready [] [4, 5, 6, 7] ∧ launching.runOf launching.cur = .original ∧ launching.me.refused = false ∧
    (launching.me.sget 6).toNat < 16 ∧ (launching.me.pair 4).toNat % 256 = 0 ∧ (launching.me.pair 4).toNat < 2 ^ 57 ∧
    (match (launching.translate (launching.cur / 128) (launching.launch launching.me.lid).ctx (launching.me.pair 4).toNat { rd := true }).1 with
      | .pa pa => pa | _ => 0) = 0x11000 ∧
    (wave (.launch 4) launching).wait = .launch 9 7 := by decide +kernel

/-- A task's entry is a role's entry. -/
def tasking : State := dw (fun w => { w with sregs := [] })

theorem witness_task : tasking.ready ((List.range 16).map (16 + ·)) [4, 5, 6, 7] ∧ tasking.unlogged ∧
    tasking.clear ((List.range 16).map (fun j => (16 + j, tasking.me.activeMask))) [] ∧
    tasking.clean ((List.range 16).map (fun j => (16 + j, tasking.me.activeMask))) ∧ tasking.me.activeMask ≠ 0 ∧
    ((tasking.me.sput 6 0).sput 7 0).present ≠ 0 ∧ tasking.taskStatus tasking.cur (tasking.me.pair 4) 3 = 0 ∧
    ((after (.task 4 16) tasking).core 0).tasks.map (·.number) = [0, 1, 2] := by decide +kernel

/-- No role's entry: 3. A launch with a bay: 2. A full store: 1. No active lane: 0, and nothing is enqueued (R126). -/
theorem witness_task_refused :
    let st : State → Nat := fun s => s.taskStatus s.cur (s.me.pair 4) (lanesOf s.me.activeMask).length
    let full : State := { tasking with cores := [(0, { tasks := List.replicate 4094 { lid := 0, entry := 0, number := 0, args := [], since := 0 } })] }
    let bays : State := tasking.modLaunch 0 (fun l => { l with hdr := { l.hdr with bays := 1 } })
    let idle : State := tasking.modWave 0 (fun w => { w with cnt := [(0, 1), (1, 1), (2, 1), (3, 1)] })
    (st (dw (fun w => { w with sregs := [(4, 8)] })), st bays, st full, st idle) = (3, 2, 1, 0) ∧
    ((wave (.task 4 16) bays).sget 6, (wave (.task 4 16) full).sget 6, (wave (.task 4 16) idle).sget 6) = (2, 1, 0) ∧
    ((after (.task 4 16) full).core 0).tasks.length = 4094 ∧ ((after (.task 4 16) idle).core 0).tasks = [] := by decide +kernel

def interlocked : State := dl (fun l => { l with native := false })

theorem witness_hints : d0.ready [] [] ∧ (wave .yield d0).active = false ∧ (wave (.nap 5) d0).wait = .nap 5 ∧ d0.nativeOf d0.cur = true ∧
    (∀ f < 12, (0xFFF : BitVec 12).getLsbD f = true → d0.me.flags.get 0 f = 0) ∧ d0.me.due = [] ∧ (wave (.waitf 0xFFF) d0).k = 2 ∧
    interlocked.nativeOf 0 = false ∧ interlocked.longOut 0 = false ∧ (wave (.waitf 0) interlocked).k = 2 ∧
    d0.me.status = .running ∧ (wave (.fence 2 1 .system) d0).pc = 0x108 := by decide +kernel

/-- A due trap is no obstacle: one that the named flag does not close, one that was closed and waits inside the handler (R100). -/
theorem witness_due :
    (wave (.waitf 1) (dw (fun w => { w with due := [{ flag := 1, conds := 1, lanes := 1, flags := [] }] }))).k = 2 ∧
    (wave (.waitf 2) (dw (fun w => { w with hnd := true, due := [{ flag := 1, conds := 1, lanes := 1, flags := [], closed := true }] }))).k = 2 ∧
    (wave (.waitf 2) (dw (fun w => { w with due := [{ flag := 1, conds := 1, lanes := 1, flags := [] }] }))).sget 58 = 0x00040001 := by decide +kernel

theorem witness_audit_forms : d0.ready [] [8] ∧ d0.unlogged ∧ (wave (.adrd 8 0) d0).sget 8 = 0 ∧ d0.ready [1] [] ∧ d0.clear [(1, d0.me.activeMask)] [] ∧
    d0.clean [(1, d0.me.activeMask)] ∧ (wave (.admix 1 7) d0).digest = 0 := by decide +kernel

/-- Code pages end at 0x10000: a line beyond them cannot be locked. -/
def beyondCode : State := dw (fun w => { w with sregs := [(4, 0xFFC0), (6, 0x41)] })
def inCode : State := dw (fun w => { w with sregs := [(4, 0x80), (6, 0x41)] })

theorem witness_locks : inCode.ready [] [4, 5, 6, 7] ∧ (inCode.me.sput 7 0).present ≠ 0 ∧ (wave (.ilock 4) inCode).sget 7 = 0 ∧
    ((after (.ilock 4) inCode).core 0).locks ≠ [] ∧ beyondCode.ready [] [4, 5, 6, 7] ∧ (beyondCode.me.sput 7 2).present ≠ 0 ∧
    (wave (.ilock 4) beyondCode).sget 7 = 2 ∧ (wave (.iunlk 4) beyondCode).sget 7 = 2 := by decide +kernel

/-! ### Scalar and vector forms -/

theorem witness_scalar_plain : (scalarPlain d0.me (.ssra 8 3 63)).isSome = true ∧ d0.ready [] [8, 3, 63] ∧ (wave (.ssra 8 3 1) d0).sget 8 = 0xFFFFFFFF ∧
    (wave (.sshl 8 1 2) d0).sget 8 = 640 ∧ (wave (.sshr 8 3 2) d0).sget 8 = 0x1FFFFFF ∧ (wave (.shi 1 0x8000) d0).sget 1 = 0x80000005 ∧
    (wave (.saddi 1 0xFFFE) d0).sget 1 = 3 ∧ (wave (.sbfe 8 3 true 4 28) d0).sget 8 = 0xFFFFFFFF ∧ (wave (.sclz 8 1) d0).sget 8 = 29 ∧
    (wave (.spopc 8 3) d0).sget 8 = 32 ∧ (wave (.ssel 8 1 2 3) d0).sget 8 = 5 ∧ (wave (.sand 63 1 2) d0).sget 63 = 0 := by decide +kernel

/-- A write of s60 takes lanes out of presence (R24); the last one out ends the wave. -/
theorem test_presence_write : (wave (.sli 60 0x1C) d0).present = 0xC ∧ (wave (.sli 60 0) d0).status = .ended := by decide +kernel

theorem witness_scalar_typed : (scalarTyped d0.me (.sadd 8 1 3)).isSome = true ∧ d0.ready [] [8, 1, 3] ∧ d0.me.enables = 0 ∧ d0.unlogged ∧
    (wave (.sadd 8 1 3) d0).sget 8 = 4 ∧ (wave (.smulh 8 3 3) d0).sget 8 = 0 ∧ (wave (.smin 8 3 1) d0).sget 8 = 0xFFFFFFFF ∧
    (wave (.scmp 8 3 1 .lt) d0).sget 8 = 0xFFFFFFFF := by decide +kernel

/-- f32 multiplication of the least subnormal by itself is rounded to 0, inexact and not tiny (R88); md enables inexact (bit 8). -/
def trapping : State := dw (fun w => { w with md := 0x102, sregs := [(1, 1), (2, 1)] })

theorem witness_scalar_typed_trap : (scalarTyped trapping.me (.smul 8 1 2)).isSome = true ∧ trapping.ready [] [8, 1, 2] ∧
    ((scalarTyped trapping.me (.smul 8 1 2)).map (fun r => r.conds &&& trapping.me.enables)) = some 1 ∧ trapping.unlogged ∧
    trapping.canEnter ∧ (wave (.smul 8 1 2) trapping).sget 58 = 0x00040001 ∧ (wave (.smul 8 1 2) trapping).sget 56 = 0x108 := by decide +kernel

theorem witness_integer : d0.ready [] [8, 1, 3] ∧ typeOf d0.me.md = .i32 ∧ d0.me.md.getLsbD 6 = false ∧ (modeOf 0x40).sat = true ∧
    addElem (modeOf 0x40) .i32 0x7FFFFFFF 1 = (0x7FFFFFFF, 0x20) ∧ addElem (modeOf 0x40) .i32 0x80000000 0xFFFFFFFF = (0x80000000, 0x20) := by
  decide +kernel

/-- FloatArithmetic has operands of each kind: finite, infinite, NaN, quiet and signalling (f32). -/
theorem witness_float : kindOf .f32 = .flt ⟨32, 23, 127, true⟩ ∧ codeFin f32 0x3F800000 = true ∧ codeInf f32 0x7F800000 = true ∧ codeNan f32 0x7FC00000 = true ∧
    codeSig f32 0x7F800001 = true ∧ addElem {} .f32 0x3F800000 0x3F800000 = (0x40000000, 0) ∧ addElem {} .f32 0x7F800000 0xFF800000 = (0x7FC00000, fIV) ∧
    mulElem {} .f32 0x7F800000 0 = (0x7FC00000, fIV) ∧ addElem {} .f32 0x7F7FFFFF 0x7F7FFFFF = (0x7F800000, fOF ||| fNX) ∧
    minmaxElem false {} .f32 0 0x80000000 = (0x80000000, 0) := by decide +kernel

/-- The third operand of a fused form alone is a NaN, quiet or signalling, or an infinity; an infinite product and its opposite. -/
theorem witness_fused : fmaElem {} .f32 0x3F800000 0x3F800000 0x7FC00000 = (0x7FC00000, 0) ∧ fmaElem {} .f32 0x3F800000 0x3F800000 0x7F800001 = (0x7FC00000, fIV) ∧
    fmaElem {} .f32 0x3F800000 0x3F800000 0xFF800000 = (0xFF800000, 0) ∧ fmaElem {} .f32 0x7F800000 0x3F800000 0xFF800000 = (0x7FC00000, fIV) ∧
    fmaElem {} .f32 0x7F800000 0xBF800000 0x3F800000 = (0xFF800000, 0) := by decide +kernel

theorem witness_conversions : cvtElem {} .f16x2 .f32 0x3F800001 = (0x3C00, fNX) ∧ cvtElem {} .i32 .f32 0x4F000000 = (0x80000000, fIV) ∧
    cvtElem {} .f32 .i32 0xFFFFFFFF = (0xBF800000, 0) ∧ cvtElem { sat := true } .i8x4 .i32 300 = (127, fSAT) ∧
    sclElem {} f32 130 0x3F800000 = (0x41000000, 0) ∧ sclElem {} f32 255 0x3F800000 = (0x7FC00000, fIV) ∧
    rcpElem f32 {} (f32.operand {} 0) = (0x7F800000, fDZ) ∧ ex2Elem f32 {} (f32.operand {} 0x40400000) = (0x41000000, 0) ∧
    trigElem false f32 {} (f32.operand {} 0x3E800000) = (0x3F800000, 0) := by decide +kernel

theorem witness_vector_plain : (vectorPlain d0 (.vand 9 1 2)).isSome = true ∧ d0.ready [9, 1, 2] [] ∧
    d0.clear (d0.inActive [1, 2]) (d0.inActive [9]) ∧ d0.clean (d0.inActive [1, 2]) ∧ d0.me.present ≠ 0 ∧
    (after (.vor 9 1 2) d0).vget 0 9 0 = 7 ∧ (after (.vor 9 1 2) d0).vget 0 9 1 = 0 ∧ (after (.vli 9 0x8000) d0).vget 0 9 3 = 0xFFFF8000 ∧
    (after (.vclz 9 1) d0).vget 0 9 0 = 30 ∧ (after (.vlid 9 1 2) d0).vget 0 9 3 = 26 ∧ (after (.vbfi 9 1 2 8 8) d0).vget 0 9 3 = 0x902 := by
  decide +kernel

theorem witness_vector_typed : (vectorTyped d0 (.vadd 9 1 2)).isSome = true ∧ d0.ready [9, 1, 2] [] ∧
    d0.clear (d0.inActive [1, 2]) (d0.inActive [9]) ∧ d0.clean (d0.inActive [1, 2]) ∧ d0.me.present ≠ 0 ∧ d0.me.enables = 0 ∧
    (after (.vadd 9 1 2) d0).vget 0 9 0 = 7 ∧ (after (.vsub 9 1 2) d0).vget 0 9 2 = 0x7FFFFFFF ∧ (after (.vsra 9 1 2) d0).vget 0 9 2 = 0xC0000000 ∧
    (after (.vmax 9 1 2) d0).vget 0 9 2 = 1 := by decide +kernel

def vtrapping : State := { dw (fun w => { w with md := 0x102 }) with elems := [(96, 1), (98, 0x3F800000), (99, 0x3F800000), (192, 1), (194, 1), (195, 1)] }

/-- Only lane 0 is inexact. -/
theorem witness_vector_typed_trap : (vectorTyped vtrapping (.vmul 9 1 2)).isSome = true ∧ vtrapping.ready [9, 1, 2] [] ∧
    vtrapping.clear (vtrapping.inActive [1, 2]) (vtrapping.inActive [9]) ∧ vtrapping.runOf 0 = .original ∧
    (wave (.vmul 9 1 2) vtrapping).sget 58 = 0x00040001 ∧ (after (.vmul 9 1 2) vtrapping).vget 0 254 0 = 0x101 ∧
    (after (.vmul 9 1 2) vtrapping).vget 0 254 2 = 0 := by decide +kernel

/-- Poison in lane 3 of v1 kills; in lane 1, which is not active, it is not consumed. -/
theorem witness_poison : let s : State := { d0 with bad := [(99, true)] }
    (vectorPlain s (.vnot 9 1)).isSome = true ∧ s.ready [9, 1] [] ∧ s.clear (s.inActive [1]) (s.inActive [9]) ∧ s.runOf s.cur = .original ∧
    ¬s.clean (s.inActive [1]) ∧ (wave (.vnot 9 1) s).status = .killed ∧ (after (.vnot 9 1) s).elems = d0.elems := by decide +kernel

theorem test_poison_inactive : (wave (.vnot 9 1) { d0 with bad := [(97, true)] }).status = .running := by decide +kernel

/-! ### Special functions and lane exchange -/

theorem witness_special : (specialOf f32s.me (.vsqrt 9 1)).isSome = true ∧ typeOf f32s.me.md = .f32 ∧ f32s.ready [1, 9] [] ∧
    f32s.clear (f32s.inActive [1]) (f32s.inActive [9]) ∧ f32s.canIssue (.vec 9 false) ∧
    (after (.vsqrt 9 1) { f32s with elems := [(96, 0x40800000)] }).ops.map (fun o => (o.id, (o.lanes.map (·.value)).head?)) = [(9, some 0x40000000)] := by
  decide +kernel

theorem witness_shuffle : d0.ready [1, 9] [] ∧ d0.ready [1, 2, 9] [] ∧ d0.clear [(1, allLanes)] (d0.inActive [9]) ∧
    d0.clear ((1, allLanes) :: d0.inActive [2]) (d0.inActive [9]) ∧ d0.clean ((1, allLanes) :: d0.inActive [2]) ∧ d0.me.present ≠ 0 ∧
    d0.me.enables = 0 ∧ (after (.vshf 9 1 0 .down 1) d0).vget 0 9 2 = 9 ∧ (after (.vshf 9 1 0 .down 1) d0).vget 0 9 3 = 9 ∧
    (after (.vshf 9 1 0 .down 1) d0).vget 0 9 0 = 3 ∧ (after (.vshf 9 1 2 .index 0) d0).vget 0 9 3 = 0x80000000 ∧
    (after (.vshop 9 1 0 .add .xor 3) d0).vget 0 9 0 = 12 ∧ (after (.vshop 9 1 0 .xor .up 95) d0).vget 0 9 3 = 9 := by decide +kernel

/-- v2 is 4, 1, 2 in lanes 0, 2, 3: a segment begins at lane 2. -/
theorem witness_segments : d0.ready [1, 2, 9] [] ∧ d0.clear ((1, allLanes) :: d0.inActive [2]) (d0.inActive [9]) ∧
    d0.clean ((1, allLanes) :: d0.inActive [2]) ∧ d0.me.present ≠ 0 ∧ d0.me.enables = 0 ∧
    (after (.vsegop 9 1 2 .or false) d0).vget 0 9 3 = 0x80000009 ∧ (after (.vsegop 9 1 2 .or false) d0).vget 0 9 2 = 0x80000000 ∧
    (after (.vsegop 9 1 2 .or true) d0).vget 0 9 2 = 0x80000009 ∧ (after (.vsegop 9 1 2 .or true) d0).vget 0 9 0 = 3 := by decide +kernel

theorem witness_votes : d0.ready [1] [8, 9, 10] ∧ d0.ready [1] [8] ∧ d0.clear [(1, allLanes)] [] ∧ d0.clean [(1, allLanes)] ∧
    (∀ l < 96, (4 : LaneMask).getLsbD l = (d0.me.activeMask.getLsbD l && ccTest .neg (d0.vget d0.cur 1 l))) ∧
    (wave (.vbal 8 1 .nneg) d0).sget 8 = 9 ∧ (wave (.vany 8 1 .neg) d0).sget 8 = 1 ∧ (wave (.vall 8 1 .neg) d0).sget 8 = 0 ∧
    (wave (.vffs 8 1 .neg) d0).sget 8 = 2 ∧ (wave (.vffs 8 1 .z) d0).sget 8 = 96 := by decide +kernel

theorem witness_match : d0.ready [1, 9, 10, 11] [] ∧ d0.clear [(1, allLanes)] [(9, allLanes), (10, allLanes), (11, allLanes)] ∧
    d0.clean [(1, allLanes)] ∧ (after (.vmatch 9 5) d0).vget 0 9 2 = 0xD ∧ (after (.vmatch 9 1) d0).vget 0 9 2 = 4 := by decide +kernel

/-- KEYV is bit 13: under f32 the zeros agree and a NaN agrees with nothing; without it the bits decide (R157). -/
theorem witness_keys : (keysEqual 0x2002 0 0x80000000, keysEqual 0x2002 0x7FC00000 0x7FC00000, keysEqual 2 0 0x80000000, keysEqual 2 0x7FC00000 0x7FC00000,
      keysEqual 0x2000 7 7, keysEqual 0x2000 7 8) = (true, false, false, true, true, false) ∧ kindOf (typeOf 0x2002) = .flt f32 ∧
    kindOf (typeOf 0x2000) = .int true := by decide +kernel

/-! ### Indexed access, adits, common slots -/

/-- What IndexedFormsComplete asks of a state and a form whose checks it passes. -/
def indexedOk (s : State) (i : Instr) : Bool :=
  match indexedOf s i with
  | none => false
  | some f =>
    let m := s.me.activeMask
    let row0 := (spaceOf s s.cur f.sp).1
    let target := ((lanesOf m).map (fun l => row0 + (f.idx l).toNat / 32)).dedup
    let h : Handle := s.me.handles.get {} (handleOf f.sp)
    let far : Bool := (match f.sp with | .handle _ => true | _ => false) && coreOf h.exporter != coreOf s.cur
    indexedAsks s f && decide (s.clean (s.inActive f.srcs)) &&
    (lanesOf m).all (fun l => decide (0 ≤ f.idx l) && decide (f.idx l < (spaceOf s s.cur f.sp).2)) &&
    (match f.sp with | .handle _ => h.state == .attached && (f.kind == .xget || h.xch || h.exporter == s.cur) | _ => true) &&
    (f.sp != .ceil || (lanesOf m).all (fun l => (s.core (s.cur / 128)).grants.get none ((f.idx l).toNat / 1048576) == some s.me.lid)) &&
    target.all (fun r => !s.copyTouch s.cur r && !s.boundTouch s.cur r && (f.sp != .slot || !s.handleTouch s.cur r) &&
      (far || (!s.rowHeld r && (s.raceRow s.cur r (decide (f.kind ≠ .xget))).isSome)))
where
  /-- What it asks of every form, whatever the checks say. -/
  indexedAsks (s : State) (f : IndexedForm) : Bool :=
    let m := s.me.activeMask
    decide (s.ready (f.srcs ++ f.copied ++ (State.regsOfDest f.dst).1 ++ (if f.sp = .slot then
      ((lanesOf m).filter (fun l => decide (0 ≤ f.idx l) && decide (f.idx l < 24576))).map (fun l => (f.idx l).toNat / 96) else [])) f.scals) &&
    decide s.unlogged && !s.fenced s.cur (if f.kind = .xget then 0x04 else 0x08) && decide (s.canIssue f.dst) &&
    (match f.sp with | .handle n => decide (n < 16) | _ => true) &&
    decide (s.clear (s.inActive (f.srcs ++ f.copied)) (s.inActive (State.regsOfDest f.dst).1)) &&
    (f.sp != .slot || f.kind == .xget || !s.writesOut s.cur) && decide (m ≠ 0)

/-- Handle 2 to an adit of `n` rows that a wave exports. -/
def holding (exporter n : Nat) (xch : Bool) : State :=
  dw (fun w => { w with handles := [(2, { state := .attached, exporter := exporter, rows := n, xch := xch })] })
def ceiled : State := { d0 with cores := [(0, { grants := [(0, some 0)] })] }

theorem witness_indexed_slot : indexedOk d0 (.xget 9 3 .slot) = true ∧ indexedOk d0 (.xput 2 3 .slot) = true ∧ indexedOk d0 (.xatm 9 3 2 .slot 9) = true ∧
    indexedOk d0 (.xgetw 9 2 .slot) = true ∧ indexedOk d0 (.xputw 2 1 .slot) = true ∧
    (after (.xget 9 3 .slot) d0).ops.map (fun o => o.lanes.map (·.value)) = [[3, 0x80000000, 9]] ∧
    (after (.xputw 2 1 .slot) d0).vget 0 5 3 = 2 ∧ (after (.xatm 9 3 2 .slot 0) d0).vget 0 1 3 = 11 := by decide +kernel

theorem witness_indexed_ceiling : indexedOk ceiled (.xget 9 3 .ceil) = true ∧ indexedOk ceiled (.xput 2 3 .ceil) = true ∧
    (after (.xput 2 3 .ceil) ceiled).ops.map (fun o => o.lanes.map (·.loc)) = [[3145824, 3145826, 3145827]] := by decide +kernel

theorem witness_indexed_handle : indexedOk (holding 0 4 false) (.xget 9 3 (.handle 2)) = true ∧ indexedOk (holding 5 4 true) (.xput 2 3 (.handle 2)) = true ∧
    indexedOk (holding 130 4 true) (.xatm 9 3 2 (.handle 2) 0) = true ∧ coreOf 5 = coreOf 0 ∧ coreOf 130 ≠ coreOf 0 ∧
    (after (.xget 9 3 (.handle 2)) (holding 0 4 false)).ops.length = 1 ∧ (wave (.xatm 9 3 2 (.handle 2) 0) (holding 130 4 true)).wait = .remote 9 := by
  decide +kernel

/-- Row `r`, exported in phase 1, was written by another party in that phase (R53). -/
def racedRow (r : Nat) (s : State) : State :=
  { s.modWave 0 (fun w => { w with adits := [(2, { state := .live, aud := .block, first := r, rows := 1, phase := 1 })] }) with
    rows := [(r, { exp := true, pw := true, pty := 5, stp := 1 })] }

/-- What IndexedFormsComplete asks of a form whose checks stop it. -/
def indexedStops (s : State) (i : Instr) : Bool :=
  match indexedOf s i with
  | none => false
  | some f => indexedOk.indexedAsks s f && decide s.canEnter

/-- The cause word that a form enters the handler with. -/
def causeOf (i : Instr) (s : State) : Word := (wave i s).sget 58
/-- The five indexed forms. -/
def indexedForms (sp : Space) : List Instr := [.xget 9 3 sp, .xput 2 3 sp, .xgetw 9 1 sp, .xputw 2 1 sp, .xatm 9 3 2 sp 0]

/-- Not attached: 0x0005. Three rows end before index 96: 0x0006, as the slot ends before 24576 and the ceiling before 98304 * 32. A shared
adit of another wave is not written: 0x0007. -/
theorem witness_indexed_traps :
    (indexedForms (.handle 2)).all (fun i => indexedStops d0 i && indexedStops (holding 1 3 true) i && causeOf i d0 == 0x00050002 &&
      causeOf i (holding 1 3 true) == 0x00060002) = true ∧
    ((indexedForms .slot).zip [24576, 24576, 256, 256, 24576]).all (fun x => let s : State := { dw (fun w => { w with sregs := [(1, x.2)] }) with
        elems := [(288, 96), (291, BitVec.ofNat 32 24576)] }
      indexedStops s x.1 && causeOf x.1 s == 0x000600FF) = true ∧
    ((indexedForms .ceil).zip [0, 0, 32768, 32768, 0]).all (fun x => let s : State := { ceiled with
        elems := [(288, BitVec.ofNat 32 3145728)], waves := [(0, { w0 with sregs := [(1, x.2)] })] }
      indexedStops s x.1 && causeOf x.1 s == 0x000600FF) = true ∧
    [Instr.xput 2 3 (.handle 2), .xputw 2 63 (.handle 2), .xatm 9 3 2 (.handle 2) 0].all (fun i => indexedStops (holding 1 4 false) i &&
      causeOf i (holding 1 4 false) == 0x00070002) = true := by decide +kernel

/-- A ceiling bay that is not granted; a target row that races, in each space. -/
theorem witness_indexed_races :
    ((indexedForms .ceil).all (fun i => indexedStops d0 i)) = true ∧
    (indexedForms .ceil).map (fun i => (wave i d0).stop) = [some (0x14, 0, 0, 0xD), some (0x14, 0, 0, 0xD), some (0x14, 0, 0, 0xD),
      some (0x14, 0, 0, 0xD), some (0x14, 0, 0, 0xD)] ∧
    (let s := racedRow 3 { d0 with elems := [(288, 96), (290, 98), (291, 200)] }
     [Instr.xget 9 3 .slot, .xput 2 3 .slot, .xatm 9 3 2 .slot 0].all (fun i => indexedStops s i && causeOf i s == 0x000800FF) = true ∧
       [0, 2, 3].map (fun l => (after (.xget 9 3 .slot) s).vget 0 254 l) = [1, 1, 0]) ∧
    (let s := racedRow 3 (holding 0 4 false)
     (indexedStops s (.xget 9 3 (.handle 2)), causeOf (.xget 9 3 (.handle 2)) s) = (!false, 0x00080002)) := by decide +kernel

def exporting (st : AditState) : State :=
  dw (fun w => { w with sregs := [(4, 700), (5, 68)], adits := [(15, { state := st, first := 0, rows := 2, phase := 3 })],
                        handles := [(0, { state := .attached, exporter := 0, entry := 15 })] })

theorem witness_adits : (exporting .live).ready [] [4, 5, 6] ∧ ((exporting .live).me.adits.get {} 0).state = .free ∧
    ((exporting .live).me.sget 4).toNat + ((exporting .live).me.sget 5).toNat = 768 ∧
    (∀ j < 68, ((exporting .live).info (slotRow 0 (700 + j))).exp = false) ∧ ((exporting .live).me.sput 6 0).present ≠ 0 ∧
    (after (.xexp 4 0 .core true false) (exporting .live)).info 767 = { exp := true } ∧ (wave (.xdet 0) (exporting .live)).handles = [] ∧
    (wave (.xatt 4 1 false) (exporting .live)).wait = .xatt 4 1 false := by decide +kernel

theorem witness_xrev : (exporting .free).ready [] [8] ∧ ((exporting .draining).me.adits.get {} 15).state ≠ .live ∧
    (wave (.xrev 8 15) (exporting .draining)).sget 8 = 1 ∧ ((exporting .live).me.adits.get {} 15).state = .live ∧
    (((exporting .live).wave 0).handles.get {} 0).state = .attached ∧ ((wave (.xrev 8 15) (exporting .live)).handles.get {} 0).state = .stale ∧
    (wave (.xrev 8 15) (exporting .live)).wait = .xrev 15 8 := by decide +kernel

/-- A block whose launch may claim slots: one already claimed under index 0. -/
def slotted : State := (db (fun b => { b with common := [(0, (11, 1))] })).modWave 0 (fun w => { w with sregs := [(4, 0), (5, 1)] })

theorem witness_common : slotted.unlogged ∧ (slotted.block? slotted.me.blk).isSome = true ∧ slotted.ready [] [8, 9, 5] ∧
    (slotted.allocStatus slotted.me.blk (slotted.me.sget 5).toNat).1 = 0 ∧ ((slotted.me.sput 8 0).sput 9 1).present ≠ 0 ∧
    (wave (.xalloc 8 5) slotted).sget 8 = 0 ∧ slotted.ready [] [8, 4, 5] ∧
    slotted.freeStatus slotted.me.blk (slotted.me.sget 4).toNat (slotted.me.sget 5).toNat = 0 ∧ (slotted.me.sput 8 0).present ≠ 0 ∧
    ((after (.xfree 8 4 5) slotted).block 0).common = [] ∧ (wave (.xprb 8 true 15) (exporting .live)).sget 8 = 0x301 ∧
    (wave (.xprb 8 true 15) (exporting .live)).sget 9 = 64 := by decide +kernel

/-- XALLOC 3, 2 and 1, XFREE 1 and 2 (R170). -/
theorem witness_common_refused :
    let n (k : Nat) : State := slotted.modWave 0 (fun w => { w with sregs := [(4, 0), (5, BitVec.ofNat 32 k)] })
    let crowd : State := { n 2 with waves := (List.range 127).map (fun p => (p, if p = 0 then (n 2).wave 0 else w0)) }
    let out : State := { slotted with rows := [(768 * 10 + 1, { exp := true })] }
    ((n 0).allocStatus 0 0).1 = 3 ∧ ((n 17).allocStatus 0 17).1 = 3 ∧ ((n 16).allocStatus 0 16).1 = 2 ∧ (crowd.allocStatus 0 2).1 = 1 ∧
    (slotted.allocStatus 0 1) = (0, 1, 1) ∧ (wave (.xalloc 8 5) (n 16)).pair 8 = 0xFFFFFFFF00000002 ∧
    slotted.freeStatus 0 0 0 = 1 ∧ slotted.freeStatus 0 0 2 = 1 ∧ out.freeStatus 0 0 1 = 2 ∧ out.rows.wf {} = true ∧
    (wave (.xfree 8 4 5) out).sget 8 = 2 ∧ ((after (.xfree 8 4 5) out).block 0).common = (slotted.block 0).common := by decide +kernel

/-- XEXP waits while the entry's last scrub is unfinished (R57). -/
theorem witness_export_waits : let s := dw (fun w => { w with sregs := [(4, 700), (5, 68)], adits := [(3, { scrub := true, gen := true, phase := 2 })] })
    s.ready [] [4, 5, 6] ∧ (s.me.adits.get {} 3).state = .free ∧ (s.me.adits.get {} 3).scrub = true ∧ (wave (.xexp 4 3 .core true false) s).pc = 0x104 ∧
    (wave (.xexp 4 3 .core true false) s).adits = s.me.adits := by decide +kernel

/-! ### Device memory -/

def memState : State := mapped false true

/-- What MemoryFormsIssue asks of a state and a form. -/
def memoryOk (s : State) (i : Instr) : Bool :=
  match memoryOf s i with
  | none => false
  | some f =>
    decide (s.ready (f.srcs ++ (State.regsOfDest f.dst).1) f.scals) && decide s.unlogged &&
    !s.fenced s.cur (match f.kind with | .load => 1 | .store => 2 | _ => 3) && decide (s.canIssue f.dst) &&
    decide (s.clear (s.inActive f.srcs) (s.inActive (State.regsOfDest f.dst).1)) && decide (s.clean (s.inActive f.srcs)) &&
    (f.accesses.isEmpty || !s.writesOut s.cur) &&
    (match (s.locate s.cur f.size { rd := f.kind != .store, wr := f.kind.writesMem } (f.accesses.map (fun x => (x.1, x.2.1)))).1 with
      | .at_ _ => true | _ => false)

def firstLocs (i : Instr) (s : State) : List (List Nat) := (after i s).ops.map (fun o => o.lanes.map (·.loc))

theorem witness_memory_vector : memoryOk memState (.vldb 9 3 2 7) = true ∧ memoryOk memState (.vldh 9 3 2 0) = true ∧ memoryOk memState (.vldw 9 3 2 1) = true ∧
    memoryOk memState (.vldd 9 3 2 0) = true ∧ memoryOk memState (.vstb 2 3 2 0) = true ∧ memoryOk memState (.vsth 2 3 2 0) = true ∧
    memoryOk memState (.vstw 2 3 2 0) = true ∧ memoryOk memState (.vstd 2 3 2 0) = true ∧
    firstLocs (.vldw 9 3 2 1) memState = [[0x11184, 0x1118C, 0x11190]] ∧ firstLocs (.vldb 9 3 2 7) memState = [[0x11067, 0x11069, 0x1106A]] := by
  decide +kernel

theorem witness_memory_scalar : memoryOk memState (.sldw 8 2 2 1) = true ∧ memoryOk memState (.sldd 8 2 2 0) = true ∧ memoryOk memState (.sstw 8 2 2 0) = true ∧
    memoryOk memState (.sstd 8 63 2 0) = true ∧ memoryOk memState (.vamo 9 3 2 0 4 2 .system false) = true ∧
    memoryOk memState (.vamoc 20 3 2 0 2 .package true) = true ∧ firstLocs (.sldw 8 2 2 1) memState = [[0x11020]] ∧
    firstLocs (.sstd 8 63 2 1) memState = [[0x11008]] := by decide +kernel

def withBase (lo hi : Word) : State := memState.modWave 0 (fun w => { w with sregs := [(4, lo), (5, hi)] })

/-- The lowest misaligned lane; an address at 2^57. -/
theorem witness_memory_halts : ((memoryOf (withBase 0x1001 0) (.vldh 9 3 2 0)).map (fun f => f.accesses.map (fun x => (x.1, x.2.1.toNat % f.size)))) =
      some [(0, 1), (2, 1), (3, 1)] ∧ (withBase 0x1001 0).runOf 0 = .original ∧
    (wave (.vldh 9 3 2 0) (withBase 0x1001 0)).stop = some (0x15, 2, 0x10C1, 1) ∧
    ((memoryOf (withBase 0 0x02000000) (.vldw 9 3 2 0)).map (fun f => f.accesses.map (fun x => decide (2 ^ 57 ≤ x.2.1.toNat)))) = some [true, true, true] ∧
    (wave (.vldw 9 3 2 0) (withBase 0 0x02000000)).stop = some (0x16, 0, 0x0200000000000180, 1) := by decide +kernel

/-- d0 with one operation in flight, which flag 1 counts. -/
def flying (o : Op) : State := { dw (fun w => { w with flags := [(1, 1)] }) with ops := [o] }

def storing : Op :=
  { id := 3, kind := .store, party := 0, lid := 0, flag := 1, size := 4, lanes := [{ lane := 0, loc := 0x100, data := 0xAABBCCDD }, { lane := 2, loc := 0x104 }] }

theorem witness_store : (flying storing).ops.find? (fun x => x.id == 3) = some storing ∧
    storing.lanes.find? (fun x => x.lane == 0 && !x.done) = some { lane := 0, loc := 0x100, data := 0xAABBCCDD } ∧
    (flying storing).laneReady storing { lane := 0, loc := 0x100, data := 0xAABBCCDD } = true ∧
    (after (.storePerformed 3 0) (flying storing)).mem = [(0x100, 0xDD), (0x101, 0xCC), (0x102, 0xBB), (0x103, 0xAA)] ∧
    (after (.storePerformed 3 0) (flying storing)).ops.length = 1 ∧ (wave (.storePerformed 3 0) (flying storing)).flags = [(1, 1)] ∧
    (wave (.storePerformed 3 0) (flying { storing with lanes := storing.lanes.take 1 })).flags = [] := by decide +kernel

/-- An XPUT through a handle with two lanes at one element of row 40 and a third in row 41: the row's lanes land together, the later one last. -/
def putting : Op :=
  { id := 3, kind := .xput, party := 0, lid := 0, flag := 1, lanes := [{ lane := 0, loc := 1280, data := 5 }, { lane := 1, loc := 1280, data := 6, mark := true },
    { lane := 2, loc := 1312, data := 7 }] }

theorem witness_put_rows : (flying putting).ops.find? (fun x => x.id == 3) = some putting ∧ (flying putting).rowPending 40 = false ∧
    (flying putting).accessBefore 0 3 = false ∧ (flying putting).copies = [] ∧ (putting.lanes.map (·.lane)).Pairwise (· < ·) ∧
    (let t := after (.storePerformed 3 0) (flying putting)
     (t.elem 1280, t.poisoned 1280, t.elem 1312, t.ops.map (fun o => o.lanes.map (·.lane))) = (6, true, 0, [[2]])) ∧
    (let t := after (.storePerformed 3 2) (after (.storePerformed 3 0) (flying putting))
     (t.elem 1312, t.ops, (t.wave 0).flags) = (7, [], [])) := by decide +kernel

/-- An XGET or XATM of lane 2 at element 1312, which holds 9. -/
def getting (k : OpKind) : State :=
  { flying { id := 3, kind := k, party := 0, lid := 0, flag := 1, dst := .vec 9 false, rows := [27, 28, 29], lanes := [{ lane := 2, loc := 1312, data := 5 }] } with
    elems := [(1312, 9)], rows := [27, 28, 29].map (fun r => (r, { pnd := true, owner := 3 })) }

theorem witness_get : State.destRows 0 (.vec 9 false) = [27, 28, 29] ∧ ((getting (.xatm 0)).rowPending (1312 / 32)) = false ∧
    (getting (.xatm 0)).poisoned 1312 = false ∧ (getting .xget).accessBefore 0 3 = false ∧
    (let t := after (.returningOperationComplete 3) (getting .xget)
     (t.vget 0 9 2, t.elem 1312, t.ops, (t.info 28).pnd) = (9, 9, [], false)) ∧
    (let t := after (.returningOperationComplete 3) (getting (.xatm 0))
     (t.vget 0 9 2, t.elem 1312) = (9, 14)) := by decide +kernel

def special : Op :=
  { id := 3, kind := .special, party := 0, lid := 0, flag := 1, dst := .vec 9 false, lanes := [{ lane := 0, done := true, value := 7 }, { lane := 95, done := true, value := 8 }],
    rows := [27, 28, 29], conds := [(0, 1)] }

theorem witness_returning : (flying special).ops.find? (fun x => x.id == 3) = some special ∧ special.dst ≠ .none ∧
    (∀ a ∈ special.lanes, a.done = true ∧ a.poison = false) ∧ special.out = false ∧ special.seq = none ∧ (special.lanes.map (·.lane)).Nodup ∧
    ((flying special).wave 0).present ≠ 0 ∧ (after (.returningOperationComplete 3) (flying special)).vget 0 9 95 = 8 ∧
    (wave (.returningOperationComplete 3) (flying special)).flg = 1 ∧ (wave (.returningOperationComplete 3) (flying special)).flags = [] := by decide +kernel

def loading (k : OpKind) : Op :=
  { id := 3, kind := k, party := 0, lid := 0, flag := 1, size := 4, dst := .vec 9 false, lanes := [{ lane := 2, loc := 0x101, data := 5 }], rows := [27, 28, 29] }

def loaded (k : OpKind) : State := { flying (loading k) with mem := [(0x101, 0xFD), (0x104, 0x80)] }

theorem witness_load : (loaded .load).memReady (loading .load) { lane := 2, loc := 0x101, data := 5 } = true ∧
    (loaded .load).loadPoison 0x101 4 = false ∧ ((loaded .load).wave 0).present ≠ 0 ∧ (loaded .load).queued (loading .load) = [] ∧
    (loaded (.amo 0)).memReady (loading (.amo 0)) { lane := 2, loc := 0x101, data := 5 } = true ∧
    (after (.returningOperationComplete 3) (loaded .load)).vget 0 9 2 = 0x800000FD ∧
    (after (.returningOperationComplete 3) (loaded (.amo 0))).vget 0 9 2 = 0x800000FD ∧
    (after (.returningOperationComplete 3) (loaded (.amo 0))).mem = [(0x101, 2), (0x102, 1), (0x104, 0x80)] := by decide +kernel

/-! ### Copy engines and tags -/

/-- Handle 0: 0x1000 bytes from 0x2000, read and write; handle 1: valid, neither; two tags, 5 and 6 of the core. -/
def copying (r : SMap Word) : State :=
  (({ d0 with mem := [(0x101, 0x20), (0x109, 0x10), (0x10C, 0x0E), (0x111, 0x20), (0x119, 0x10), (0x11C, 0x08)] } : State).modLaunch 0
    (fun l => { l with hdr := { l.hdr with htbl := 0x100 } })).modBlock 0 (fun b => { b with tags := [5, 6] }) |>.modWave 0
    (fun w => { w with sregs := r, handles := [(2, { state := .attached, exporter := 0, rows := 4 })] })

def cp : State := copying [(9, 0xF00), (10, 3), (11, 2)]

theorem witness_copy : cp.ready [] [8, 9, 10, 11] ∧ cp.unlogged ∧ 1 < (cp.block cp.me.blk).tags.length ∧ cp.tagOf cp.cur 1 = .idle ∧
    (cp.pinned cp.cur 0).map (fun e => (e.base, e.len, e.wr, e.rd)) = some (0x2000, 0x1000, true, true) ∧ 0xF00 + 128 * 2 = 0x1000 ∧ 0xF00 % 4 = 0 ∧
    cp.rowCode cp.cur .slot 3 2 = 0 ∧ cp.fenced cp.cur 0x30 = false ∧ (∀ i < 2, cp.rowHeld (cp.firstRow cp.cur .slot 3 2 + i) = false ∧ cp.markHeld cp.cur (cp.firstRow cp.cur .slot 3 2 + i) = false) ∧
    cp.codeLocked (0x2000 + 0xF00) 256 = true ∧ cp.racing cp.cur ((List.range 2).map (fun i => (cp.firstRow cp.cur .slot 3 2 + i, false))) = [] ∧
    (after (.cpin 8 1 .slot) cp).copies.map (fun c => c.items.map (·.src)) = [[some (.mem 0x2F00), some (.mem 0x2F80)]] := by decide +kernel

/-- Without a code page in the way, CPOUT captures its rows. -/
def cpo : State := { cp with images := [] }

theorem witness_copy_out : cpo.ready [] [8, 9, 10, 11] ∧ cpo.codeLocked (0x2000 + 0xF00) 256 = false ∧
    (after (.cpout 8 1 .slot) cpo).copies.map (fun c => c.items.map (fun i => (i.dst, i.data.take 4))) =
      [[(.mem 0x2F00, [3, 0, 0x80000000, 9]), (.mem 0x2F80, [0, 0, 0, 0])]] ∧ ((after (.cpout 8 1 .slot) cpo).core 0).tags = [(6, .busy)] := by decide +kernel

def cr : State := copying [(8, 2), (9, 2), (10, 3), (11, 2)]

theorem witness_copy_rows : cr.ready [] [8, 9, 10, 11] ∧ (cr.me.handles.get {} 2).state = .attached ∧ (cr.me.handles.get {} 2).exporter = cr.cur ∧
    2 + 2 ≤ (cr.me.handles.get {} 2).rows ∧ cr.rowCode cr.cur .slot 3 2 = 0 ∧ cr.fenced cr.cur 0x18 = false ∧
    (∀ i < 2, cr.rowHeld (cr.firstRow cr.cur .slot 3 2 + i) = false ∧ cr.rowHeld (rowKey 0 2 + i) = false ∧ cr.ownTouch cr.cur (rowKey 0 2 + i) = false) ∧
    (after (.cprr 8 0 false) cr).copies.map (fun c => c.rows) = [[2, 3]] := by decide +kernel

def ga : State := copying [(9, 4), (10, 20)]

theorem witness_gather : ga.ready [3] [8, 9, 10] ∧ ga.unlogged ∧ ga.tagOf ga.cur 0 = .idle ∧ ga.me.activeMask ≠ 0 ∧ ga.clear (ga.inActive [3]) [] ∧
    ga.clean (ga.inActive [3]) ∧ ga.gatherCode ga.cur 8 false 2 3 false = 0 ∧ ga.fenced ga.cur 0x30 = false ∧
    (∀ r ∈ State.destRows ga.cur (.vec 20 false), ga.markHeld ga.cur r = false) ∧
    (after (.gath 8 0 false 2 3) ga).copies.map (fun c => c.items.map (·.src)) = [[some (.mem 0x2184), some (.mem 0x218C), some (.mem 0x2190)]] := by
  decide +kernel

def sc : State := { copying [(9, 4), (10, 1)] with images := [] }

theorem witness_scatter : sc.ready [3] [8, 9, 10] ∧ sc.gatherCode sc.cur 8 false 2 3 true = 0 ∧ sc.codeLocked 0x2184 4 = false ∧
    (∀ r ∈ rowsOf sc.cur (sc.inActive [1]), sc.rowHeld r = false ∧ (sc.raceRow sc.cur r false).isSome = true) ∧
    (after (.scat 8 0 false 2 3) sc).copies.map (fun c => c.items.map (·.data)) = [[[3], [0x80000000], [9]]] ∧
    (copying [(8, 2), (9, 0xFFFFFFA0), (10, 20)]).gatherCode 0 8 true 2 3 false = 0 ∧
    (after (.gath 8 0 true 2 3) (copying [(8, 2), (9, 0xFFFFFFA0), (10, 20)])).copies.map (fun c => c.items.map (·.src)) =
      [[some (.elem 0), some (.elem 2), some (.elem 3)]] := by decide +kernel

def tagged (a b : TagState) (r : SMap Word) : State := { copying r with cores := [(0, { tags := [(5, a), (6, b)] })] }

theorem witness_copy_errors : (copying [(8, 9)]).ready [] [8, 9, 10, 11] ∧ (copying [(8, 9)]).runOf 0 = .original ∧
    (wave (.cpin 8 2 .slot) (copying [])).stop = some (0x1B, 2, 0, 0) ∧ (tagged .idle (.error 3) []).tagOf 0 1 = .error 3 ∧
    (wave (.cpin 8 1 .slot) (tagged .idle (.error 3) [])).stop = some (0x1A, 0x103, 0, 0) ∧ ((copying [(8, 9)]).pinned 0 9).isNone = true ∧
    ((after (.cpin 8 0 .slot) (copying [(8, 9)])).core 0).tags = [(5, .error 1)] ∧
    ((after (.cpin 8 0 .slot) (copying [(9, 0xF04), (11, 2)])).core 0).tags = [(5, .error 2)] ∧
    ((copying [(8, 1)]).pinned 0 1).map (·.rd) = some false ∧
    ((after (.cpin 8 0 .slot) (copying [(8, 1), (11, 1)])).core 0).tags = [(5, .error 3)] := by decide +kernel

def engined (k : CopyKind) (i : CopyItem) : State :=
  { copying [] with copies := [{ id := 3, kind := k, engine := .copy0, core := 0, party := 0, lid := 0, tag := 5, btag := 0, items := [i], rows := if k = .cpin then [30] else [] }],
                    cores := [(0, { tags := [(5, .busy)] })], rows := if k = .cpin then [(30, { pnd := true, owner := 3 })] else [] }

theorem witness_engine_in : let s := engined .cpin { src := some (.mem 0x100), dst := .row 30, n := 128 }
    (s.copies.map (fun c => s.itemReady c 0 { src := some (.mem 0x100), dst := .row 30, n := 128 })) = [true] ∧
    s.racing 0 (State.itemAccesses { id := 3, kind := .cpin, engine := .copy0, core := 0, party := 0, lid := 0, tag := 5, btag := 0, items := [] } 0
      { src := some (.mem 0x100), dst := .row 30, n := 128 }) = [] ∧ (s.block (s.wave 0).blk).logging = false ∧ s.loadPoison 0x100 128 = false ∧
    (after (.engineRowDelivery 3 0) s).elem (elemKey 30 0) = 0x2000 ∧ (after (.engineRowDelivery 3 0) s).info 30 = {} ∧
    ((after (.engineRowDelivery 3 0) s).core 0).tags = [(5, .done)] := by decide +kernel

def outItem : CopyItem := { dst := .mem 0x2000, n := 128, data := (List.range 32).map (BitVec.ofNat 32) }
def sentItem : CopyItem := { dst := .mem 0x10000000000, n := 128, sent := true }

theorem witness_engine_out : ((engined .cpout outItem).copies.map (fun c => (engined .cpout outItem).itemReady c 0 outItem)) = [true] ∧
    outItem.data.length = 32 ∧ outItem.poison = [] ∧ (after (.engineRowDelivery 3 0) (engined .cpout outItem)).byte 0x207C = 31 ∧
    (after (.engineRowDelivery 3 0) (engined .cpout outItem)).byte 0x2080 = 0 := by decide +kernel

theorem witness_remote_copy : ((engined .cpout sentItem).copies.map (·.id)).Nodup ∧ sentItem.sent = true ∧ sentItem.done = false ∧
    ((after (.remoteRetransmissionFailure 3) (engined .cpout sentItem)).core 0).tags = [(5, .error 9)] ∧
    ((after (.remoteWriteAck 3 0) (engined .cpout sentItem)).core 0).tags = [(5, .done)] := by decide +kernel

theorem witness_tags : (tagged .done .idle [(2, 3)]).unlogged ∧ (tagged .done .idle [(2, 3)]).ready [] [2, 3] ∧ (tagged .done .idle [(2, 3)]).ready [] [8, 2, 3] ∧
    (wave (.twall 2) (tagged .done .idle [(2, 3)])).k = 2 ∧ (wave (.twany 8 2) (tagged .busy .idle [(2, 3)])).sget 8 = 1 ∧
    (wave (.twany 8 2) (tagged .busy .busy [])).sget 8 = 64 ∧ (wave (.tffr 8 2) (tagged .busy (.error 2) [(2, 3)])).sget 8 = 1 ∧
    (wave (.tffr 8 2) (tagged .busy .idle [(2, 3)])).sget 8 = 64 ∧ ((after (.tclr 2) (tagged (.error 2) .busy [(2, 3)])).core 0).tags = [(6, .busy)] ∧
    (wave (.tstat 8 3) (tagged .busy (.error 2) [])).sget 8 = 0x102 ∧ (wave (.tstat 8 3) (tagged .busy .done [])).sget 8 = 0 ∧
    (wave (.tstat 8 0) (tagged .busy .done [])).sget 8 = 2 ∧ (wave (.tstat 8 1) (tagged (.error 1) .done [])).sget 8 = 1 ∧
    (wave (.tstat 8 2) (tagged .busy .done [])).sget 8 = 1 := by decide +kernel

/-! ### Matrix bays -/

/-- Bay 0 is the block's, of two waves. -/
def bayed (y : Bay) (r : SMap Word) : State :=
  { (db (fun b => { b with bays := [0], n := 2 })).modWave 0 (fun w => { w with sregs := r }) with cores := [(0, { bays := [(0, y)] })] }

def gangs : State := bayed {} [(1, 3), (2, 0x10003), (20, 2), (21, 1), (22, 10), (23, 3)]

theorem witness_gang : gangs.ready [] [] ∧ gangs.unlogged ∧ gangs.ready [] [8, 1] ∧ (wave (.gang 8 1) gangs).gng = 3 ∧ (wave (.gang 8 1) gangs).sget 8 = 0 ∧
    (wave (.gang 8 2) gangs).sget 8 = 2 ∧ (wave (.gang 8 2) gangs).gng = 0 ∧ (wave (.gang 8 20) gangs).sget 8 = 1 := by decide +kernel

theorem witness_bay_queue : 0 ∈ (gangs.block gangs.me.blk).bays ∧ (gangs.bay 0 0).queue = [] ∧ gangs.fenced 0 0x40 = false ∧ gangs.fenced 0 0x80 = false ∧
    gangs.ready [] [20, 21, 22, 23] ∧ gangs.rowCode 0 .slot 10 4 = 0 ∧ gangs.clear [(3, maskOf (fun l => decide (l < 48)))] [] ∧
    (∀ j < 4, gangs.markHeld 0 (gangs.firstRow 0 .slot 10 4 + j) = false) ∧
    ((after (.mwl 0 1 20 .i8) gangs).bay 0 0).queue.map (·.work) = [.mwl 1 2 .i8 0] ∧
    ((after (.mzer 0 5 2) gangs).bay 0 0).queue.map (·.work) = [.mzer 5 2] ∧ goes (.mdrn 20 0 .f32 false false false) gangs = true ∧
    ((after (.mdrn 20 0 .f32 false false false) gangs).info 13).pnd = true ∧
    ((after (.mdrn 20 0 .f32 false false false) gangs).info 14).pnd = false := by decide +kernel

theorem witness_bay_rest : gangs.ready [] [8, 9] ∧ (wave (.mstat 8 0 true false) gangs).sget 8 = 0 ∧
    ((after (.mhint 0 64) gangs).bay 0 0).ramp = .up ∧ 1 ∉ (gangs.block gangs.me.blk).bays ∧
    (wave (.mzer 1 0 1) gangs).stop = some (0x14, 0, 0, 0) ∧
    (wave (.mstat 8 0 false true) (bayed { bsat := 7, bnan := 9 } [])).sget 9 = 9 ∧
    ((after (.mstat 8 0 false true) (bayed { bsat := 7, bnan := 9 } [])).bay 0 0).bsat = 0 := by decide +kernel

def ganged (e : SMap WaveEnd) : State := (bayed {} []).modWave 0 (fun w => { w with gng := 3 }) |>.modBlock 0 (fun b => { b with ends := e })

theorem witness_mma : ((ganged []).block? (ganged []).me.blk).isSome = true ∧ (∃ i < 16, (ganged []).me.gng.getLsbD i = true) ∧
    (∀ i < 16, (ganged []).me.gng.getLsbD i = true → ((ganged []).block 0).ends.get .live i = .live) ∧
    (wave (.mma 10 2 1) (ganged [])).wait = .rendezvous ∧ ((ganged [(1, .killed)]).me.gng.getLsbD 1 = true) ∧
    ((ganged [(1, .killed)]).block 0).ends.get .live 1 ≠ .live ∧ (wave (.mma 10 2 1) (ganged [(1, .killed)])).abn = true ∧
    (wave (.mma 10 2 1) (ganged [(1, .killed)])).pc = 0x108 := by decide +kernel

def command (w : BayWork) : BayCmd := { id := 7, party := 0, pc := 0x104, k := 1, work := w }
def started (w : BayWork) : BayCmd := { command w with started := true }
/-- A bay with one command and element 0 of its accumulator row 5 at 9. -/
def busy (x : BayCmd) (ramp : Ramp) : State := { bayed { queue := [x], ramp := ramp } [] with elems := [(1, 4), (96, 3), (elemKey (bayRow 0 0 20) 0, 9)] }

def drainOne (clr : Bool) : BayWork := .mdrn 5 1 .f32 false clr 2 ((List.range 48).map (fun _ => 0x7F7F7F7F)) [] 10 4

theorem witness_bay_start : ([] : List BayCmd).all (fun e => !holds e (command (drainOne true))) = true ∧ (command (drainOne true)).started = false ∧
    (busy (command (drainOne true)) .cold).lineAt 0 0 = false ∧ (busy (command (drainOne true)) .cold).bay 0 0 = { queue := [] ++ command (drainOne true) :: [] } ∧
    (((after (.bayCommandStart 0 0 7) (busy (command (.mwl 1 2 .i8 0)) .cold)).bay 0 0).latches.get {} 1).state = .loading ∧
    (((after (.bayCommandStart 0 0 7) (busy (command (.mma [] 0 5 0)) .cold)).bay 0 0).queue.map (·.started)) = [true] ∧
    (after (.bayCommandStart 0 0 7) (busy (command (.mzer 5 1)) .cold)).elems = [(1, 4), (96, 3)] ∧
    (after (.bayCommandStart 0 0 7) (busy (command (.mzer 6 1)) .cold)).elem (elemKey (bayRow 0 0 20) 0) = 9 := by decide +kernel

/-- What a turn leaves. -/
def moved (m : Turn) (s : State) : State := match s.attempt m with | .next t => t | _ => {}

/-- MDRN starts: its column scales are counted, its row is not yet read. Then the row is read, and cleared under CLR. -/
theorem witness_drain :
    (let t := after (.bayCommandStart 0 0 7) (busy (command (drainOne true)) .cold)
     (t.bay 0 0).queue.map (fun z => (z.started, z.accRead)) = [(true, 0)] ∧ t.elem (elemKey (bayRow 0 0 20) 0) = 9 ∧ (t.bay 0 0).bnan = 0) ∧
    ((after (.bayCommandStart 0 0 7) (busy (command (.mdrn 5 1 .f32 false false 2 (List.replicate 48 0xFFFFFFFF) [] 10 4)) .cold)).bay 0 0).bnan = 128 ∧
    ((busy (started (drainOne true)) .cold).drainingCmd 0 0).map (·.work) = some (drainOne true) ∧
    (let t := moved (.drainRead 0 0) (busy (started (drainOne true)) .cold)
     t.elem (elemKey (bayRow 0 0 20) 0) = 0 ∧ (t.bay 0 0).queue.map (fun z => (z.accRead, z.output.length, z.output.head?)) = [(1, 128, some (9, false))]) ∧
    (moved (.drainRead 0 0) (busy (started (drainOne false)) .cold)).elem (elemKey (bayRow 0 0 20) 0) = 9 := by decide +kernel

def loadingBay : State := busy (started (.mwl 1 2 .i8 0)) .cold

theorem witness_latch : (loadingBay.loadingCmd 0 0).map (fun x => (x.work, x.served, x.seq)) = some (.mwl 1 2 .i8 0, [], none) ∧ loadingBay.lineAt 0 0 = false ∧
    (∀ col < 128, ∀ r ∈ State.tileRows 0 0 2 col .i8, loadingBay.rowHeld r = false) ∧ loadingBay.runOf 0 = .original ∧
    goes (.latchReady 0 0 1) loadingBay = true := by decide +kernel

/-- The last row of a member with two of three read. -/
def member (n : Nat) : Member := { party := 0, pc := 0x104, k := 1, vf := 1, count := 1, lat := 1, typ := .i8x4, gng := 3, read := n }
def streamed : State :=
  (busy { started (.mma [member 2] 1 5 3) with weights := { state := .ready, fmt := .i8 } } .warm).modWave 0 (fun w => { w with wait := .stream })

theorem witness_stream : (streamed.streaming 0 0).map (·.id) = some 7 ∧ (member 2).read + fmtRows .i8 = 3 * (member 2).count ∧ (streamed.bay 0 0).ramp = .warm ∧
    streamed.lineAt 0 0 = false ∧ streamed.rowHeld (slotRow 0 5) = false ∧ streamed.racing 0 [(slotRow 0 5, false)] = [] ∧
    (streamed.wave 0).wait = .stream ∧ (wave (.mmaRetire 0 0) streamed).pc = 0x108 ∧ (wave (.mmaRetire 0 0) streamed).wait = .none ∧
    ((after (.mmaRetire 0 0) streamed).bay 0 0).queue.map (fun z => z.accs.map (·.row)) = [[7]] := by decide +kernel

/-- 16 products of 1 and 2 come to element 0 of row 5. -/
def readRow : BayCmd :=
  { started (.mma [member 3] 1 5 3) with accs := [{ row := 5, words := [0x01010101, 0x01010101, 0x01010101, 0x01010101], poison := [], typ := .i8x4 }],
                                         weights := { state := .ready, fmt := .i8, cols := [(0, [0x02020202, 0x02020202, 0x02020202, 0x02020202])] } }

theorem witness_accumulation : (busy readRow .warm).elem (elemKey (bayRow 0 0 20) 0) = 9 ∧ readRow.accs ≠ [] ∧
    (after (.accumulationWrite 0 0) (busy readRow .warm)).elem (elemKey (bayRow 0 0 20) 0) = 41 ∧
    ((after (.accumulationWrite 0 0) (busy readRow .warm)).bay 0 0).queue = [] := by decide +kernel

def drained : State :=
  { busy { started (drainOne false) with accRead := 1, output := (List.range 128).map (fun i => (BitVec.ofNat 32 i, false)) } .cold with
    rows := [(10, { pnd := true, owner := 7 })] }

/-- An MDRN of two rows with CLR, none read; rows 5 and 6 hold 9 and 8. -/
def unread : State := let s := busy (started (.mdrn 5 2 .f32 false true 2 ((List.range 48).map (fun _ => 0x7F7F7F7F)) [] 10 8)) .cold
  s.putElem (elemKey (bayRow 0 0 24) 0) 8 false

theorem witness_drain_write : feeders 1 0 .f32 - 1 = 0 ∧ (drained.readAccs 0 0 0).bind (fun u => (u.drainingCmd 0 0).map (·.id)) = some 7 ∧
    drained.racing 0 [(10, true)] = [] ∧ (drained.info 10).owner = 7 ∧ (after (.drainRowWrite 0 0) drained).elem (elemKey 10 31) = 31 ∧
    ((after (.drainRowWrite 0 0) drained).info 10).pnd = false ∧
    ((after (.drainRowWrite 0 0) drained).bay 0 0).queue.map (fun z => (z.written, z.output.length)) = [(1, 96)] ∧
    (let t := after (.drainRowWrite 0 0) unread
     t.elem (elemKey 10 0) = 9 ∧ t.elem (elemKey (bayRow 0 0 20) 0) = 0 ∧ t.elem (elemKey (bayRow 0 0 24) 0) = 8) := by decide +kernel

def ramped (r : Ramp) (t : DWord) : State := { bayed { ramp := r, rampEnd := 32 } [] with clock := t }

theorem witness_ramps : ((ramped .up 32).bay 0 0).ramp = .up ∧ ((ramped .warm 64).bay 0 0).ramp = .warm ∧ ((ramped .warm 64).bay 0 0).streams = false ∧
    ((ramped .warm 64).bay 0 0).mmaWaits = false ∧ ((ramped .down 32).bay 0 0).ramp = .down ∧ goes (.rampUpEnd 0 0) (ramped .up 31) = false ∧
    ((after (.rampUpEnd 0 0) (ramped .up 32)).bay 0 0).ramp = .warm ∧ goes (.rampDownStart 0 0) (ramped .warm 63) = false ∧
    ((after (.rampDownStart 0 0) (ramped .warm 64)).bay 0 0).rampEnd = 96 ∧ ((after (.rampDownEnd 0 0) (ramped .down 32)).bay 0 0).ramp = .cold := by
  decide +kernel

def meeting : Rendezvous := { n := 4, members := [(0, member 0), (1, { member 0 with party := 1 })], since := 0 }
/-- Two waves at their rendezvous, latch 1 ready. -/
def met (r : Rendezvous) : State :=
  (bayed { latches := [(1, { state := .ready, fmt := .i8 })] } []).modBlock 0 (fun b => { b with rends := [r], parties := [(0, 0), (1, 1)] })
    |>.modLaunch 0 (fun l => { l with prog := .resident })

theorem witness_rendezvous : (gangMembers (member 0).gng) = [0, 1] ∧ ((met meeting).launch 0).prog = .resident ∧ ((met meeting).bay 0 0).latchEmpty 1 = false ∧
    fmtAccepts (((met meeting).bay 0 0).fmtFor 1) .i8x4 = true ∧ ((after (.gangRendezvousComplete 0 4) (met meeting)).bay 0 0).queue.length = 1 ∧
    (after (.gangRendezvousComplete 0 4) (met meeting)).waves.map (fun e => e.2.wait) = [.stream, .stream] ∧ (met meeting).runOf 0 = .original ∧
    (wave (.gangTimeout 0 4) { met meeting with clock := 0x100000 }).stop = some (0x1D, 0, 0, 0) ∧
    goes (.gangTimeout 0 4) { met meeting with clock := 0xFFFFF } = false := by decide +kernel

/-! ### Geodes -/

/-- The block's geode 0 is the core's descriptor 7; md is f32. -/
def geoded (x : Geode) (q : List GeodeCmd) : State :=
  { (db (fun b => { b with geodes := [7] })).modWave 0 (fun w => { w with md := 2, sregs := [(1, 2), (2, 96)] }) with
    cores := [(0, { geodes := [(7, x)], geodeQ := q })], elems := [(96, 0x3F800000), (192, 0x40000000)] }

def bound : Geode := { bnd := true, dcap := 2, vreg := 5 }
def geodeIdle : State := geoded bound []

theorem witness_geode : (geoded {} []).ready [] [1] ∧ (geoded {} []).runOf 0 = .original ∧ (geoded {} []).geodeOf 0 0 = 7 ∧ ((geoded {} []).me.sget 1).toNat % 128 ≤ 95 ∧
    (after (.pbind 0 5 1) (geoded {} [])).geode 0 7 = bound ∧ (wave (.pbind 0 5 2) (geoded {} [])).stop = some (0x20, 0, 0, 0) ∧
    geodeIdle.fenced 0 0xC0 = false ∧ (∀ b < 3, geodeIdle.rowHeld (vrow 0 5 b) = false ∧ geodeIdle.readTouch 0 (vrow 0 5 b) = false) ∧ geodeIdle.ready [1, 2] [] ∧
    geodeIdle.clear (geodeIdle.inActive [1, 2]) [] ∧ typeOf geodeIdle.me.md = .f32 ∧
    ((after (.pmul 0 1 2) geodeIdle).core 0).geodeQ.map (·.work) =
      [.mul [(0x3F800000, 0x40000000, false), (0, 0, false), (0, 0, false)]] ∧
    ((after (.pout 9 0 1) geodeIdle).info (vrow 0 9 2)).pnd = true := by decide +kernel

theorem witness_geode_rest : geodeIdle.ready [9] [1] ∧ geodeIdle.ready [] [8, 9, 10, 11] ∧ (wave (.pdesc 8 0) geodeIdle).sget 8 = 0x50082 ∧
    (after (.punb 0) geodeIdle).geode 0 7 = {} ∧ goes (.pinit 0) geodeIdle = true ∧ goes (.prsc 0) geodeIdle = true ∧ goes (.pdiv 0 1 2) geodeIdle = true ∧
    (wave (.pinit 1) geodeIdle).stop = some (0x20, 1, 0, 0) := by decide +kernel

/-- A fence orders engine reads after a command in flight. -/
def readsFenced : State :=
  ({ geodeIdle with copies := [{ id := 3, kind := .cpin, engine := .copy1, core := 0, party := 0, lid := 0, tag := 5, btag := 0, items := [] }] } : State).modWave 0
    (fun w => { w with fences := [{ succ := 0x40, ids := [3] }] })

/-- It holds PRSC, and PINIT, which only writes, not (R211). -/
theorem witness_geode_fence : let s := readsFenced
    s.fenced 0 0x80 = false ∧ s.fenced 0 0xC0 = true ∧ ((after (.pinit 0) s).core 0).geodeQ.map (·.work) = [.init] ∧
    ((after (.prsc 0) s).core 0).geodeQ = [] := by decide +kernel

def unitCmd (w : GeodeWork) : GeodeCmd := { id := 7, party := 0, lid := 0, pc := 0x104, k := 1, g := 7, work := w, rows := [15, 16, 17] }
/-- c_0 = 1 (v5, lane 0). -/
def unitState (w : GeodeWork) : State :=
  { geoded bound [unitCmd w] with elems := [(480, 0x3F800000)], rows := [(15, { pnd := true, owner := 7 })] }
def coeffs (w : GeodeWork) : List Word := (List.range 3).map (fun l => (after (.geodeCommandComplete 0) (unitState w)).vget 0 5 l)

theorem witness_geode_unit : (unitState .init).lineAt 0 0 = false ∧ (unitState .init).racing 0 ((unitState .init).geodeRows (unitCmd .init) bound) = [] ∧
    ((unitState .init).wave 0).status = .running ∧ bound.dcap < 96 ∧ coeffs .init = [0x3F800000, 0, 0] ∧
    (unitState (.mul [])).racing 0 ((unitState (.mul [])).geodeRows (unitCmd (.mul [])) bound) = [] ∧ ((after (.geodeCommandComplete 0) (unitState .init)).info 15).pnd = false := by
  decide +kernel

/-- (1)(1 + 2x)(1 + x) = 1 + 3x + 2x²; (1)/(1) after one factor; POUT of c_0 with exponent 1. -/
theorem witness_geode_values : coeffs (.mul [(0x3F800000, 0x40000000, false), (0x3F800000, 0x3F800000, false)]) = [0x3F800000, 0x40400000, 0x40000000] ∧
    (unitState (.out 9 1 2 5)).racing 0 ((unitState (.out 9 1 2 5)).geodeRows (unitCmd (.out 9 1 2 5)) bound) = [] ∧
    (after (.geodeCommandComplete 0) (unitState (.out 9 1 2 5))).vget 0 9 0 = 0x40000000 ∧
    (unitState (.div [(0x3F800000, 0, false)])).racing 0 ((unitState (.div [(0x3F800000, 0, false)])).geodeRows (unitCmd (.div [(0x3F800000, 0, false)])) bound) = [] ∧
    ((after (.geodeCommandComplete 0) (unitState (.div [(0x3F800000, 0, false)]))).geode 0 7).emp = true ∧
    (unitState .rsc).racing 0 ((unitState .rsc).geodeRows (unitCmd .rsc) bound) = [] ∧ coeffs .rsc = [0x3F800000, 0, 0] := by decide +kernel

/-- ChainAndGeodeArithmetic: 32 words of four i8 against four i8; a division by a zero r; k = 1 for a largest coefficient of 2. -/
theorem witness_chain : (List.replicate 32 (0x01010101 : Word)).length * (EType.i8x4).count = 128 ∧
    chainStep .i8x4 .i8x4 (List.replicate 32 0x01010101) (List.replicate 32 0x02020202) 9 = (265, 0) ∧
    (let q : Poly := { g := { n := 1 }, cs := [0x40000000, 0x3F800000] }
     (∀ c ∈ q.cs, c < 2 ^ 32 ∧ codeFin f32 c = true) ∧ (q.over 0 0x3F800000).g.dz = true ∧ (q.over 0 0x3F800000).g.ill = true ∧
       (q.normalise.cs, q.normalise.g.exp) = ([0x3F800000, 0x3F000000], 1) ∧ (q.times 0x3F800000 0x3F800000).g.n = 2) ∧
    outElem 2 0x3F800000 3 = 0x41000000 := by decide +kernel

/-! ### Streams -/

def src (k : SourceKind) (st : Stream) : Stream := { st with opened := true, srcs := [(0, { kind := k, ws := 40 })] }
/-- Stream 5 has one source; the launch stands, with a binding that the block serves: origin 0, windows of 64 (R233). -/
def streamsOn (k : SourceKind) (b : Binding) : State :=
  { (dl (fun l => { l with hdr := { l.hdr with std := true, nbind := 1, binds := [{ strm := 5, slide := 64 }] }, binds := [(0, { b with desc := { strm := 5, slide := 64 } })] })).modWave 0
      (fun w => { w with sregs := [(1, 5), (2, 100), (4, 0x45)] }) with streams := [(5, src k {})] }

def dev : State := streamsOn (.device 0) {}

theorem witness_stream_forms : dev.unlogged ∧ dev.fenced 0 0x30 = false ∧ ((dev.me.sget 1).toNat / 64 % 4 = 0 ∧ (dev.me.sget 1).toNat / 2 ^ 14 = 0) ∧
    ((dev.stream 5).srcs.get {} 0).kind = .device dev.me.lid ∧ (dev.launch dev.me.lid).hdr.out = false ∧
    dev.ready ((List.range 16).map (16 + ·)) [1, 8] ∧ dev.clear (dev.inActive ((List.range 16).map (16 + ·))) [] ∧
    dev.clean (dev.inActive ((List.range 16).map (16 + ·))) ∧ dev.me.activeMask ≠ 0 ∧ (wave (.wemit 16 1 8) dev).wait = .unit 9 8 ∧
    dev.ready [] [8, 1, 2, 3] ∧ (after (.wmadv 8 1 2) dev).unitQ.map (·.work) = [.advance 5 0 100] ∧
    (after (.wmidl 8 1) dev).unitQ.map (·.work) = [.idle 5 0] ∧
    (wave (.wemit 16 1 8) (dev.modWave 0 (fun w => { w with cnt := [(0, 1), (1, 1), (2, 1), (3, 1)] }))).sget 8 = 0 := by decide +kernel

def winHeld : State := streamsOn (.device 0) { windows := [(5, .taken)] }

theorem witness_stream_rest : ((dev.launch 0).hdr.std = true ∧ 0 < (dev.launch 0).hdr.binds.length ∧ (dev.block 0).index.toNat = 0) ∧
    (after (.wpub 16 1 8 0) dev).unitQ.map (fun u => match u.work with | .publish _ _ j m r => (j, m, r.length) | _ => (0, false, 0)) = [(5, false, 3)] ∧
    (wave (.wamd 16 1 8 0) dev).wait = .unit 9 8 ∧ (dev.stream 5).srcs.any (fun z => z.2.kind == .device dev.me.lid) = true ∧ dev.ready [] [8, 9, 1] ∧ (wave (.wmrd 8 1 1) dev).sget 8 = 40 ∧
    dev.ready [] [8, 1] ∧ (winHeld.binding 0 0).windows.get .none 5 = .taken ∧ (winHeld.me.sput 8 0).present ≠ 0 ∧
    (wave (.wrel 8 1 0) winHeld).sget 8 = 0 ∧ ((after (.wrel 8 1 0) winHeld).binding 0 0).windows.get .none 5 ≠ .taken ∧
    (wave (.wrel 8 1 0) dev).sget 8 = 1 ∧ (dev.me.sget 4).toNat / 64 % 4 = 1 ∧ (wave (.wmidl 8 4) dev).stop = some (0x21, 0, 0, 0) ∧
    (wave (.wrel 8 1 1) dev).stop = some (0x21, 1, 0, 0) := by decide +kernel

def entry1 : QEntry := { words := (List.range 16).map (fun j => BitVec.ofNat 32 (100 + j)), j0 := 4, mask := 3, since := 0, id := 2 }
def withQueue (b : Binding) : State := { streamsOn (.device 0) b with clock := 64 }
def queued : State := withQueue { onTime := [entry1], late := [entry1], notices := [{ j := 3, after := 0 }] }
def isOver : State := { withQueue {} with streams := [(5, { opened := true, srcs := [(0, { kind := .device 0, ws := 0xFFFFFFFFFFFFFFFF })] })] }

/-- An intake, and then the delivery of its rows. -/
def taken (i : Instr) : State := (List.range 54).foldl (fun s n => match exec (.engineRowDelivery 9 n) s with | .next t => t | _ => s) (after i queued)

theorem witness_intake : queued.unlogged ∧ queued.ready [] [8] ∧ queued.fenced 0 0x20 = false ∧
    queued.racing 0 (accesses 0 [] (queued.inActive ((List.range 16).map (16 + ·) ++ [32, 33]))) = [] ∧ (queued.me.sput 8 1).present ≠ 0 ∧
    (∀ z ∈ (List.range 16).map (16 + ·) ++ [32, 33], ∀ i < 3, queued.rowHeld (vrow 0 z i) = false) ∧
    (wave (.wrecv 16 32 8 0 true) queued).sget 8 = 1 ∧ ((after (.wrecv 16 32 8 0 true) queued).info (vrow 0 17 0)).pnd = true ∧
    (taken (.wrecv 16 32 8 0 true)).vget 0 17 0 = 101 ∧ ((taken (.wrecv 16 32 8 0 true)).info (vrow 0 17 0)).pnd = false ∧
    (taken (.wrecv 16 32 8 0 true)).vget 0 33 0 = 3 ∧ (taken (.wlate 16 32 8 0 false)).vget 0 32 0 = 4 ∧
    ((after (.wlate 16 32 8 0 false) queued).binding 0 0).late = [] := by decide +kernel

theorem witness_next : queued.ready [] [8, 9] ∧ (queued.binding 0 0).notice = some { j := 3, after := 0 } ∧ ((queued.me.sput 8 3).sput 9 0).present ≠ 0 ∧
    (wave (.wnext 8 0 true) queued).sget 8 = 3 ∧ ((after (.wnext 8 0 true) queued).binding 0 0).windows.get .none 3 = .taken ∧
    ((withQueue {}).binding 0 0).notice = none ∧ (withQueue {}).bindingOver ((withQueue {}).binding 0 0) = false ∧
    (wave (.wnext 8 0 false) (withQueue {})).sget 9 = 1 ∧ (isOver.binding 0 0).notice = none ∧ isOver.bindingOver (isOver.binding 0 0) = true ∧
    (wave (.wnext 8 0 true) isOver).sget 9 = 2 := by decide +kernel

/-- The wave waits for request 3. -/
def asking (w : UWork) : State :=
  { dev.modWave 0 (fun w => { w with wait := .unit 3 8 }) with unitQ := [{ id := 3, work := w, source := .wave 0 }] }

def rec80 : List Word := 80 :: (List.range 15).map (fun _ => 0)

theorem witness_unit : (asking (.advance 5 0 50)).launches.all (fun l => !l.hdr.out) = true ∧ ((asking (.advance 5 0 50)).wave 0).wait = .unit 3 8 ∧
    ((asking (.advance 5 0 50)).block 0).logging = false ∧ (asking (.advance 5 0 50)).runOf 0 = .original ∧
    ((asking (.advance 5 0 50)).me.sput 8 0).present ≠ 0 ∧ (wave (.watermarkUnitEntry 0) (asking (.advance 5 0 50))).sget 8 = 0 ∧
    (wave (.watermarkUnitEntry 0) (asking (.advance 5 0 40))).sget 8 = 1 ∧ (wave (.watermarkUnitEntry 0) (asking (.idle 5 0))).sget 8 = 0 ∧
    (((after (.watermarkUnitEntry 0) (asking (.idle 5 0))).stream 5).srcs.get {} 0).idle = true := by decide +kernel

theorem witness_unit_record : (asking (.records 5 0 [rec80] 0)).bindingsOf 5 = [(0, 0)] ∧
    ((asking (.records 5 0 [rec80] 0)).binding 0 0).onTime = [] ∧
    ((asking (.records 5 0 [rec80] 0)).binding 0 0).desc.windowsAt 80 = [1] ∧ (asking (.records 5 0 [rec80] 0)).slotsUsed = 0 ∧
    ((asking (.records 5 0 [rec80] 0)).binding 0 0).path 0 1 = .onTime ∧
    ((after (.watermarkUnitEntry 0) (asking (.records 5 0 [rec80] 0))).binding 0 0).onTime.map (fun e => (e.j0, e.mask)) = [(1, 1)] ∧ (wave (.watermarkUnitEntry 0) (asking (.records 5 0 [rec80] 0))).pc = 0x108 := by decide +kernel

def fedBy (p : Nat) : State := { streamsOn (.port p) {} with clock := 100, streams := [(5, { src (.port p) {} with timeout := 100 })] }

theorem witness_unit_ports : ((fedBy 2).stream 5).opened = true ∧ ((fedBy 2).stream 5).timeout = 100 ∧ (((fedBy 2).stream 5).srcs.get {} 0).kind = .port 2 ∧
    (((fedBy 2).stream 5).srcs.get {} 0).idle = false ∧ ((fedBy 2).ports.get {} 2).up = true ∧ rec80.length = 16 ∧ (fedBy 2).unitQ = [] ∧
    (((after (.idleTimeout 5 0) (fedBy 2)).stream 5).srcs.get {} 0).idle = true ∧ goes (.idleTimeout 5 0) { fedBy 2 with clock := 99 } = false ∧
    (after (.scaleOutRecord 2 5 0 rec80) (fedBy 2)).unitQ.length = 1 ∧ (((after (.portSourceAdvance 2 5 0 60) (fedBy 2)).stream 5).srcs.get {} 0).ws = 60 ∧
    after (.portSourceAdvance 3 5 0 60) (fedBy 2) = fedBy 2 := by decide +kernel

/-! ### Steps of the scheduler and of a block -/

theorem witness_lasts : ∀ w : Wave, w.present ≠ 0 → w.lasts 8 := by
  intro w h v
  simpa [Wave.sput] using h

/-- The wave stands at a header of one word that waits for flag 1; its page is executable. -/
def atHeader (n : Nat) : State :=
  { (mapped true false).modWave 0 (fun w => { w with k := 0, pc := 0, body := [], flags := [(1, n)] }) with
    mem := [(0x10001, 0xFF), (0x10002, 0x02), (0x10003, 0xF0), (0x10004, 0x02), (0x10005, 0x01), (0x10006, 0x03), (0x10007, 0x30)] }

theorem witness_clause : (atHeader 0).me.mayIssue = true ∧ (atHeader 0).me.k = 0 ∧ (atHeader 0).me.trap = none ∧ (atHeader 0).me.stopReq = false ∧
    (match ((atHeader 0).fetchClause 0 0).1 with | .ok h b => some (h, b) | _ => none) = some (0xF002FF00, [0x30030102]) ∧
    ((atHeader 0).fetchClause 0 0).2.nativeOf 0 = true ∧ (match decodeHeader 0xF002FF00 with | .ok h => some (h.len, h.wait) | _ => none) = some (1, 2) ∧
    (wave (.clauseIssue 0) (atHeader 0)).body = [0x30030102] ∧ (wave (.clauseIssue 0) (atHeader 0)).pc = 4 ∧
    (wave (.clauseIssue 0) (atHeader 1)).k = 0 := by decide +kernel

/-- The clause's first word is no instruction: the context halts at it (R75). -/
theorem witness_clause_fault : let s : State := { atHeader 0 with mem := (atHeader 0).mem.filter (fun e => e.1 != 0x10007) }
    s.me.mayIssue = true ∧ s.runOf 0 = .original ∧ (match (s.translate 0 0 0 { ex := true }).1 with | .pa a => a | _ => 0) = 0x10000 ∧
    (wave (.clauseIssue 0) s).stop = some (0x10, 1, 0, 0) ∧ (wave (.clauseIssue 0) s).pc = 4 ∧ (wave (.clauseIssue 0) s).k = 1 := by decide +kernel

theorem witness_scheduler : let s := { dw (fun w => { w with flagWaitSince := some 0 }) with clock := 16 }
    s.me.active = true ∧ (wave (.flagWaitDemotion 0) s).active = false ∧ goes (.flagWaitDemotion 0) { s with clock := 15 } = false ∧
    (wave (.napExpiry 0) { dw (fun w => { w with wait := .nap 9 }) with clock := 9 }).wait = .none ∧
    goes (.napExpiry 0) { dw (fun w => { w with wait := .nap 9 }) with clock := 8 } = false := by decide +kernel

/-- Eight active waves, and one that has waited since 0. -/
def crowd (t : DWord) : State :=
  { d0 with clock := t, waves := (List.range 8).map (fun i => (i, { w0 with issues := [BitVec.ofNat 64 i] })) ++ [(8, { w0 with active := false })] }

theorem witness_ageing : ((crowd 257).oldestPending 0 0).map (·.1) = some 8 ∧ (crowd 257).activeCount 0 0 = 8 ∧
    ((crowd 257).busiest (((crowd 257).pipeWaves 0 0).filter (fun x => x.2.active && !x.2.displaced))).map (·.1) = some 7 ∧
    ((after (.ageingDisplacement 0 0) (crowd 257)).wave 8).active = true ∧ ((after (.ageingDisplacement 0 0) (crowd 257)).wave 7).active = false ∧
    goes (.ageingDisplacement 0 0) (crowd 256) = false := by decide +kernel

def task1 : Task := { lid := 0, entry := 0x40, number := 5, args := [1, 2], since := 0 }
def tasked (t : Task) (n : DWord) : State :=
  { dl (fun l => { l with prog := .resident, x0 := 0, y0 := 0, hdr := { l.hdr with tags := 1 } }) with clock := n, cores := [(0, { tasks := [t] })] }

theorem witness_task_wait : (tasked task1 2048).core 0 = { tasks := [task1] } ∧ ((after (.taskWaitTimeout 0) (tasked task1 2048)).core 0).tasks.map (·.due) = [true] ∧
    goes (.taskWaitTimeout 0) (tasked task1 2047) = false := by decide +kernel

/-- An ended wave beside a live one; an ended wave that is the last of its block. -/
def endedWave (last : Bool) : State :=
  (dw (fun w => { w with status := .ended })).modBlock 0 (fun b => { b with ended := last, parties := if last then [(0, 0)] else [(0, 0), (1, 1)] })

theorem witness_release : (endedWave true).me.status = .ended ∧ (endedWave true).waveQuiet 0 = true ∧ (endedWave true).lastSlot ((endedWave true).block 0) 0 = true ∧
    (endedWave true).blockQuiet ((endedWave true).block 0) = true ∧ (after (.slotRelease 0) (endedWave true)).blocks = [] ∧
    (after (.slotRelease 0) (endedWave false)).waves = [] ∧ (after (.slotRelease 0) (endedWave false)).blocks.length = 1 := by decide +kernel

/-! ### Barriers and adits -/

/-- The block's one wave waits at a barrier and names entry 15 where `m` says so. -/
def arrived (m : BitVec 16) : State :=
  { (dw (fun w => { w with wait := .barrier 8, adits := [(15, { state := .live, first := 5, rows := 1, phase := 3 })] })).modBlock 0
      (fun b => { b with arrivals := [(0, some { mask := m, ids := [] })], landed := some 5 }) with rows := [(5, { stp := 3, pw := true })] }

theorem witness_barrier : ((arrived 0).block? 0).isSome = true ∧ ((arrived 0).block 0).ended = false ∧ ((arrived 0).block 0).closing = false ∧
    ((arrived 0).block 0).outcomeFixed (arrived 0).clock = true ∧ (arrived 0).namedEntries ((arrived 0).block 0) = [] ∧
    (wave (.barrierGenerationComplete 0) (arrived 0)).sget 8 = 0 ∧ (wave (.barrierGenerationComplete 0) (arrived 0)).wait = .none ∧ (arrived 0x8000).namedEntries ((arrived 0x8000).block 0) = [(0, 15)] ∧
    ((after (.barrierGenerationComplete 0) (arrived 0x8000)).block 0).closing = true ∧
    (after (.barrierGenerationComplete 0) (arrived 0x8000)).info 5 = { stp := 3, pw := true } ∧
    ((wave (.barrierGenerationComplete 0) (arrived 0x8000)).adits.get {} 15).phase = 4 := by decide +kernel

/-- A generation with two named entries advances both (R275). -/
theorem witness_barrier_entries : let s := (arrived 0xC000).modWave 0 (fun w => { w with adits := (w.adits.set {} 14 { state := .live, first := 9, rows := 1, phase := 6 }) })
    s.namedEntries (s.block 0) = [(0, 14), (0, 15)] ∧ ((wave (.barrierGenerationComplete 0) s).adits.get {} 14).phase = 7 ∧
    ((wave (.barrierGenerationComplete 0) s).adits.get {} 15).phase = 4 ∧ (after (.barrierGenerationComplete 0) s).info 9 = {} ∧
    (let t := after (.aditScrubEnd 0 14) (after (.barrierGenerationComplete 0) s)
     t.info 9 = { stp := 6 } ∧ t.info 5 = { stp := 3, pw := true } ∧ (after (.aditScrubEnd 0 15) t).info 5 = { stp := 3 }) := by decide +kernel

/-- A row that an access of the new phase has reached before the scrub keeps its marks; a drain scrubs what is left (R57, R275). -/
theorem witness_scrub_rows : let t := after (.barrierGenerationComplete 0) (arrived 0x8000)
    (after (.aditScrubEnd 0 15) { t with rows := [(5, { stp := 4, pw := true })] }).info 5 = { stp := 4, pw := true } ∧
    (after (.aditDrainComplete 0 15) (t.modWave 0 (fun w => { w with adits := w.adits.mapVal {} (fun _ e => { e with state := .draining }) }))).info 5 =
      { stp := 3 } := by decide +kernel

/-- The last arrival lands: the wave has arrived and what it had issued is performed; it stands from the next cycle on. -/
theorem witness_landing : let b : Block := (d0.block 0); let s := db (fun b => { b with arrivals := [(0, some { mask := 0, ids := [] })] })
    b.landed = none ∧ ((s.land 4).block 0).landed = some 4 ∧ ((d0.land 4).block 0).landed = none ∧ ((s.land 4).block 0).outcomeFixed 4 = false ∧
    ((s.land 4).block 0).outcomeFixed 5 = true := by decide +kernel

theorem witness_scrub : let t := after (.barrierGenerationComplete 0) (arrived 0x8000)
    ((t.wave 0).adits.get {} 15).scrub = true ∧ (t.block 0).closing = true ∧ ((t.wave 0).adits.all (fun x => !x.2.scrub || x.1 == 15)) = true ∧
    ((after (.aditScrubEnd 0 15) t).block 0).gen = 1 ∧ ((after (.aditScrubEnd 0 15) t).wave 0).wait = .none := by decide +kernel

def drains : State := { (exporting .draining).modWave 0 (fun w => { w with wait := .xrev 15 8 }) with rows := [(1, { exp := true })] }

theorem witness_drain_end : (drains.me.adits.get {} 15).state = .draining ∧ drains.aditBusy 0 15 = false ∧ (wave (.aditDrainComplete 0 15) drains).sget 8 = 0 ∧
    (wave (.aditDrainComplete 0 15) drains).adits.get {} 15 = { phase := 3 } ∧ (after (.aditDrainComplete 0 15) drains).rows = [] := by decide +kernel

/-- XATT names wave 0, entry 15. -/
def attaching : State := (exporting .live).modWave 0 (fun w => { w with wait := .xatt 4 3 false, sregs := [(5, 15)] })

theorem witness_attach : attaching.me.wait = .xatt 4 3 false ∧ attaching.runOf 0 = .original ∧ (attaching.block 0).logging = false ∧
    (attaching.me.handles.get {} 3).state = .detached ∧ (attaching.me.sget 4).toNat < (attaching.block 0).n ∧
    ((attaching.wave ((attaching.block 0).parties.get 0 0)).adits.get {} 15).aud = .block ∧ (wave (.xattAnswer 0) attaching).sget 6 = 0 ∧
    (wave (.xattAnswer 0) attaching).handles.get {} 3 = { state := .attached, exporter := 0, entry := 15, rows := 2 } := by decide +kernel

def request : RemoteReq :=
  { id := 4, op := { id := 4, kind := .xput, party := 0, lid := 0, flag := 1, lanes := [{ lane := 2, loc := 64, data := 7 }] }, rows := [(2, 4)], own := [],
    write := true, logs := false, pc := 0x104, k := 1 }
def remote : State := { dw (fun w => { w with wait := .remote 4 }) with remotes := [request] }

theorem witness_remote : remote.remotes.map (·.id) = [4] ∧ remote.rowHeld 2 = false ∧ remote.racing 0 [(2, true)] = [] ∧ remote.ops = [] ∧
    (wave (.remoteAccessAccept 4) remote).pc = 0x108 ∧ ((after (.remoteAccessAccept 4) remote).info 2).pnd = true ∧
    (after (.remoteAccessAccept 4) remote).ops.length = 1 := by decide +kernel

def forcing : State := { d0 with cores := [(0, { forced := [{ row := 3, mask := 5, words := [7, 8, 9] }] })] }

theorem witness_forced : (forcing.core 0).forced.findIdx? (fun f => !(forcing.info (rowKey 0 f.row)).pnd) = some 0 ∧
    (after (.forcedWriteApply 0) forcing).elem 96 = 7 ∧ (after (.forcedWriteApply 0) forcing).elem 97 = 0 ∧
    (after (.forcedWriteApply 0) forcing).elem 98 = 9 ∧ ((after (.forcedWriteApply 0) forcing).core 0).forced = [] := by decide +kernel

/-! ### Stalls and halts -/

def miss1 : Miss := { va := 0x40000, kind := .write, party := 0, lid := 0, lanes := 4 }
def missing : State := { d0 with cores := [(0, { misses := [miss1] })], nextTag := 6 }
def stallOn (t : DWord) : State := { d0 with cores := [(0, { stall := some { miss := miss1, tag := 6, since := 0 } })], clock := t }
def faultReply1 (st : BitVec 16) : HostMsg := { typ := 3, sub := 0, tag := 6, stat := st }

theorem witness_stall : (missing.core 0).stall = none ∧ (missing.core 0).misses = [miss1] ∧ (missing.modules.get {} 0).up = true ∧
    (after (.translationMiss 0) missing).sent.map (fun m => (m.typ.toNat, m.tag, m.addr, m.arg)) = [(2, 6, 0x40000, 0x10000000000)] ∧
    (stallOn 0).hears (faultReply1 0) 3 0 0 0 ∧ (stallOn 0).hears (faultReply1 1) 3 0 0 0 ∧ ((stallOn 0).stalledWith 6).map (·.1) = some 0 ∧
    ((after (.faultReply (faultReply1 0)) (stallOn 0)).core 0).stall.isNone = true ∧
    (wave (.faultReply (faultReply1 1)) (stallOn 0)).stop = some (0x18, 0, 0x40000, 4) ∧
    (wave (.stallEscalation 0) (stallOn 3500000)).stop = some (0x19, 0, 0x40000, 4) ∧ goes (.stallEscalation 0) (stallOn 3499999) = false := by decide +kernel

def haltOf (reached : List Nat) : Halt := { cause := 1, detail := 0, pc := 0x104, addr := 0, lanes := 1, party := 0, core := 0, clk := 0, since := 0, reached := reached }
def haltingState (reached : List Nat) : State := dl (fun l => { l with prog := .halting, halt := some (haltOf reached) })

theorem witness_halt_line : ((haltingState []).launch 0).prog = .halting ∧ (State.coresOf ((haltingState []).launch 0)).contains 0 = true ∧
    ((haltingState []).core 0).stall = none ∧ (wave (.haltLineArrival 0 0) (haltingState [])).status = .halted ∧
    (wave (.haltLineArrival 0 0) (haltingState [])).pc = 0x104 ∧ (State.coresOf ((haltingState []).launch 0)) = [0] ∧
    ((after (.haltEnginesStopped 0 0) (haltingState [0])).launch 0).prog = .halted ∧
    (after (.haltEnginesStopped 0 0) (haltingState [0])).waves = [] := by decide +kernel

/-! ### Pre-emption -/

/-- The launch is resident in class 2 (queue 8), and core 0 is quarantined. -/
def quarantined (f : Launch → Launch) : State := { dl (fun l => f { l with prog := .resident, queue := 8 }) with cores := [(0, { quar := true })] }
def asking0 (t : DWord) : State := { quarantined (fun l => { l with preempt := some 0 }) with clock := t }

theorem witness_preempt : ((quarantined id).launch 0).preempt = none ∧ (quarantined id).withdrawable ((quarantined id).launch 0) = [] ∧
    (quarantined id).onQuarantined ((quarantined id).launch 0) = true ∧ ((quarantined id).core 0).stall = none ∧
    ((after (.preemptionRequest 0) (quarantined id)).launch 0).preempt = some 0 ∧ ((asking0 1750).launch 0).bound = false ∧
    ((after (.preemptionBoundExpiry 0) (asking0 1750)).launch 0).bound = true ∧ goes (.preemptionBoundExpiry 0) (asking0 1749) = false := by decide +kernel

/-- Class 2 has slices of 1 µs, and a saved launch of it waits. -/
def sliced : State :=
  { dl (fun l => { l with prog := .resident, queue := 8 }) with clock := 1750, window := [(0x20018, 1)] }

theorem witness_slice : let s := { sliced with launches := sliced.launches ++ [{ lid := 1, prog := .saved, queue := 8 }] }
    (s.sliceOver 2).map (·.lid) = some 0 ∧ s.sliceOf 2 = 1750 ∧ s.classWaits 2 = true ∧
    ((after (.timeSliceExpiry 2) s).launch 0).preempt = some 1750 := by decide +kernel

def atPpt : State := (asking0 0).modWave 0 (fun w => { w with ppt := some 0 })

theorem witness_save : atPpt.coreStalled 0 = false ∧ atSavePoint (atPpt.launch 0) atPpt.me = true ∧ atPpt.me.parked = false ∧
    ((after (.waveSave 0) atPpt).launch 0).prog = .saved ∧ (after (.waveSave 0) atPpt).saved.map (fun x => x.waves.map (·.1)) = [[0]] ∧
    (after (.waveSave 0) atPpt).waves = [] := by decide +kernel

def savingFor (t : DWord) : State :=
  { quarantined (fun l => { l with preempt := some 0, saveSince := some 0 }) with clock := t, rows := [(3, { pnd := true, owner := 5 })] }

theorem witness_save_timeout : (savingFor 3500000).rowsPending 0 = true ∧ ((savingFor 3500000).launch 0).halt = none ∧
    (((after (.saveTimeout 0) (savingFor 3500000)).launch 0).halt.map (·.cause)) = some 0x26 ∧ goes (.saveTimeout 0) (savingFor 3499999) = false := by decide +kernel

/-- The saved context of witness_save, with its core free again. -/
def savedState : State := { after (.waveSave 0) atPpt with cores := [] }

theorem witness_restore : (savedState.saved.find? (fun x => x.lid == 0)).isSome = true ∧ (savedState.launch 0).prog = .saved ∧
    savedState.outranked (savedState.launch 0) = false ∧ ((after (.contextRestore 0) savedState).launch 0).prog = .resident ∧
    (wave (.contextRestore 0) savedState).pc = 0x104 ∧ (after (.contextRestore 0) savedState).vget 0 1 0 = 3 ∧
    (after (.contextRestore 0) savedState).saved = [] := by decide +kernel

/-- What is stored: a whole save keeps row 3, where v1 lies, and a row that nothing keeps is left out (R287, R288). -/
theorem witness_saved_rows : (savedState.saved.map (fun x => x.rows.map (fun g => (g.pos, g.row, g.elems.get 0 96)))) = [[(0, 0, 3)]] ∧
    ((after (.waveSave 0) (atPpt.modWave 0 (fun w => { w with budget := 1 }))).saved.map (fun x => x.rows.map (fun g => g.elems.get 0 96))) = [[0]] ∧
    ((after (.waveSave 0) ({ atPpt with rows := [(3, { exp := true })] }.modWave 0 (fun w => { w with budget := 1 }))).saved.map
      (fun x => x.rows.map (fun g => (g.elems.get 0 96, (g.info.get {} 3).exp)))) = [[(3, true)]] := by decide +kernel

/-- The saved context on core 1, its metadata naming wave 0's party: the wave, its row and the party are those of core 1 (R59, R289). -/
def onCore1 : Option State := do
  let x ← savedState.saved.head?
  let x := { x with rows := x.rows.map (fun g => { g with info := [(3, { exp := true, pty := 0 })] }) }
  savedState.restoreAt (savedState.launch 0) x 1 0

theorem witness_restore_content : onCore1.map (fun r => ((r.wave 128).pc, (r.wave 128).md, r.vget 128 1 0, (r.info (rowKey 1 3)).pty, (r.wave 0).status)) =
      some (0x104, 0, 3, 128, .absent) ∧
    (do
      let x ← savedState.saved.head?
      let l := savedState.launch 0
      let y ← State.placeAll l x 1 0 x.blocks {} ((State.rectCores 1 0 l.hdr.rw l.hdr.rh).foldl (fun s c => s.takeGrants 0 c l.hdr.ceil) savedState)
      some (x.waves.map (fun w => State.moveParty l x 1 0 y.1 w.1), y.1.slots)) = some ([128], [((0, 0), 0)]) := by decide +kernel

/-- A bay with a Ready latch on core 1: cold, its counter kept, the latch read again (R207). -/
def bayOnCore1 : Option Bay := do
  let x ← savedState.saved.head?
  let x := { x with bays := [(0, 0, { ramp := .warm, bsat := 7, latches := [(1, { state := .ready, fmt := .i8, tile := 2 })] })] }
  let r ← savedState.restoreAt (savedState.launch 0) x 1 0
  some (r.bay 1 0)

theorem witness_restore_bay : bayOnCore1.map (fun y => (y.ramp, y.bsat, (y.latches.get {} 1).state, ((y.latches.get {} 1).cols.get [] 127).length)) =
    some (.cold, 7, .ready, 32) := by decide +kernel

/-- The same image with a reserved md halts its context when it is restored (R87). -/
def badMode : State := { savedState with saved := savedState.saved.map (fun x => { x with waves := x.waves.map (fun w => (w.1, { w.2 with md := 15 })) }) }

theorem witness_restore_mode : ((badMode.launch 0).halt) = none ∧ (badMode.launch 0).lid = 0 ∧
    (wave (.contextRestore 0) badMode).stop = some (0x12, 0, 0, 0) ∧ (wave (.contextRestore 0) badMode).status = .halted ∧
    (((after (.contextRestore 0) badMode).launch 0).halt.map (·.cause)) = some 0x12 := by decide +kernel

/-- The same image in another package: it brings its launch, under its number where that is free, and is restored there (R2). -/
def foreign (ls : List Launch) : State := { savedState with launches := ls, saved := [], arriving := savedState.saved }

theorem witness_image : (foreign []).arriving.length = 1 ∧ (foreign []).launch? 0 = none ∧
    (moved (.image 0) (foreign [])).saved.map (fun x => (x.lid, x.launch.prog, x.blocks.map (·.id))) = [(0, .saved, [9])] ∧
    (moved (.image 0) (foreign savedState.launches)).saved.map (·.lid) = [1] ∧ (moved (.image 0) (foreign savedState.launches)).nextLid = 2 ∧
    (let t := moved (.image 0) (foreign savedState.launches)
     ((after (.contextRestore 1) t).launch 1).prog = .resident ∧ (wave (.contextRestore 1) t).pc = 0x104 ∧ (wave (.contextRestore 1) t).lid = 1) := by
  decide +kernel

/-! ### Launches and audits -/

def hostMsg (typ sub : BitVec 8) : HostMsg := { typ := typ, sub := sub }
def live : State := { d0 with boot := .answering }
def launchReq (src : USource) : LaunchReq := { id := 3, addr := some 0, queue := 4, ctx := 0, source := src, ids := [] }
def requesting (src : USource) : State := { live.modWave 0 (fun w => { w with wait := .launch 3 7 }) with launchReqs := [launchReq src] }

/-- A header of zeros is refused (its ranges). -/
theorem witness_acceptance : live.hears (hostMsg 1 0) 1 0 0 0x7F0F ∧ (after (.launchMessage (hostMsg 1 0)) live).launchReqs.length = 1 ∧
    (requesting (.host (hostMsg 1 0))).launchReqs.map (·.id) = [3] ∧ ((requesting (.wave 0)).wave 0).wait = .launch 3 7 ∧
    ((requesting (.wave 0)).block 0).logging = false ∧ (requesting (.wave 0)).runOf 0 = .original ∧
    (requesting (.wave 0)).requestStatus (launchReq (.wave 0)) = 5 ∧ (wave (.launchAcceptance 3) (requesting (.wave 0))).sget 7 = 5 ∧
    (after (.launchAcceptance 3) (requesting (.host (hostMsg 1 0)))).sent.map (·.stat) = [5] := by decide +kernel

def queuedLaunch : Launch := { lid := 0, queue := 4, hdr := { roles := [{ budget := 16, waves := 1 }], arate := 0, args := [9], ext := [2, 1, 1, 1, 1, 1], b := 1 }, total := 1 }
def fresh0 (p : Progress) : State := { live with launches := [{ queuedLaunch with prog := p }], blocks := [], waves := [] }

theorem witness_claim : ((fresh0 .queued).queueOf 4).map (·.lid) = [0] ∧ (fresh0 .queued).rectFor queuedLaunch = some (0, 0) ∧
    (fresh0 .queued).nextQueue = some 4 ∧ ((fresh0 .queued).launch 0).halt = none ∧
    ((after (.rectangleClaim 4 none) (fresh0 .queued)).launch 0).prog = .resident ∧
    (((after (.rectangleClaim 4 (some 0)) (fresh0 .queued)).launch 0).halt.map (·.cause)) = some 0x22 := by decide +kernel

theorem witness_placement : ((fresh0 .resident).launch 0).preempt = none ∧ ((fresh0 .resident).launch 0).replay = none ∧
    (fresh0 .resident).readyFrom ((fresh0 .resident).launch 0) 1 0 = some 0 ∧ (fresh0 .resident).stopped ((fresh0 .resident).launch 0) 0 = false ∧
    ((fresh0 .resident).firstRoom ((fresh0 .resident).launch 0)).map (fun x => (x.1, x.2.slots)) = some (0, [(0, 0)]) ∧
    (wave (.blockPlacement 0) (fresh0 .resident)).present = 3 ∧ (wave (.blockPlacement 0) (fresh0 .resident)).sget 0 = 9 ∧
    (wave (.blockPlacement 0) (fresh0 .resident)).wf.get 0 1 = 1 := by decide +kernel

/-- A block that depends on an event in error, under ERRSTOP. -/
def barred : State :=
  { live with launches := [{ queuedLaunch with prog := .resident, hdr := { queuedLaunch.hdr with errstop := true, evb := 2, deps := [{ base := 7, count := 1, map := 1 }] } }],
              events := [(7, .error)], blocks := [], waves := [] }

theorem witness_passed_over : barred.readyFrom (barred.launch 0) 1 0 = some 0 ∧ barred.stopped (barred.launch 0) 0 = true ∧
    (after (.blockPlacement 0) barred).events.get .clear 2 = .error ∧ ((after (.blockPlacement 0) barred).launch 0).started.get false 0 = true := by decide +kernel

theorem witness_sample : let s := { d0 with waves := [], window := [(0x12000, 100)], clock := 50 }
    s.samplePeriod = 100 ∧ s.sampleDue.toNat ≤ s.clock.toNat ∧ (after .samplePeriodExpiry s).sampleDue = 150 := by decide +kernel

def formable : State := tasked { task1 with due := true } 0

theorem witness_formation : (formable.taskGroup 0).map (·.number) = [5] ∧ ((formable.taskRoom 0 0).map (·.slots)) = some [(1, 1)] ∧
    ((after (.taskWaveFormation 0) formable).wave 1).pc = 0x40 ∧ ((after (.taskWaveFormation 0) formable).wave 1).present = 1 ∧
    (after (.taskWaveFormation 0) formable).vget 1 1 0 = 2 := by decide +kernel

def job1 : Job :=
  { id := 6, lid := 0, index := 0, hdr := { roles := [{ budget := 16, waves := 1 }], ext := [2, 1, 1, 1, 1, 1], b := 1 }, ctx := 0, native := !false, opened := false,
    corg := 0, dorig := 5 }
def auditing (j : Job) (t : DWord) : State := { live with jobs := [j], clock := t }

theorem witness_replays : (auditing job1 0).waitsForCore job1 = true ∧ (auditing job1 0).runCore job1 [0] = some 4 ∧
    ((after (.auditReplayStart 6) (auditing job1 0)).block 9).run = .replay 6 ∧
    (auditing { job1 with repStarted := true, repDone := true, crep := 4, drep := 6 } 0).runCore job1 [0, 4] = some 5 ∧
    (auditing { job1 with repStarted := true, repDone := true, crep := 4, drep := 6 } 0).waitsForCore
      { job1 with repStarted := true, repDone := true, crep := 4, drep := 6 } = true ∧
    ((after (.auditThirdRunStart 6) (auditing { job1 with repStarted := true, repDone := true, crep := 4, drep := 6 } 0)).block 9).core = 5 ∧
    (after (.auditPlacementTimeout 6) (auditing job1 1750000000)).abr.get 0 7 = 1 ∧ goes (.auditPlacementTimeout 6) (auditing job1 1749999999) = false := by decide +kernel

def judgedJob (rep thr : DWord) : Job := { job1 with repStarted := true, thrStarted := true, repDone := true, thrDone := true, crep := 4, cthr := 5, drep := rep, dthr := thr }

theorem witness_verdicts : (auditing (judgedJob 5 5) 0).runsOver 6 true = true ∧ (after (.auditVerdict 6) (auditing (judgedJob 5 5) 0)).matched = 1 ∧
    ((after (.auditVerdict 6) (auditing (judgedJob 6 5) 0)).core 4).score = 8 ∧ (after (.auditVerdict 6) (auditing (judgedJob 6 6) 0)).outvoted = 1 ∧
    ((after (.auditVerdict 6) (auditing (judgedJob 6 6) 0)).core 0).score = 8 ∧
    ((after (.auditVerdict 6) { auditing (judgedJob 6 5) 0 with cores := [(4, { score := 40 })] }).core 4).quar = true ∧
    (let t := after (.auditVerdict 6) (auditing (judgedJob 6 7) 0)
     [0, 4, 5].map (fun c => (t.core c).score) = [2, 2, 2] ∧ t.outvoted = 0) ∧
    (let t := after (.auditVerdict 6) (auditing { judgedJob 6 0 with capture := true, thrDone := false } 0)
     t.cores = [] ∧ t.matched = 0 ∧ t.outvoted = 0 ∧ t.jobs.map (·.resolved) = [true]) := by decide +kernel

/-- A ring at 0x10000 of one record takes the verdict's (R300). -/
def ringed : State := { auditing (judgedJob 6 7) 77 with window := [(0x21012, 1), (0x21018, 64)] }

theorem witness_audit_record : ringed.ringBase = 0x10000 ∧ ringed.ringSize / 64 = 1 ∧
    (let v := leNat ((after (.auditVerdict 6) ringed).bytes 0x10000 64)
     bitsOf v 511 448 = 5 ∧ bitsOf v 447 384 = 6 ∧ bitsOf v 383 320 = 7 ∧ bitsOf v 215 208 = 4 ∧ bitsOf v 207 200 = 5 ∧ bitsOf v 199 192 = 3 ∧
     bitsOf v 95 64 = 0xFFFFFFFF ∧ bitsOf v 63 0 = 77) := by decide +kernel

theorem witness_capture : let j : Job := { job1 with kept := true, resolved := true }
    ((auditing j 0).core 4).enabled = true ∧ (auditing j 0).islands.get .run 4 = .run ∧ ((auditing j 0).imageAt? 0).isSome = true ∧
    ((auditing j 0).runRoom j 4).isSome = true ∧ ((after (.captureReplay 6 4) (auditing j 0)).block 10).run = .capture 9 ∧
    (after (.keptLogFree 0) (auditing j 0)).jobs.map (·.kept) = [false] := by decide +kernel

/-! ### Host messages -/

def hosted (k : SourceKind) : State := { streamsOn k {} with boot := .answering }
def streamMsg (sub : BitVec 8) (n : Nat) : HostMsg := { typ := 4, sub := sub, arg := 5, addr := 60, len := n, payload := (List.range n).map (BitVec.ofNat 8) }

theorem witness_stream_messages : (hosted (.host 0)).hears (streamMsg 8 64) 4 8 4096 0x3F3F ∧ (streamMsg 8 64).payload.length = 64 ∧ (streamMsg 8 64).len = 64 ∧
    (hosted (.host 0)).hears (streamMsg 9 0) 4 9 0 0x3F3F ∧ (hosted (.host 0)).hears (streamMsg 10 0) 4 10 0 0x3F3F ∧
    (((hosted (.host 0)).stream 5).srcs.get {} 0).kind = .host (streamMsg 8 64).module ∧ (((hosted (.host 1)).stream 5).srcs.get {} 0).kind ≠ .host 0 ∧
    (after (.streamRecordsMessage (streamMsg 8 64)) (hosted (.host 0))).unitQ.map (fun u => match u.work with | .records st c r _ => (st, c, r.map (·.take 2)) | _ => (0, 0, [])) =
      [(5, 0, [[0x03020100, 0x07060504]])] ∧ (after (.streamAdvanceMessage (streamMsg 9 0)) (hosted (.host 0))).unitQ.map (·.work) = [.advance 5 0 60] ∧
    (after (.streamIdleMessage (streamMsg 10 0)) (hosted (.host 1))).sent.map (·.stat) = [0xFFFD] := by decide +kernel

def stopMsg (lid : DWord) : HostMsg := { typ := 5, sub := 5, arg := lid }
def launchIs (p : Progress) : State := { dl (fun l => { l with prog := p }) with boot := .answering }

theorem witness_host_stop : (launchIs .resident).hears (stopMsg 0) 5 5 0 0xFFFFFFFF ∧ (launchIs .resident).launch? 9 = none ∧
    (after (.hostStop (stopMsg 9)) (launchIs .resident)).sent.map (·.stat) = [2] ∧ ((launchIs .resident).launch 0).halt = none ∧
    ((after (.hostStop (stopMsg 0)) (launchIs .resident)).launch 0).prog = .halting ∧
    ((after (.hostStop (stopMsg 0)) (launchIs .queued)).launch 0).prog = .halted ∧
    (after (.hostStop (stopMsg 0)) (launchIs .halted)).sent.map (·.stat) = [2] := by decide +kernel

/-- A resident launch with debug, its wave stopped or not; row 3 pending where `b` says so. -/
def debugged (dbg stopped b : Bool) : State :=
  { (dl (fun l => { l with prog := .resident, hdr := { l.hdr with dbg := dbg } })).modWave 0 (fun w => { w with debug := stopped }) with
    boot := .answering, rows := if b then [(3, { pnd := true, owner := 2 })] else [] }

def debugMsg1 (sub : BitVec 8) (addr arg : DWord) (bs : List Byte) : HostMsg := { typ := 5, sub := sub, addr := addr, arg := arg, len := bs.length, payload := bs }

theorem witness_debug_off : (debugged false false false).launch? 0 ≠ none ∧ ((debugged false false false).launch 0).prog ≠ .ended ∧
    (debugged false false false).hears (debugMsg1 0 0 0 []) 5 0 0 0x1FFFFFFFFFFFF ∧ (debugged false false false).hears (debugMsg1 4 0 0 []) 5 4 4096 0x1FFFFFFFFFFFF ∧
    (after (.debugStop (debugMsg1 0 0 0 [])) (debugged false false false)).sent.map (·.stat) = [1] := by decide +kernel

theorem witness_debug_waves : (debugArg (debugMsg1 0 0 0 [])).whole = false ∧ (debugArg (debugMsg1 0 0 0 [])).core = 0 ∧ (debugArg (debugMsg1 0 0 0 [])).party = 0 ∧
    (debugArg (debugMsg1 1 0 0x1000000000000 [])).whole = true ∧ ((debugged true false false).wave 0).lid = 0 ∧
    (wave (.debugStop (debugMsg1 0 0 0 [])) (debugged true false false)).stopReq = true ∧
    (wave (.debugRelease (debugMsg1 1 0 0 [])) (debugged true true false)).debug = false ∧
    (wave (.debugStep (debugMsg1 2 0 0 [])) (debugged true true false)).stepReq = true ∧
    (debugged true true false).hears (debugMsg1 2 0 0 []) 5 2 0 0x1FFFFFFFFFFFF ∧ (debugged true true false).hears (debugMsg1 3 0x100000000 0 []) 5 3 0 0x1FFFFFFFFFFFF ∧
    (after (.debugReadState (debugMsg1 3 0x100000000 0 [])) (debugged true true false)).sent.map (fun m => (m.stat, m.len, (m.payload.drop 4).take 4)) =
      [(0, 396, [5, 0, 0, 0])] := by decide +kernel

theorem witness_debug_held_context : let s := { dl (fun l => { l with prog := .halted, hdr := { l.hdr with dbg := true } }) with boot := .answering }
    s.hears (debugMsg1 1 0 0x1000000000000 []) 5 1 0 0x1FFFFFFFFFFFF ∧ (s.launch 0).prog = .halted ∧
    (after (.debugRelease (debugMsg1 1 0 0x1000000000000 [])) s).waves = [] := by decide +kernel

/-- 99 words: s1 = 9, presence of lanes 0 to 3, md; then the same with a reserved md. -/
def waveBytes (md : Byte) : List Byte :=
  (List.range 396).map (fun i => if i = 4 then 9 else if i = 240 then 0xF else if i = 252 then md else if i = 281 then 1 else if i = 280 then 4 else 0)

theorem witness_debug_write_wave : (debugged true true false).hears (debugMsg1 4 0x100000000 0 (waveBytes 2)) 5 4 4096 0x1FFFFFFFFFFFF ∧
    (debugMsg1 4 0x100000000 0 (waveBytes 2)).payload.length = 396 ∧ mdLegal (((wordsOf (waveBytes 2)).getD 63 0).setWidth 16) = true ∧
    mdLegal (((wordsOf (waveBytes 15)).getD 63 0).setWidth 16) = false ∧
    (((debugged true true false).putWaveWords 0 (wordsOf (waveBytes 2))).wave 0).present = 0xF ∧
    (wave (.debugWriteState (debugMsg1 4 0x100000000 0 (waveBytes 2))) (debugged true true false)).sget 1 = 9 ∧
    (wave (.debugWriteState (debugMsg1 4 0x100000000 0 (waveBytes 2))) (debugged true true false)).pc = 0x104 := by decide +kernel

def rowBytes : List Byte := (List.range 132).map (fun i => if i = 0 then 2 else if i = 8 then 0x77 else 0)

theorem witness_debug_rows : debugRow (debugMsg1 4 3 0 rowBytes) (debugArg (debugMsg1 4 3 0 rowBytes)) = some 3 ∧ (debugMsg1 4 3 0 rowBytes).payload.length = 132 ∧
    (debugged true true false).hears (debugMsg1 4 3 0 rowBytes) 5 4 4096 0x1FFFFFFFFFFFF ∧ (debugged true true false).bayHeld 3 = false ∧
    (debugged true true false).rowHeld 3 = false ∧ (debugged true true true).rowHeld 3 = true ∧
    (after (.debugWriteState (debugMsg1 4 3 0 rowBytes)) (debugged true true false)).elem 97 = 0x77 ∧
    (after (.debugWriteState (debugMsg1 4 3 0 rowBytes)) (debugged true true false)).elem 96 = 3 ∧
    ((after (.debugWriteState (debugMsg1 4 0x200000003 0 rowBytes)) (debugged true true true)).core 0).forced.map (fun f => (f.row, f.mask)) = [(3, 2)] ∧
    ((after (.debugWriteState (debugMsg1 4 3 0 rowBytes)) (debugged true true true)).core 0).forced = [] ∧
    (after (.debugReadState (debugMsg1 3 3 0 [])) (debugged true true false)).sent.map (fun m => (m.stat, m.len, m.payload.take 4)) =
      [(0, 132, [3, 0, 0, 0])] := by decide +kernel

/-- A row that a queued MZER names is held. -/
theorem witness_debug_bay : let s := { debugged true true false with cores := [(0, { bays := [(0, { queue := [command (.mzer 5 1)] })] })] }
    debugRow (debugMsg1 4 196628 0 rowBytes) (debugArg (debugMsg1 4 196628 0 rowBytes)) = some 196628 ∧ s.bayHeld 196628 = true ∧ s.bayHeld 196632 = false := by
  decide +kernel

def memMsg (sub : BitVec 8) (addr : DWord) (n : Nat) (bs : List Byte) : HostMsg := { typ := 6, sub := sub, addr := addr, len := n, payload := bs }
def eight : List Byte := [1, 2, 3, 4, 5, 6, 7, 8]

theorem witness_direct : live.hears (memMsg 0 4 8 []) 6 0 4096 0 ∧ (after (.directMemoryRead (memMsg 0 4 8 [])) live).sent.map (·.stat) = [3] ∧
    (after (.directMemoryRead (memMsg 0 0x6000000000 8 [])) live).sent.map (·.stat) = [1] ∧
    (after (.directMemoryRead (memMsg 0 0x2000 8 [])) live).sent.map (fun m => (m.stat, m.payload)) = [(0, [0, 0, 0, 0, 0, 0, 0, 0])] ∧
    live.hears (memMsg 1 0x100 8 eight) 6 1 4096 0 ∧ live.codeLocked 0x100 8 = true ∧
    (after (.directMemoryWrite (memMsg 1 0x100 8 eight)) live).sent.map (·.stat) = [2] ∧ live.codeLocked 0x10000 8 = false ∧
    (after (.directMemoryWrite (memMsg 1 0x10000 8 eight)) live).byte 0x10007 = 8 ∧
    (after (.directMemoryWrite (memMsg 1 0x5FFFFFFFF8 8 eight)) live).byte 0x5FFFFFFFFF = 8 := by decide +kernel

/-- Source 0 of stream 5 is module 2, source 1 a device source. -/
def streamBlock : List Byte := (List.range 256).map (fun i => if i = 0 then 1 else if i = 4 then 2 else if i = 8 then 3 else 0)
def buffered : State := { live with cores := [(0, { tlb := [{ ctx := 0, va := 0, bits := 16, pa := 0, ex := false, wr := false, rd := true }], quar := true, score := 50 })] }
def invalidation : List Byte := [0, 0, 0, 0, 16, 0, 0, 0, 0, 0, 0, 0, 0, 0, 0, 0]

theorem witness_window : live.hears (memMsg 3 0x500 256 streamBlock) 6 3 4096 0 ∧ windowBlock? 0x500 = some (0, 5, 0x500, 256) ∧ windowOk 0 streamBlock = true ∧
    windowOk 0 (streamBlock.set 1 1) = false ∧ (((after (.streamTableWrite (memMsg 3 0x500 256 streamBlock)) live).stream 5).srcs.get {} 0).kind = .host 2 ∧
    (((after (.streamTableWrite (memMsg 3 0x500 256 streamBlock)) live).stream 5).srcs.get {} 1).kind = .device 0 ∧
    (after (.streamTableWrite (memMsg 3 0x500 256 (streamBlock.set 1 1))) live).sent.map (·.stat) = [3] ∧
    windowBlock? 0x11000 = some (0x11000, 0, 0x11000, 16) ∧ windowOk 0x11000 invalidation = true ∧
    ((after (.tlbInvalidation (memMsg 3 0x11000 16 invalidation)) buffered).core 0).tlb = [] ∧
    live.hears (memMsg 2 0x500 8 []) 6 2 4096 0 ∧ (0, 256, 64) ∈ windowBlocks := by decide +kernel

def clearMask : List Byte := (List.range 64).map (fun i => if i = 0 then 1 else 0)

theorem witness_quarantine : windowBlock? 0x22000 = some (0x22000, 0, 0x22000, 64) ∧ windowOk 0x22000 clearMask = true ∧ bitOf (fieldAt clearMask 0 8) 0 = true ∧
    ((after (.quarantineClear (memMsg 3 0x22000 64 clearMask)) buffered).core 0).quar = false ∧
    ((after (.quarantineClear (memMsg 3 0x22000 64 clearMask)) buffered).core 0).score = 0 ∧
    live.hears (memMsg 4 0 32 ((List.range 32).map (BitVec.ofNat 8))) 6 4 32 0 := by decide +kernel

/-! ### Links, power, the loader, errors -/

theorem witness_links : ((after (.ucieModuleDown 1) live).modules.get {} 1).up = false ∧ ((after (.ucieLaneTrainDown 2) live).modules.get {} 2) = { lanes := 32 } ∧
    ((after (.portLinkDown 3) live).ports.get {} 3).up = false ∧
    (after .thermalShutdown live).boot = .removed ∧ (after .thermalShutdown live).waves = [] ∧ live.occupied 5 = false ∧
    (after (.islandStateChange 5 .off) live).islands.get .run 5 = .off ∧ (after (.thermalThrottleStart 1) live).throttled.get false 1 = true ∧
    (after (.thermalThrottleEnd 1) (after (.thermalThrottleStart 1) live)).throttled = [] := by decide +kernel

def waiting : State := { boot := .waiting }

theorem witness_boot_image : waiting.boot = .waiting ∧ (waiting.modules.get {} 0).up = true ∧
    (after (.debugWriteState (debugMsg1 4 0 0 [7, 8])) waiting).staged = [7, 8] ∧ (after (.debugWriteState (debugMsg1 4 0 0 [7, 8])) waiting).sent.map (·.stat) = [0] := by decide +kernel

/-- Which image the boot ROM accepts is the package's own: each case of a boot can be. -/
theorem witness_accepts : State.accepts {} = true ∨ State.accepts {} = false := by
  cases State.accepts {} <;> simp

/-- A fabric island whose die has no core running. -/
theorem witness_fabric : let s : State := { live with islands := (List.range 48).map (fun c => (c, .off)) }
    (∀ c < 48, dieOf c = (48 - 48) % 4 → s.islands.get .run c ≠ .run) ∧ goes (.islandStateChange 48 .off) s = true ∧
    goes (.islandStateChange 48 .off) live = false := by decide +kernel

/-- An image of one clause: 2 words of text at 256, one role of budget 16, no trap vector (R316). -/
def imageBytes (magic budget : Nat) (op : Byte) : List Byte :=
  leBytes 64 (magic + 2 ^ 32 * 0xA1 + 2 ^ 64 * 256 + 2 ^ 96 * 8 + 2 ^ 128 * 256 + 2 ^ 192 * 192 + 2 ^ 224 * 0xFFFFFFFF + 2 ^ 375 * budget) ++ leBytes 192 0 ++
  [0x00, 0xFF, 0x00, 0xF0, 0x02, 0x01, 20, op]

def loadOf (bs : List Byte) : ImageLoad :=
  { image := 5, textVa := 0x30000, textPa := 0x30000, dataVa := 0x50000, dataPa := 0x50000, pageSize := 65536, leaves := [0x70000], bytes := bs }

def goodLoad : ImageLoad := loadOf (imageBytes 0x494B474E 16 0x30)

/-- Text words: a header, then SADD s20, s1, s2; with opcode 0x50 and d = 20, beyond a budget of 16. -/
theorem witness_load_image : loadable live goodLoad = true ∧ ((partsOf goodLoad.bytes).bind (fun p => relocateAll goodLoad p p.relocs)).isSome = true ∧
    (after (.kernelImageLoad goodLoad) live).loadStatus = 0 ∧ (after (.kernelImageLoad goodLoad) live).byte 0x30007 = 0x30 ∧
    (after (.kernelImageLoad goodLoad) live).codeLocked 0x30000 8 = true ∧ (after (.kernelImageLoad goodLoad) live).images.map (·.id) = [1, 5] ∧
    (after (.kernelImageLoad (loadOf (imageBytes 0x494B474F 16 0x30))) live).loadStatus = 0x14 ∧
    (after (.kernelImageLoad (loadOf (imageBytes 0x494B474E 257 0x30))) live).loadStatus = 0x11 ∧
    (after (.kernelImageUnload 1) live).images.map (·.loaded) = [false] := by decide +kernel

theorem witness_errors : (live.ports.get {} 0).up = true ∧ 0x10000 + eight.length ≤ memTop ∧ live.codeLocked 0x10000 8 = false ∧
    (after (.scaleOutCopyTraffic 0 true 0x10000 eight) live).byte 0x10001 = 2 ∧ after (.scaleOutCopyTraffic 0 true 0x100 eight) live = live ∧
    (after (.uncorrectableError (.unit 0x101)) live).loadPoison 0x101 1 = true ∧ (after (.uncorrectableError (.element 0 3 0)) live).poisoned 96 = true ∧
    (after (.uncorrectableError (.element 0 3 0)) live).elem 96 = 3 := by decide +kernel

/-! ### Further forms of the statements' clauses -/

def tagOf5 (i : Instr) (s : State) : TagState := ((after i s).core 0).tags.get .idle 5

/-- The handle of `copying`, attached to another core's adit. -/
def otherCore (s : State) : State := s.modWave 0 (fun w => { w with handles := [(2, { state := .attached, exporter := 128, rows := 4 })] })

/-- The handle of `copying`, attached to another wave of the core (R181: not the own export). -/
def otherWave (s : State) : State := s.modWave 0 (fun w => { w with handles := [(2, { state := .attached, exporter := 1, rows := 4 })] })

theorem witness_copy_codes : tagOf5 (.cpin 8 0 .ceil) (copying [(11, 1)]) = .error 4 ∧
    [tagOf5 (.cpin 8 0 .slot) (copying [(10, 768), (11, 1)]), tagOf5 (.cpout 8 0 .slot) (copying [(9, 2), (11, 1)]),
     tagOf5 (.cpin 8 0 .common) (copying [(11, 1)]), tagOf5 (.cpin 8 0 .slot) (copying []), tagOf5 (.cprr 8 0 false) (copying [(8, 16), (11, 1)]),
     tagOf5 (.cprr 8 0 true) (copying [(8, 2), (11, 1)]), tagOf5 (.cprr 8 0 false) (copying [(8, 2)])] = List.replicate 7 (.error 6) ∧
    tagOf5 (.cpout 8 0 .slot) (racedRow 9 { copying [(10, 9), (11, 1)] with images := [] }) = .error 8 ∧
    tagOf5 (.cprr 8 0 false) (racedRow 9 (copying [(8, 2), (10, 9), (11, 1)])) = .error 8 ∧
    [tagOf5 (.cprr 8 0 false) (copying [(8, 3), (11, 1)]), tagOf5 (.cprr 8 0 false) (copying [(8, 2), (9, 3), (11, 2)]),
     tagOf5 (.cprr 8 0 false) (otherWave (copying [(8, 2), (11, 1)]))] = List.replicate 3 (.error 5) := by decide +kernel

theorem witness_element_codes :
    [tagOf5 (.gath 8 0 false 2 3) (copying [(8, 9)]), tagOf5 (.scat 8 0 false 2 3) (copying [(8, 9)])] = List.replicate 2 (.error 1) ∧
    tagOf5 (.gath 8 0 false 2 3) (copying [(9, 0xF80)]) = .error 2 ∧
    [tagOf5 (.gath 8 0 false 2 3) (copying [(8, 1)]), tagOf5 (.scat 8 0 false 2 3) (copying [(8, 1)])] = List.replicate 2 (.error 3) ∧
    [tagOf5 (.gath 8 0 true 2 3) (copying [(8, 3)]), tagOf5 (.gath 8 0 true 2 3) (copying [(8, 2), (9, 64)]),
     tagOf5 (.scat 8 0 true 2 3) (otherWave (copying [(8, 2)]))] = List.replicate 3 (.error 5) ∧
    [tagOf5 (.gath 8 0 true 2 3) (copying [(8, 16)]), tagOf5 (.gath 8 0 false 2 3) (copying [(9, 2)]),
     tagOf5 (.gath 8 0 false 3 3) (copying [(10, 255)])] = List.replicate 3 (.error 6) ∧
    [tagOf5 (.scat 8 0 false 2 3) (racedRow 6 { copying [(10, 2)] with images := [] }),
     tagOf5 (.scat 8 0 true 2 3) (racedRow 6 (copying [(8, 2), (10, 2)]))] = List.replicate 2 (.error 8) := by decide +kernel

/-- Item 0 of operation 3 after its delivery, from `engined` changed by `f`. -/
def delivered (k : CopyKind) (i : CopyItem) (f : State → State := id) : State := after (.engineRowDelivery 3 0) (f (engined k i))
def row40 (s : State) : State := { s with copies := s.copies.map (fun c => { c with rows := [40] }), rows := [(40, { pnd := true, owner := 3 })] }
def item32 : CopyItem := { dst := .row 40, n := 128, data := (List.range 32).map (BitVec.ofNat 32), poison := (List.range 32).map (· == 1) }
def nine (s : State) : State := { s with mem := (List.range 9).map (fun i => (0x101 + i, BitVec.ofNat 8 (0xF1 + i))) }
def gathered (n : Nat) : State := delivered .gath { src := some (.mem 0x101), dst := .elem 960, n := n } nine

theorem witness_engine_row : (row40 (engined .cprr item32)).copies.map (fun c => (row40 (engined .cprr item32)).itemReady c 0 item32) = [true] ∧
    (delivered .cprr item32 row40).elem (elemKey 40 31) = 31 ∧ (delivered .cprr item32 row40).poisoned (elemKey 40 1) = true ∧
    (delivered .cprr item32 row40).poisoned (elemKey 40 2) = false ∧ ((delivered .cprr item32 row40).core 0).tags = [(5, .error 7)] ∧
    (delivered .cprr item32 row40).info 40 = {} ∧
    ((delivered .cpin { src := some (.mem 0x100), dst := .row 9, n := 128 }
      (fun s => { racedRow 9 s with copies := s.copies.map (fun c => { c with rows := [] }) })).core 0).tags = [(5, .error 8)] := by decide +kernel

theorem witness_engine_element : [1, 2, 4, 8].map (fun n => ((gathered n).elem 960, (gathered n).elem 1056)) =
      [(0xF1, 0), (0xF2F1, 0), (0xF4F3F2F1, 0), (0xF4F3F2F1, 0xF8F7F6F5)] ∧ ((gathered 8).core 0).tags = [(5, .done)] ∧
    (delivered .gath { src := some (.elem 99), dst := .elem 960, n := 4 }).elem 960 = 9 ∧
    (delivered .scat { dst := .elem 960, n := 4, data := [77], poison := [true] }).elem 960 = 77 ∧
    (delivered .scat { dst := .elem 960, n := 4, data := [77], poison := [true] }).poisoned 960 = true ∧
    (List.range 9).map (fun i => (delivered .scat { dst := .mem 0x3000, n := 8, data := [0x01020304, 0x05060708] }).byte (0x3000 + i)) =
      [4, 3, 2, 1, 8, 7, 6, 5, 0] ∧ (delivered .scat { dst := .mem 0x3000, n := 2, data := [0x01020304] }).byte 0x3001 = 3 ∧
    (delivered .scat { dst := .mem 0x3000, n := 2, data := [0x01020304] }).byte 0x3002 = 0 := by decide +kernel

/-- A CPRR into row 40 of another core: its acceptance there marks the row, then the row is delivered (R182). -/
def cprrFar : State := engined .cprr { dst := .row (rowKey 1 40), n := 128, data := (List.range 32).map (BitVec.ofNat 32) }

theorem witness_copy_far : cprrFar.copies.map (·.rows) = [[]] ∧ goes (.engineRowDelivery 3 0) cprrFar = false ∧
    (after (.remoteAccessAccept 3) cprrFar).copies.map (·.rows) = [[rowKey 1 40]] ∧ ((after (.remoteAccessAccept 3) cprrFar).info (rowKey 1 40)).pnd = true ∧
    (after (.engineRowDelivery 3 0) (after (.remoteAccessAccept 3) cprrFar)).elem (elemKey (rowKey 1 40) 31) = 31 := by decide +kernel

/-- A read through the handle of another core, accepted there (R160, R324). -/
def readFar : State :=
  { remote with remotes := [{ request with op := { request.op with kind := .xget, dst := .vec 9 false, lanes := [{ lane := 2, loc := 98 }] },
                                           rows := [(3, 4)], write := false }] }

theorem witness_remote_read : (after (.remoteAccessAccept 4) readFar).ops.map (fun o => o.lanes.map (fun a => (a.lane, a.done, a.value))) =
    [[(2, true, 0x80000000)]] ∧ (wave (.remoteAccessAccept 4) readFar).pc = 0x108 := by decide +kernel

/-- A load or an atomic of `n` bytes at 0x101 in lane 2. -/
def sized (k : OpKind) (n : Nat) (d : Dest) (cmp : DWord) : Op :=
  { loading k with size := n, dst := d, rows := [], lanes := [{ lane := 2, loc := 0x101, data := 0x1122334455667788, cmp := cmp }] }
def fetched (k : OpKind) (n : Nat) (d : Dest) (cmp : DWord := 0x800000FD) : State :=
  after (.returningOperationComplete 3) { flying (sized k n d cmp) with mem := [(0x101, 0xFD), (0x104, 0x80), (0x106, 0x90)] }

theorem witness_load_sizes :
    [1, 2, 4, 8].map (fun n => ((fetched .load n (.vec 9 (n == 8))).vget 0 9 2, (fetched .load n (.vec 9 (n == 8))).vget 0 10 2)) =
      [(0xFD, 0), (0xFD, 0), (0x800000FD, 0), (0x800000FD, 0x9000)] ∧
    ((fetched .load 4 (.scal 8 false)).wave 0).sget 8 = 0x800000FD ∧ ((fetched .load 8 (.scal 8 true)).wave 0).pair 8 = 0x9000800000FD ∧
    (fetched .amoc 4 (.vec 9 false)).mem = [(0x101, 0x88), (0x102, 0x77), (0x103, 0x66), (0x104, 0x55), (0x106, 0x90)] ∧
    (fetched .amoc 4 (.vec 9 false)).vget 0 9 2 = 0x800000FD ∧
    (fetched .amoc 4 (.vec 9 false) 3).mem = [(0x101, 0xFD), (0x104, 0x80), (0x106, 0x90)] ∧
    (fetched .amoc 8 (.vec 9 true) 0x9000800000FD).byte 0x108 = 0x11 ∧ (fetched .amoc 8 (.vec 9 true)).byte 0x108 = 0 := by decide +kernel

/-- Cause and detail of the halt of the current wave. -/
def haltBy (i : Instr) (s : State) : Option (Nat × Nat) := (wave i s).stop.map (fun x => (x.1, x.2.1))

theorem witness_bay_halts :
    [haltBy (.mwl 1 0 20 .i8) gangs, haltBy (.mdrn 20 1 .f32 false false false) gangs, haltBy (.mhint 1 4) gangs,
     haltBy (.mstat 8 1 true false) gangs] = List.replicate 4 (some (0x14, 0)) ∧
    [haltBy (.mwl 0 0 1 .i8) (bayed {} [(1, 256)]), haltBy (.mwl 0 0 1 .b16) (bayed {} [(1, 255)]),
     haltBy (.mdrn 20 0 .f32 false false false) (bayed {} [(20, 64), (21, 1)]), haltBy (.mdrn 20 0 .f32 false false false) (bayed {} []),
     haltBy (.mdrn 20 0 .f32 false false false) (bayed {} [(20, 0), (21, 1), (22, 765)])] = List.replicate 5 (some (0x1E, 0)) ∧
    haltBy (.mma 1 1 0) gangs = some (0x1C, 0) ∧
    ((after (.drainRowWrite 0 0) (racedRow 10 drained)).launch 0).halt.map (fun h => (h.cause, h.detail, h.pc, h.addr)) =
      some (0x27, 1, resumeWord 0x104 1, 10) ∧
    (after (.drainRowWrite 0 0) (racedRow 10 drained)).elem (elemKey 10 31) = 0 ∧
    (let t := after (.drainRowWrite 0 0) (racedRow 10 unread)
     t.elem (elemKey (bayRow 0 0 24) 0) = 8 ∧ t.elem (elemKey 10 0) = 0 ∧ ((t.launch 0).halt.map (·.cause)) = some 0x27) := by decide +kernel

/-- MSTAT waits for the command it named at its first issue, not for a later one (R204). -/
def statting (a : Option (List Nat)) : State := (busy (command (.mzer 5 1)) .cold).modWave 0 (fun w => { w with awaits := a })

theorem witness_mstat : (wave (.mstat 8 0 false false) (statting none)).awaits = some [7] ∧
    (wave (.mstat 8 0 false false) (statting (some [7]))).pc = 0x104 ∧ (wave (.mstat 8 0 false false) (statting (some [5]))).pc = 0x108 := by decide +kernel

theorem witness_unit_halts :
    [Instr.pinit 0, .prsc 0, .punb 0, .pmul 0 1 2, .pdiv 0 1 2, .pout 9 0 1, .pdesc 8 0].map (fun i => haltBy i (geoded {} [])) =
      List.replicate 7 (some (0x20, 0)) ∧
    haltBy (.pbind 0 5 1) geodeIdle = some (0x20, 0) ∧ haltBy (.pbind 1 5 1) geodeIdle = some (0x20, 1) ∧
    haltBy (.pinit 0) (geoded { bound with party := 1 } []) = some (0x20, 0) ∧
    [Instr.wemit 16 4 8, .wmadv 8 4 2, .wmidl 8 4, .wmrd 8 4 0].map (fun i => haltBy i dev) = List.replicate 4 (some (0x21, 0)) ∧
    [Instr.wpub 16 1 8 1, .wamd 16 1 8 1, .wrel 8 1 1, .wrecv 16 32 8 1 true, .wlate 16 32 8 1 true, .wnext 8 1 true].map (fun i => haltBy i dev) =
      List.replicate 6 (some (0x21, 1)) := by decide +kernel

/-- A binding of slide 64 with its windows, and work queued at the watermark unit. -/
def winding (w : SMap Window) (x : UWork) : State :=
  (asking x).modLaunch 0 (fun l => { l with binds := [(0, { desc := { strm := 5, slide := 64 }, windows := w })] })

theorem witness_windows :
    (let t := after (.watermarkUnitEntry 0) (winding [(0, .opened), (1, .opened), (2, .opened)] (.advance 5 0 130))
     ((t.stream 5).w, (t.binding 0 0).notices.map (·.j), (t.binding 0 0).windows) = (130, [0, 1], [(0, .fired), (1, .fired), (2, .opened)])) ∧
    (let t := after (.watermarkUnitEntry 0) (winding [(1, .fired)] (.records 5 0 [rec80] 0))
     ((t.binding 0 0).late.map (fun e => (e.j0, e.mask)), (t.binding 0 0).onTime.length, (t.binding 0 0).disc) = ([(1, 1)], 0, 0)) ∧
    (let t := after (.watermarkUnitEntry 0) (winding [(1, .released)] (.records 5 0 [rec80] 0))
     ((t.binding 0 0).late.length, (t.binding 0 0).onTime.length, (t.binding 0 0).disc, (t.wave 0).sget 8) = (0, 0, 1, 1)) ∧
    ((after (.watermarkUnitEntry 0) (asking (.advance 5 0 0xFFFFFFFFFFFFFFFF))).stream 5).w = 0xFFFFFFFFFFFFFFFF ∧
    ((after (.watermarkUnitEntry 0) (asking (.idle 5 0))).stream 5).w = 0 ∧ after (.scaleOutRecord 2 5 0 rec80) (fedBy 3) = fedBy 3 := by decide +kernel

/-- Two drained-by-the-barrier exports: their scrubs end in ascending order of entries (R275). -/
def twoExports : State :=
  after (.barrierGenerationComplete 0) ((arrived 0xC000).modWave 0 (fun w =>
    { w with adits := [(14, { state := .live, first := 6, rows := 1, phase := 3 }), (15, { state := .live, first := 5, rows := 1, phase := 3 })] }))

theorem witness_scrub_order : (twoExports.wave 0).adits.map (fun a => (a.1, a.2.scrub)) = [(14, true), (15, true)] ∧
    goes (.aditScrubEnd 0 15) twoExports = false ∧ ((after (.aditScrubEnd 0 14) twoExports).block 0).gen = 0 ∧
    ((after (.aditScrubEnd 0 15) (after (.aditScrubEnd 0 14) twoExports)).block 0).gen = 1 := by decide +kernel

/-- A stall whose wave was killed: its escalation halts the context all the same (R277). -/
theorem witness_escalation_killed :
    ((after (.stallEscalation 0) ((stallOn 3500000).modWave 0 (fun w => { w with status := .killed }))).launch 0).halt.map (fun h => (h.cause, h.detail)) =
      some (0x19, 0) := by decide +kernel

/-- A halting launch whose wave is halted with cause 1, detail 2, address 0x55, lanes 4. -/
def halting (f : Launch → Launch) : State :=
  (dl (fun l => f { l with prog := .halting, halt := some (haltOf [0]),
                           hdr := { l.hdr with halt := 0x10000, rw := 1, rh := 1, note := true, evb := 3 } })).modWave 0 (fun w =>
    { w with status := .halted, stop := some (1, 2, 0x55, 4), stopClk := 77, reasons := 0x200, flg := 3 })
/-- Record `n` of the stop record at 0x10000, a number of 64 bytes. -/
def record (t : State) (n : Nat) : Nat := leNat (t.bytes (0x10000 + 64 * n) 64)
def leftOver : CopyCmd := { id := 3, kind := .cpin, engine := .copy1, core := 0, party := 0, lid := 0, tag := 5, btag := 0, items := [] }
def stopped : State := after (.haltEnginesStopped 0 0) (halting id)
def stoppedCopies : State :=
  after (.haltEnginesStopped 0 0) { halting id with copies := [leftOver, { leftOver with id := 4, kind := .intake, engine := .gather, tag := 7 }] }
def stoppedBays : State :=
  after (.haltEnginesStopped 0 0) { (halting id).modBlock 0 (fun b => { b with bays := [1], tags := [5] }) with
    cores := [(0, { tags := [(5, .busy)], grants := [(0, some 0)], bays := [(1, { holder := some 0, queue := [command (.mzer 5 1)] })] })] }

theorem witness_stop_record : record stopped 1 = State.stopRecord 77 (resumeWord 0x104 1) 0x55 0 (waveId 0 ((halting id).wave 0)) 1 2 1 4 0 3 0x200 ∧
    bitsOf (record stopped 0) 255 240 = 1 ∧ stopped.events.get .clear 3 = .error ∧ stopped.sent.map (fun m => (m.typ, m.sub, m.arg)) = [(4, 1, 0)] ∧
    stopped.waves = [] ∧ stopped.blocks = [] ∧ bitsOf (record stoppedCopies 129) 223 208 = 0 ∧ bitsOf (record stoppedCopies 130) 223 208 = 3 ∧ stoppedCopies.copies = [] := by decide +kernel

theorem witness_stop_release : (stoppedBays.core 0).tags = [] ∧ (stoppedBays.core 0).grants = [] ∧ (stoppedBays.bay 0 1).holder = none ∧
    bitsOf (record stoppedBays 133) 223 208 = 6 ∧ bitsOf (record stoppedBays 133) 63 0 = 1 ∧
    (after (.haltEnginesStopped 0 0) (halting (fun l => { l with hdr := { l.hdr with dbg := true } }))).blocks.length = 1 ∧
    (((after (.haltEnginesStopped 0 0) { halting id with streams := [(5, src (.device 0) {})] }).stream 5).srcs.get {} 0).idle = true ∧
    (halting id).completing 0 = false := by decide +kernel

/-- A stalled core, and a queue head of a lower number that no free rectangle takes: the stall's context is preempted whole (R278). -/
def withdrawing : State :=
  { (quarantined (fun l => { l with queue := 8, hdr := { l.hdr with rw := 1, rh := 1, preb := 10 } })).modWave 0 (fun w => { w with missed := [4], reasons := 0x200 }) with
    launches := [{ lid := 0, prog := .resident, queue := 8, hdr := { roles := [{ budget := 256, waves := 1 }], preb := 10 } },
                 { lid := 1, prog := .queued, queue := 0, hdr := { rw := 1, rh := 1, ceil := 1 } }],
    cores := (List.range 48).map (fun c => (c, { quar := c != 0, grants := [(0, some 0)], stall := if c = 0 then some { miss := miss1, tag := 6, since := 0 } else none })) }

/-- A wave parked in its slot while one of the slot's rows stays pending. -/
def stuckSave : State := { (asking0 3500000).modWave 0 (fun w => { w with parked := true, stopClk := 0 }) with rows := [(3, { pnd := true, owner := 5 })] }

theorem witness_withdraw : withdrawing.withdrawable (withdrawing.launch 0) = [0] ∧ withdrawing.waitingHeads = [0] ∧
    (let t := after (.preemptionRequest 0) withdrawing
     t.withdrawn = [6] ∧ (t.core 0).stall = none ∧ (t.launch 0).prog = .saved ∧ t.saved.length = 1) ∧
    (let s := withdrawing.modCore 0 (fun k => { k with misses := [miss1, { miss1 with va := 0x50000, party := 1 }] })
     s.missedOn 0 0 4 0 = true ∧ s.missedOn 0 0 4 1 = false ∧ ((s.withdrawStall 0 0).core 0).misses.map (·.party) = [1] ∧
       ((s.withdrawStall 0 0).wave 0).parked = true) ∧
    stuckSave.slotPending 0 = true ∧ ((after (.saveTimeout 0) stuckSave).launch 0).halt.map (·.cause) = some 0x26 ∧
    (let t := after (.saveTimeout 0) (stuckSave.modLaunch 0 (fun l => { l with replay := some 6 }))
     (t.launch 0).halt = none ∧ (t.block 0).ended = true ∧ t.mem = stuckSave.mem) := by decide +kernel

/-- A header's bytes at 0x4000 from pairs (bit position, value). -/
def headerAt (fs : List (Nat × Nat)) : SMap Byte :=
  ((leBytes 256 ((fs.map (fun f => 2 ^ f.1 * f.2)).sum)).zipIdx.filter (fun x => x.1 != 0)).map (fun x => (0x4000 + x.2, x.1))

/-- One block of one wave of budget 16, on one core. -/
def goodHeader : List (Nat × Nat) := [(776, 1), (780, 1), (832, 10), (960, 1), (996, 1), (1024, 1), (1216, 0), (1248, 16), (1264, 1), (768, 1)]
/-- `goodHeader` with the field at bit `p` set to `v`. -/
def field (p v : Nat) : List (Nat × Nat) := (p, v) :: goodHeader.filter (fun f => f.1 != p)

def submitted (fs : List (Nat × Nat)) (q : Nat := 4) : State :=
  { live with mem := headerAt fs, images := [{ im with roles := [{ entry := 0, budget := 16 }] }],
              launches := [{ lid := 0, prog := .resident, hdr := { roles := [{ budget := 256, waves := 1 }], evb := 700 }, total := 1, started := [(0, true)] }],
              launchReqs := [{ launchReq (.host (hostMsg 1 0)) with addr := some 0x4000, queue := q }] }

def answered (fs : List (Nat × Nat)) (q : Nat := 4) : List (BitVec 16) := (after (.launchAcceptance 3) (submitted fs q)).sent.map (·.stat)

/-- Each status of R266's table. -/
theorem witness_statuses : answered goodHeader = [0] ∧ (after (.launchAcceptance 3) (submitted goodHeader)).launches.map (fun l => (l.lid, l.prog)) =
      [(0, .resident), (1, .queued)] ∧ answered goodHeader 16 = [1] ∧
    (after (.launchAcceptance 3) { submitted goodHeader with launchReqs := [{ launchReq (.host (hostMsg 1 0)) with addr := some 0x4010 }] }).sent.map (·.stat) = [3] ∧
    [answered (field 2047 1), answered (field 512 1), answered (field 776 9)] = List.replicate 3 [5] ∧
    [answered (field 960 33), answered (field 1024 2)] = List.replicate 2 [6] ∧ answered (field 1264 2) = [7] ∧
    [answered (field 1248 17), answered (field 520 1)] = List.replicate 2 [8] ∧ answered (field 784 1) = [9] ∧ answered (field 1408 700) = [10] ∧
    answered (field 792 1) = [11] ∧ answered (field 776 5) 0 = [12] ∧
    (after (.launchAcceptance 3) { submitted goodHeader with cores := (List.range 48).map (fun c => (c, { quar := true })) }).sent.map (·.stat) = [13] ∧
    answered goodHeader 8 = [14] := by decide +kernel

/-- A sampled wave in a trap handler with two stall reasons (R272). -/
def sampling : State :=
  { d0 with window := [(0x12000, 100), (0x1200A, 1), (0x12010, 64)], clock := 50, waves := [(0, { w0 with hnd := true, reasons := 0x18 })] }

theorem witness_sample_bytes : sampling.sampleBase = 0x10000 ∧ sampling.sampleSize = 64 ∧
    (let t := after .samplePeriodExpiry sampling
     let v := leNat (t.bytes 0x10000 32)
     t.samplePos = 1 ∧ bitsOf v 9 0 = 0x18 ∧ bitsOf v 51 48 = 4 ∧ bitOf v 52 = true ∧ bitOf v 53 = false ∧ bitsOf v 191 128 = 0x104 ∧ bitsOf v 255 192 = 50) := by
  decide +kernel

/-- A debug read takes a forced write due on its row first (R60). -/
def readForced : State := after (.debugReadState (debugMsg1 3 3 0 [])) { debugged true true false with cores := [(0, { forced := [{ row := 3, mask := 5, words := [7, 8, 9] }] })] }

theorem witness_debug_due : readForced.elem 96 = 7 ∧ readForced.elem 98 = 9 ∧ (readForced.core 0).forced = [] ∧
    readForced.sent.map (fun m => (m.stat, m.payload.take 12)) = [(0, [7, 0, 0, 0, 0, 0, 0, 0, 9, 0, 0, 0])] := by decide +kernel

theorem witness_counters_tlb2 :
    (after (.controlWindowRead (memMsg 2 0x21040 80 [])) { live with abr := [(7, 3)], selected := 5, outvoted := 6 }).sent.map (fun m => (m.stat, (m.payload.drop 48).take 9)) =
      [(0, [3, 0, 0, 0, 0, 0, 0, 0, 5])] ∧
    (after (.tlbInvalidation (memMsg 3 0x11000 16 invalidation)) { buffered with tlb2 := [(2, [{ ctx := 0, va := 0, bits := 16, pa := 0, ex := false, wr := false, rd := true },
      { ctx := 1, va := 0, bits := 16, pa := 0, ex := false, wr := false, rd := true }])] }).tlb2.map (fun x => x.2.length) = [1] := by decide +kernel

/-- Eight bytes of memory at `a`. -/
def entryAt (a v : Nat) : SMap Byte := ((leBytes 8 v).zipIdx.filter (fun x => x.1 != 0)).map (fun x => (a + x.2, x.1))
/-- The tables of context 0 at 0x4000 up, whose leaf for 0x10000 up is `leaf`. -/
def tables (leaf : Nat) : SMap Byte := entryAt 0x4000 0x5001 ++ entryAt 0x5000 0x6001 ++ entryAt 0x6000 0x7001 ++ entryAt 0x7000 0x8001 ++ entryAt 0x8008 leaf
def walking (m : SMap Byte) : State := { d0 with mem := m, window := [(0x10001, 0x40)] }

/-- R279, R280: a leaf, a miss, each permission, the code lock, the malformed entries, a leaf of level 2, a root of 0. -/
theorem witness_walk : ((walking (tables 0x9001F)).translate 0 0 0x12345 { rd := true, wr := true, ex := true }).1 = .pa 0x92345 ∧
    ((walking (tables 0x9001F)).translate 0 0 0x2345 { rd := true }).1 = .miss ∧
    ((walking (tables 0x9000F)).translate 0 0 0x12345 { ex := true }).1 = .bad 0x17 2 ∧ ((walking (tables 0x9000B)).translate 0 0 0x12345 { rd := true }).1 = .bad 0x17 0 ∧
    ((walking (tables 0x90007)).translate 0 0 0x12345 { wr := true }).1 = .bad 0x17 1 ∧ ((walking (tables 0x0001F)).translate 0 0 0x12345 { wr := true }).1 = .bad 0x17 1 ∧
    [tables 0x9001D, tables 0x9003F, tables 0x9011F, entryAt 0x4000 0x5003, entryAt 0x4000 0x5101].map (fun m => ((walking m).translate 0 0 0x12345 { rd := true }).1) =
      List.replicate 5 (.bad 0x18 1) ∧
    ((walking (entryAt 0x4000 0x5001 ++ entryAt 0x5000 0x6001 ++ entryAt 0x6000 0x4000001F)).translate 0 0 0x12345 { rd := true }).1 = .pa 0x40012345 ∧
    ({ walking (tables 0x9001F) with window := [] }.translate 0 0 0x12345 { rd := true }).1 = .miss := by decide +kernel

theorem witness_islands_parts : goes (.islandStateChange 5 .run) { live with cores := [(5, { enabled := false })] } = false ∧
    goes (.islandStateChange 5 .off) { live with cores := [(5, { enabled := false })] } = true ∧ goes (.islandStateChange 56 .run) live = false ∧
    (after (.debugWriteState (debugMsg1 4 1 0 [9])) { waiting with staged := [7, 8] }).staged = [7, 9] := by decide +kernel

/-- An image whose PPT section holds `records` records (R287). -/
def pptImage (records hi : Nat) : List Byte :=
  leBytes 64 (0x494B474E + 2 ^ 32 * 0xA1 + 2 ^ 64 * 256 + 2 ^ 96 * 8 + 2 ^ 128 * 256 + 2 ^ 192 * 192 + 2 ^ 224 * 0xFFFFFFFF + 2 ^ 375 * 16 + 2 ^ 256 * 64 + 2 ^ 288 * records) ++
  leBytes 64 (2 ^ 384 * hi) ++ leBytes 128 0 ++ [0x00, 0xFF, 0x00, 0xF0, 0, 0, 0, 0x16]

theorem witness_load_refusals : let loadedBy : List Byte → State := fun bs => after (.kernelImageLoad (loadOf bs)) live
    (loadedBy (imageBytes 0x494B474E 16 0x50)).loadStatus = 0x12 ∧ (loadedBy (imageBytes 0x494B474E 21 0x50)).loadStatus = 0 ∧
    (loadedBy (pptImage 0 0)).loadStatus = 0x13 ∧ (loadedBy (pptImage 1 0)).loadStatus = 0 ∧ (loadedBy (pptImage 1 1)).loadStatus = 0x13 ∧
    leNat ((after (.kernelImageLoad goodLoad) live).bytes 0x70000 8) = 0x30017 := by decide +kernel

theorem witness_log_places : (logs 64).logPlace 7 32 = some 0 ∧
    { logs 64 with jobs := [{ id := 7, lid := 0, index := 0, hdr := {}, ctx := 0, native := !false, corg := 0,
                              log := [{ kind := 8, wave := 0, seq := 0, src := 0, data := [1], place := some 0 }] }] }.logPlace 7 32 = some 32 := by decide +kernel

/-! ### The whole machine -/

/-! ### Races, poison, and what the wider statements name -/

def inHandlerOf (lo hi md : Word) : State := dw (fun w => { w with hnd := true, sregs := [(56, lo), (57, hi), (59, md)] })

/-- The checks of RTE come before its read of v255, poisoned or raced (R87, R117). -/
theorem witness_rte_stops : let worn : State → State := fun s => { s with bad := [(velem 0 255 0, true)] }
    let raced : State → State := fun s => racedRow (vrow 0 255 0) s
    [worn, raced].map (fun f => [(wave .rte (f (inHandlerOf 0x1000 0 15))).stop, (wave .rte (f (inHandlerOf 0x1000 0x06000000 9))).stop,
      (wave .rte (f (inHandlerOf 0x1002 0 9))).stop]) = List.replicate 2 [some (0x12, 0, 0, 0), some (0x10, 4, 0, 0), some (0x10, 4, 0, 0)] ∧
    (wave .rte (worn (inHandlerOf 0x1000 0 9))).status = .killed ∧ ((wave .rte (raced (inHandlerOf 0x1000 0 9))).stop.map (·.1)) = some 0x23 ∧
    mdLegal (15 : BitVec 16) = false := by decide +kernel

/-- Row 3 of a live adit in phase 1, with this metadata. -/
def stampedRow (m : RowMeta) : State := { racedRow 3 d0 with rows := [(3, m)] }

/-- The first access of a phase, the owner's, another party's (R55). -/
theorem witness_race_rule :
    let got : RowMeta → Bool → Option (Bool × Bool × BitVec 13) := fun m w => ((stampedRow m).raceRow 0 3 w).map (fun x => (x.pw, x.fr, x.pty))
    let m : RowMeta := { exp := true, stp := 1 }
    got { m with stp := 0, pw := true, fr := true, pty := 5 } false = some (false, false, 0) ∧ got { m with stp := 0, pty := 5 } true = some (true, false, 0) ∧
    got m true = some (true, false, 0) ∧ got { m with fr := true } true = none ∧ got { m with fr := true } false = some (false, true, 0) ∧
    got { m with pty := 5 } false = some (false, true, 5) ∧ got { m with pty := 5 } true = none ∧ got { m with pty := 5, pw := true } false = none ∧
    ((stampedRow m).markRows 0 [(3, true)]).info 3 = { m with pw := true } := by decide +kernel

/-- A direct access that races traps, or halts without a handler; no row is marked (R56, R115). -/
theorem witness_race_direct : let s := racedRow 3 d0
    s.racing 0 (accesses 0 (s.inActive [1]) (s.inActive [9])) ≠ [] ∧ s.rowReasons 0 (s.inActive [1]) (s.inActive [9]) = 0 ∧ s.canEnter ∧
    causeOf (.vnot 9 1) s = 0x000800FF ∧ [0, 2, 3].map (fun l => (after (.vnot 9 1) s).vget 0 254 l) = [1, 1, 1] ∧
    (after (.vnot 9 1) s).info 3 = s.info 3 ∧
    (wave (.vnot 9 1) { s with images := [] }).stop = some (8, 0xFF, 0, 0xD) := by decide +kernel

/-- A kill leaves the wave's registers, conditions and elements. -/
def killsBy (i : Instr) (s : State) : Bool :=
  let t := after i s
  (t.wave 0).status == .killed && (t.wave 0).sregs == s.me.sregs && (t.wave 0).flg == s.me.flg && t.elems == s.elems && t.bad == s.bad
def poisonAt (ks : List Nat) (s : State) : State := { s with bad := ks.map (fun k => (k, true)) }

theorem witness_kills :
    [Instr.ifOpen 1 .nz, .nrst 1, .admix 1 7, .vbal 8 1 .nz, .vany 8 1 .nz, .vall 8 1 .nz, .vffs 8 1 .nz, .vmatch 20 1, .vshf 9 1 0 .down 1,
      .vshop 9 1 0 .add .xor 3, .vsegop 9 1 2 .or false, .xatm 9 3 1 .slot 0, .vmul 9 1 2].map
        (fun i => killsBy i (poisonAt [99] d0)) = List.replicate 13 true ∧
    killsBy (.task 4 16) (poisonAt [velem 0 31 0] tasking) = true ∧ killsBy .rte (poisonAt [velem 0 255 0] (inHandlerOf 0x1000 0 9)) = true ∧
    killsBy (.vsegop 9 1 2 .or false) (poisonAt [192] d0) = true ∧ [Instr.xget 9 3 .slot, .xput 2 3 .slot].map (fun i => killsBy i (poisonAt [291] d0)) = [true, true] ∧
    killsBy (.vshf 9 1 2 .index 0) (poisonAt [195] d0) = true := by decide +kernel

theorem witness_kills_memory :
    killsBy (.vldw 9 3 2 0) (poisonAt [291] memState) = true ∧ killsBy (.vstw 1 3 2 0) (poisonAt [99] memState) = true ∧
    killsBy (.gath 8 0 false 2 3) (poisonAt [288] ga) = true ∧ killsBy (.scat 8 0 false 2 3) (poisonAt [288] sc) = true ∧
    killsBy (.wemit 16 1 8) (poisonAt [velem 0 31 3] dev) = true ∧ killsBy (.wpub 16 1 8 0) (poisonAt [velem 0 16 0] dev) = true ∧
    killsBy (.wamd 16 1 8 0) (poisonAt [velem 0 16 0] dev) = true := by decide +kernel

/-- What does not enter a result does not kill: lane 1 is not active, and no lane takes lane 0 of v1 in this shift. -/
theorem witness_kills_not : (wave (.vshf 9 1 0 .down 1) (poisonAt [97] d0)).status = .running ∧ (consumesOf d0 (.vshf 9 1 0 .down 1)).isSome = true ∧
    (wave (.vshf 9 1 0 .down 2) (poisonAt [98] d0)).status = .killed ∧ (wave (.vany 8 1 .nz) (poisonAt [97] d0)).status = .running := by decide +kernel

/-- XEXP: 1 before 3 before 2; a range in a claimed common slot (R166). -/
theorem witness_export_statuses :
    let s : Word → Word → State := fun a n =>
      ({ exporting .live with rows := [(1, { exp := true })] } : State).modWave 0 (fun w => { w with sregs := [(4, a), (5, n)] })
    let got : Nat → Word → Word → Word := fun e a n => (wave (.xexp 4 e .core true false) (s a n)).sget 6
    (got 15 700 69, got 0 700 69, got 0 0 0, got 0 0 2, got 0 2 2) = (1, 3, 3, 2, 0) ∧
    (let c := slotted.modWave 0 (fun w => { w with sregs := [(4, 766), (5, 2)] })
     let t := after (.xexp 4 3 .core true true) c
     (t.wave 0).sget 6 = 0 ∧ (t.info 8447).exp = true ∧ ((t.wave 0).adits.get {} 3).first = 8446 ∧
       (wave (.xexp 4 3 .core true true) (slotted.modWave 0 (fun w => { w with sregs := [(4, 767), (5, 2)] }))).sget 6 = 3) := by decide +kernel

/-- Two tags, 5 Busy or in Error: TWALL and TWANY wait, or halt with 0x001A and the tag's index and code (R185). -/
theorem witness_tag_waits :
    [Instr.twall 2, .twany 8 2].map (fun i => (wave i (tagged .busy .busy [(2, 3)])).reasons) = [0x20, 0x20] ∧
    (wave (.twall 2) (tagged .busy .idle [(2, 3)])).k = 1 ∧ (wave (.twall 2) (tagged .busy (.error 3) [(2, 3)])).k = 1 ∧
    [Instr.twall 2, .twany 8 2].map (fun i => (wave i (tagged .idle (.error 3) [(2, 2)])).stop) = List.replicate 2 (some (0x1A, 0x103, 0, 0)) ∧
    (wave (.twany 8 2) (tagged .busy (.error 3) [(2, 3)])).stop = some (0x1A, 0x103, 0, 0) := by decide +kernel

/-- Sixteen groups: 256 products of 1 in T4 (R193, R199). -/
theorem witness_chain_t4 : (List.replicate 32 (0x22222222 : Word)).length * (EType.t4x8).count = 16 * 16 ∧
    chainStep .t4x8 .t4x8 (List.replicate 32 0x22222222) (List.replicate 32 0x22222222) 0 = (0x43800000, 0) := by decide +kernel

/-- A binding of slide 64 with window 5 in this state, and a publication of it queued; with an output, on stream 6. -/
def publishing (w : Window) (amend out : Bool) (recs : List (List Word) := []) : State :=
  let s := (winding [(5, w)] (.publish 0 0 5 amend recs)).modLaunch 0 (fun l => { l with hdr := { l.hdr with out := out, ostr := 6, osrc := 1 } })
  if out then { s with streams := s.streams ++ [(6, { opened := true, srcs := [(1, { kind := .device 0 })] })] } else s
def published (s : State) : Word × Window := let t := after (.watermarkUnitEntry 0) s
  ((t.wave 0).sget 8, (t.binding 0 0).windows.get .none 5)

theorem witness_publish :
    [Window.none, .released, .opened, .fired, .published 3, .taken].map (fun w => published (publishing w false false)) =
      [(3, .none), (3, .released), (1, .opened), (1, .fired), (1, .published 3), (0, .published 0)] ∧
    [Window.none, .released, .taken, .published 3, .published 255].map (fun w => published (publishing w true false)) =
      [(3, .none), (3, .released), (1, .taken), (0, .published 4), (2, .published 255)] ∧
    (publishing .taken false false).bindingsOf 5 = [(0, 0)] ∧ (wave (.watermarkUnitEntry 0) (publishing .taken false false)).pc = 0x10C ∧
    (State.stamped rec80 0x500000180 3).take 5 = [0x180, 5, 0, 0x03000000, 0] := by decide +kernel

/-- W of the input is 0 and windows 1 and 5 are Fired and Taken: the output source advances to 0, or to window 1's end once W is beyond it. -/
theorem witness_publish_out :
    let s : State := publishing .taken false true [rec80]
    let u : State := { s with streams := s.streams.map (fun x => if x.1 = 5 then (5, { x.2 with w := 500 }) else x) }
    let v := (u.modLaunch 0 (fun l => { l with binds := l.binds.mapVal {} (fun _ b => { b with windows := b.windows.set .none 1 .fired }) }))
    published s = (0, .published 0) ∧ ((after (.watermarkUnitEntry 0) u).launch 0).wo = 500 ∧ ((after (.watermarkUnitEntry 0) v).launch 0).wo = 128 ∧
    (((after (.watermarkUnitEntry 0) v).stream 6).srcs.get {} 1).ws = 128 ∧ ((after (.watermarkUnitEntry 0) v).stream 6).w = 128 ∧
    (s.offerAll 6 [State.stamped rec80 384 0]).isOk = true := by decide +kernel

/-- A launch that serves the output's stream too, its queue full: status 4, and nothing changes (R238, R247). -/
def downstream (n : Nat) : State :=
  let s := publishing .taken false true [rec80]
  let b : Binding := { desc := { strm := 6, slide := 64 }, onTime := List.replicate n { words := [], j0 := 0, mask := 1, since := 0, id := 0 } }
  { s with launches := s.launches ++ [{ s.launch 0 with lid := 1, hdr := {}, binds := [(0, b)] }] }

theorem witness_publish_refused : (downstream 256).bindingsOf 6 = [(1, 0)] ∧ published (downstream 256) = (4, .taken) ∧ published (downstream 0) = (0, .published 0) ∧
    ((after (.watermarkUnitEntry 0) (downstream 0)).binding 1 0).onTime.map (fun e => (e.j0, e.words.take 2)) = [(6, [384, 0])] := by decide +kernel

/-- A party number that the block has not: XATT answers 2, whatever wave core 0's slot 0 holds (R168). -/
theorem witness_attach_none :
    let s := attaching.modWave 0 (fun w => { w with sregs := [(4, 1), (5, 15)] })
    (wave (.xattAnswer 0) (s.modBlock 0 (fun b => { b with n := 2 }))).sget 6 = 2 ∧ (s.wave 6144).status = .absent := by decide +kernel

/-- A launch of two cores, asked at 50; core 0 stalls from 100, core 1 from 150, and they end at 200 and 300. -/
def twoStalls (a : DWord) : State :=
  { dl (fun l => { l with prog := .resident, preempt := some a, hdr := { l.hdr with rw := 2, rh := 1 } }) with
    cores := [(0, { stall := some { miss := miss1, tag := 6, since := 100 } }), (1, { stall := some { miss := miss1, tag := 7, since := 150 } })], clock := 200 }

/-- PREB counts none of the 200 cycles, and none of them twice; a request within the stalls starts it at their end (R277). -/
theorem witness_preb : let ended : State → Option (Option DWord) := fun s => s.launches.head?.map (·.preempt)
    let both (a : DWord) (x y : Nat) : Option (Option DWord) := ended ({ (twoStalls a).endStall x with clock := 300 }.endStall y)
    State.coresOf ((twoStalls 50).launch 0) = [0, 1] ∧ (ended ((twoStalls 50).endStall 0), ended ((twoStalls 50).endStall 1)) = (some (some 100), some (some 50)) ∧
    (both 50 0 1, both 50 1 0, both 120 0 1, both 170 1 0, both 250 0 1) = (some (some 250), some (some 250), some (some 300), some (some 300), some (some 300)) := by
  decide +kernel

/-- A wave held at BAR by its earlier open generation may be saved; one in a NAP after the bound; one at an ALU wait may not (R123, R288). -/
theorem witness_save_points : let s : Bool → (Wave → Wave) → State := fun b f => ((asking0 0).modLaunch 0 (fun l => { l with bound := b })).modWave 0 f
    [s false (fun w => { w with reasons := 0x40 }), s false (fun w => { w with wait := .barrier 8 }), s false (fun w => { w with wait := .rendezvous }),
      s false (fun w => { w with reasons := 0x20 }), s true id, s true (fun w => { w with wait := .nap 9 }), s false (fun w => { w with debug := true }),
      s false id, s false (fun w => { w with wait := .nap 9 }), s true (fun w => { w with wait := .stream }), s false (fun w => { w with reasons := 0x04 })].map
        (goes (.waveSave 0)) = List.replicate 7 true ++ List.replicate 4 false := by decide +kernel

/-- The image of an audit's run is not taken (log entry 143). -/
theorem witness_image_replay : let s := { foreign [] with arriving := (foreign []).arriving.map (fun x => { x with launch := { x.launch with replay := some 6 } }) }
    (moved (.image 0) s).saved = [] ∧ (moved (.image 0) s).launches = [] ∧ (moved (.image 0) s).arriving = [] := by decide +kernel

/-- A replay whose core has every slot taken: its XALLOC, which the original's log gives index 0, takes it off the core. -/
def crowded (r : Run) (j : Job) : State :=
  { (dw (fun w => { w with sregs := [(5, 2)], lid := 0 })).modBlock 0 (fun b => { b with run := r }) with
    waves := (List.range 127).map (fun p => (p, if p = 0 then { w0 with sregs := [(5, 2)] } else { w0 with blk := 1 })), clock := 9
    jobs := [{ j with log := [{ kind := 8, wave := 0, seq := 0, src := 0, data := [0, 0] }] }] }

theorem witness_unplaced : let run : Run → Job := fun r => ((after (.xalloc 8 5) (crowded r { job1 with repStarted := true, crep := 4, thrStarted := true, cthr := 5 })).jobs.headD job1)
    (crowded (.replay 6) job1).freeRun 0 2 = none ∧ (crowded (.replay 6) job1).served? 0 8 0 (fun v => v.length == 2) = some [0, 0] ∧
    ((run (.replay 6)).repStarted, (run (.replay 6)).crep, (run (.replay 6)).repDone) = (false, 0xFF, false) ∧
    ((run (.third 6)).thrStarted, (run (.third 6)).cthr, (run (.third 6)).thrDone) = (false, 0xFF, false) ∧ (run (.capture 6)).resolved = true ∧
    ((after (.xalloc 8 5) (crowded (.replay 6) job1)).block 0).ended = true ∧ (wave (.xalloc 8 5) (crowded (.third 6) job1)).status = .ended ∧
    (after (.xalloc 8 5) (crowded (.capture 6) job1)).abr = [(7, 1)] := by decide +kernel

/-- An entry whose data do not fit the buffer: ABR 3, whatever room the region has (R294, R301). -/
theorem witness_log_large : let s := logs 0
    (s.block 0).logging = true ∧ (s.job? (s.block 0).job).isSome = true ∧ (s.logIn 0 3 0 (List.replicate 16381 0)).abr = [(3, 1)] ∧
    (s.logIn 0 3 0 (List.replicate 16380 0)).abr = [(2, 1)] ∧ ((s.logIn 0 3 0 (List.replicate 16381 0)).jobs.map (·.resolved)) = [true] := by decide +kernel

/-- A debugger's access to row 197,376 halts the context (R37). -/
theorem witness_debug_reserved : let s := debugged true true false
    [Instr.debugReadState (debugMsg1 3 197376 0 []), .debugWriteState (debugMsg1 4 197376 0 rowBytes)].map (fun i =>
      (((after i s).launch 0).prog, ((after i s).launch 0).halt.map (fun h => (h.cause, h.detail)), (after i s).sent.map (·.stat))) =
        List.replicate 2 (.halting, some (0x14, 0), [2]) ∧
    (after (.debugReadState (debugMsg1 3 197375 0 [])) s).sent.map (·.stat) = [0] := by decide +kernel

/-- Engine commands and the geode forms that execute once for the wave take one issue cycle (R19, R159, R253). -/
theorem witness_port_cycles : [Instr.gath 8 0 false 2 3, .scat 8 0 false 2 3, .pmul 0 1 2, .pdiv 0 1 2, .vadd 9 1 2].map Instr.portCycles = [1, 1, 1, 1, 3] := by
  decide +kernel

/-- CPIN to ceiling rows that an XGET of the wave has not read yet waits for it (R211, R218). -/
theorem witness_ceiling_order : let s : State := (copying [(9, 0xF00), (10, 0), (11, 1)]).modCore 0 (fun k => { k with grants := [(0, some 0)] })
    let o : Op := { id := 3, kind := .xget, party := 0, lid := 0, flag := 1, ceil := true, lanes := [{ lane := 0, loc := elemKey 98304 0 }] }
    s.firstRow 0 .ceil 0 1 = 98304 ∧ s.markHeld 0 98304 = false ∧ ({ s with ops := [o] } : State).markHeld 0 98304 = true := by decide +kernel

/-- An audited atomic whose page has been mapped waits for an earlier one's value: it has been answered, so that nothing waits for it (R228). -/
theorem witness_recheck :
    let s : State := (({ memState with ops := [{ id := 3, kind := .amo 0, party := 0, lid := 0, flag := 1, out := true }] } : State).modBlock 0
      (fun b => { b with logging := true })).modWave 0 (fun w => { w with body := encode (.vamo 9 3 2 0 4 2 .system false) ++ [0, 0], missed := [1], reasons := 0x200 })
    ((s.recheck 0).wave 0).missed = [] ∧ ((s.recheck 0).wave 0).reasons = 2 ∧
    (((memState.modWave 0 (fun w => { w with missed := [1], reasons := 0x200 })).recheck 0).wave 0).missed = [1] := by decide +kernel

theorem witness_canonical : s1.canonical = true ∧ s1.memInside = true ∧ (match step s1 with | .next t => t.canonical && t.memInside | _ => false) = true := by decide +kernel

theorem test_reset : State.reset.boot = .off ∧ State.reset.canonical = true ∧ (State.reset.wave 0).status = .absent ∧ (State.reset.wave 0).md = 2 ∧
    State.reset.byte 0 = 0 ∧ (match step { State.reset with turn := some (.event .powerGood) } with | .next _ => true | _ => false) = true := by
  refine ⟨rfl, rfl, rfl, rfl, rfl, ?_⟩
  rfl

end Sys2Proof.Tests
end

section
/-! Modules, ports, power, boot, islands and throttles (R12, R121, R302, R320, R325 to R329): the statement O57. -/

/-! ### Tables -/

namespace Sys2Proof.SMap

/-- A table listed from a function reads as the function on the keys it lists. -/
theorem get_map_keys {α : Type} (d : α) (f : Nat → α) (ks : List Nat) (k : Nat) :
    get d (ks.map (fun i => (i, f i))) k = if k ∈ ks then f k else d := by
  induction ks with
  | nil => simp [get]
  | cons i t ih =>
    by_cases h : i = k
    · simp [get, h]
    · simp [get, h, Ne.symm h, ih]

end Sys2Proof.SMap

namespace Sys2Proof.Machine

namespace State

/-! ### What a step leaves -/

/-- A step that touches neither the registers' maps nor memory leaves the storage as it was. -/
theorem sameStorage_of_fields {s t : State} (helems : t.elems = s.elems) (hbad : t.bad = s.bad) (hrows : t.rows = s.rows)
    (hmem : t.mem = s.mem) : s.sameStorage t := by
  simp [sameStorage, elem, poisoned, info, byte, helems, hbad, hrows, hmem]

/-- A reply changes nothing but the messages sent (R321). -/
theorem reply_eq (s : State) (m : HostMsg) (st : Nat) (pl : List Byte) :
    s.reply m st pl = { s with sent := (s.reply m st pl).sent } := by
  unfold reply send
  split <;> rfl

@[simp] theorem reply_boot (s : State) (m : HostMsg) (st : Nat) (pl : List Byte) : (s.reply m st pl).boot = s.boot := by rw [reply_eq]
@[simp] theorem reply_staged (s : State) (m : HostMsg) (st : Nat) (pl : List Byte) : (s.reply m st pl).staged = s.staged := by rw [reply_eq]
@[simp] theorem reply_running (s : State) (m : HostMsg) (st : Nat) (pl : List Byte) : (s.reply m st pl).running = s.running := by rw [reply_eq]
@[simp] theorem reply_applied (s : State) (m : HostMsg) (st : Nat) (pl : List Byte) : (s.reply m st pl).applied = s.applied := by rw [reply_eq]

/-! ### A package without contents (R12, R302, R326) -/

/-- Memory and registers are zero, and nothing runs. -/
def Blank (t : State) : Prop :=
  (∀ a, t.byte a = 0) ∧ (∀ k, t.elem k = 0) ∧ (∀ p, t.wave p = {}) ∧ t.launches = [] ∧ t.blocks = []

theorem Blank.reply {t : State} (h : t.Blank) (m : HostMsg) (st : Nat) (pl : List Byte) : (t.reply m st pl).Blank := by
  rw [reply_eq]
  exact h

theorem afresh_blank (s : State) (b : Boot) : (s.afresh b).Blank :=
  ⟨fun _ => rfl, fun _ => rfl, fun _ => rfl, rfl, rfl⟩

theorem bootFrom_blank (s : State) (f : Firmware) : (s.bootFrom f).Blank := s.afresh_blank .answering

/-- Of a core, what the fuses and the audits have said of it outlasts the loss of power (R12, R302). -/
theorem afresh_core (s : State) (b : Boot) (c : Nat) : (s.afresh b).core c =
    { enabled := (s.core c).enabled, score := (s.core c).score, clean := (s.core c).clean, quar := (s.core c).quar } :=
  SMap.get_mapVal ({} : Core) (fun _ k => { enabled := k.enabled, score := k.score, clean := k.clean, quar := k.quar }) s.cores c rfl

/-- The islands of fused-off cores are held off, every other runs (R12). -/
theorem afresh_island (s : State) (b : Boot) {c : Nat} (h : c < 48) :
    (s.afresh b).islands.get .run c = if (s.core c).enabled then .run else .off := by
  refine (SMap.get_map_keys Island.run (fun _ => .off) _ c).trans ?_
  cases he : (s.core c).enabled <;> simp [h, he]

/-! ### Power-good (R121, R326, R327) -/

/-- The package at power-good, before it boots: CLOCK starts, and the images are those that the flash holds by now. -/
def powered (s : State) : State := { s with clock := 0, primary := s.flashImage false, backup := s.flashImage true }

/-- What power-good does whichever image boots. -/
def PoweredOn (s t : State) : Prop :=
  t.Blank ∧ t.clock = 0 ∧ t.primary = s.flashImage false ∧ t.backup = s.flashImage true ∧
  ∀ c < 48, (t.core c).enabled = (s.core c).enabled ∧ (t.core c).quar = (s.core c).quar ∧ (t.core c).score = (s.core c).score ∧
    t.islands.get .run c = if (s.core c).enabled then .run else .off

theorem afresh_poweredOn (s : State) (b : Boot) : s.PoweredOn (s.powered.afresh b) := by
  refine ⟨afresh_blank _ b, rfl, rfl, rfl, fun c hc => ?_⟩
  rw [afresh_core]
  exact ⟨rfl, rfl, rfl, afresh_island s.powered b hc⟩

theorem bootFrom_poweredOn (s : State) (f : Firmware) : s.PoweredOn (s.powered.bootFrom f) := s.afresh_poweredOn .answering

end State

theorem exec_powerGood (s : State) : exec .powerGood s =
    .next (if State.accepts (s.flashImage false) then s.powered.bootFrom (s.flashImage false)
      else if State.accepts (s.flashImage true) then s.powered.bootFrom (s.flashImage true)
      else s.powered.afresh .waiting) := rfl

/-- The primary image boots if it is accepted, else the backup, else the controller waits for an image (R326). -/
theorem powerGood_boots (s : State) : ∃ t, exec .powerGood s = .next t ∧ s.PoweredOn t ∧
    (State.accepts (s.flashImage false) = true → t.boot = .answering ∧ t.running = s.flashImage false ∧ t.applied = s.config) ∧
    (State.accepts (s.flashImage false) = false → State.accepts (s.flashImage true) = true →
      t.boot = .answering ∧ t.running = s.flashImage true ∧ t.applied = s.config) ∧
    (State.accepts (s.flashImage false) = false → State.accepts (s.flashImage true) = false → t.boot = .waiting) := by
  refine ⟨_, exec_powerGood s, ?_⟩
  cases h1 : State.accepts (s.flashImage false) with
  | true => exact ⟨s.bootFrom_poweredOn _, fun _ => ⟨rfl, rfl, rfl⟩, nofun, nofun⟩
  | false =>
    cases h2 : State.accepts (s.flashImage true) with
    | true => exact ⟨s.bootFrom_poweredOn _, nofun, fun _ _ => ⟨rfl, rfl, rfl⟩, nofun⟩
    | false => exact ⟨s.afresh_poweredOn .waiting, nofun, nofun, fun _ _ => rfl⟩

/-! ### An image handed over by the host (R326) -/

/-- The image that the parts received so far make up: signature, version, bytes. -/
def State.stagedImage (s : State) : Firmware :=
  { sig := BitVec.ofNat 512 (leNat (s.staged.take 64)), svn := leNat ((s.staged.drop 64).take 8), bytes := s.staged.drop 72 }

theorem takeFirmware_part {s : State} {m : HostMsg} (h : m.len ≠ 0) :
    s.takeFirmware m = ({ s with staged := s.staged.take m.addr.toNat ++ HostMsg.data m } : State).reply m 0 := if_pos h

theorem takeFirmware_accepted {s : State} {m : HostMsg} (h : m.len = 0) (ha : State.accepts s.stagedImage = true) :
    s.takeFirmware m = (s.bootFrom s.stagedImage).reply m 0 := (if_neg (not_not.mpr h)).trans (if_pos ha)

theorem takeFirmware_rejected {s : State} {m : HostMsg} (h : m.len = 0) (ha : State.accepts s.stagedImage = false) :
    s.takeFirmware m = ({ s with staged := [] } : State).reply m 0xFFFE := (if_neg (not_not.mpr h)).trans (if_neg (ne_true_of_eq_false ha))

section
variable {s : State} {m : HostMsg} (hb : s.boot = .waiting) (hu : (s.modules.get {} m.module).up = true) (hp : imagePart m = true)
include hb hu hp

theorem exec_debugWriteState_waiting : exec (.debugWriteState m) s = .next (s.takeFirmware m) := if_pos ⟨hb, hu, hp⟩

/-- A part goes to its offset among the parts received. -/
theorem imagePart_taken (h : m.len ≠ 0) :
    ∃ t, exec (.debugWriteState m) s = .next t ∧ t.answers m 0 ∧ t.staged = s.staged.take m.addr.toNat ++ HostMsg.data m := by
  refine ⟨_, exec_debugWriteState_waiting hb hu hp, ?_⟩
  rw [takeFirmware_part h]
  exact ⟨State.reply_answers 0 [] hu, by simp⟩

/-- An empty part boots the image received, if it is accepted: modules are up again after boot, so that the answer is sent. -/
theorem emptyPart_boots (h : m.len = 0) (ha : State.accepts s.stagedImage = true) :
    ∃ t, exec (.debugWriteState m) s = .next t ∧ t.answers m 0 ∧ t.boot = .answering ∧ t.running = s.stagedImage ∧
      t.applied = s.config ∧ t.Blank := by
  refine ⟨_, exec_debugWriteState_waiting hb hu hp, ?_⟩
  rw [takeFirmware_accepted h ha]
  refine ⟨State.reply_answers 0 [] rfl, ?_, ?_, ?_, (State.bootFrom_blank s _).reply m 0 []⟩
  · rw [State.reply_boot]; rfl
  · rw [State.reply_running]; rfl
  · rw [State.reply_applied]; rfl

/-- An image that is not accepted leaves the controller waiting for another. -/
theorem emptyPart_rejected (h : m.len = 0) (ha : State.accepts s.stagedImage = false) :
    ∃ t, exec (.debugWriteState m) s = .next t ∧ t.answers m 0xFFFE ∧ t.boot = .waiting := by
  refine ⟨_, exec_debugWriteState_waiting hb hu hp, ?_⟩
  rw [takeFirmware_rejected h ha]
  exact ⟨State.reply_answers _ [] hu, by simp [hb]⟩

end

/-! ### Modules and ports (R320, R325) -/

/-- A module that goes down loses the arrivals on it, and nothing else. -/
theorem ucieModuleDown_effect (s : State) (n : Nat) : ∃ t, exec (.ucieModuleDown n) s = .next t ∧ (t.modules.get {} n).up = false ∧
    (∀ x, x ≠ n → t.modules.get {} x = s.modules.get {} x) ∧ (∀ i ∈ t.inputs, moduleOf i ≠ some n) ∧ s.sameStorage t ∧
    ∀ p, t.wave p = s.wave p := by
  refine ⟨_, rfl, by rw [SMap.get_set_same], fun x hx => by rw [SMap.get_set_other _ _ _ hx], fun i hi => ?_,
    State.sameStorage_of_fields rfl rfl rfl rfl, fun _ => rfl⟩
  simpa using (List.mem_filter.mp hi).2

/-- A module that trains down keeps 32 lanes, up or down as it was. -/
theorem ucieLaneTrainDown_effect (s : State) (n : Nat) : ∃ t, exec (.ucieLaneTrainDown n) s = .next t ∧ (t.modules.get {} n).lanes = 32 ∧
    (t.modules.get {} n).up = (s.modules.get {} n).up ∧ (∀ x, x ≠ n → t.modules.get {} x = s.modules.get {} x) ∧ s.sameStorage t ∧
    ∀ p, t.wave p = s.wave p :=
  ⟨_, rfl, by rw [SMap.get_set_same], by rw [SMap.get_set_same], fun x hx => by rw [SMap.get_set_other _ _ _ hx],
    State.sameStorage_of_fields rfl rfl rfl rfl, fun _ => rfl⟩

theorem portLinkDown_effect (s : State) (n : Nat) : ∃ t, exec (.portLinkDown n) s = .next t ∧ (t.ports.get {} n).up = false ∧
    (∀ x, x ≠ n → t.ports.get {} x = s.ports.get {} x) ∧ s.sameStorage t ∧ ∀ p, t.wave p = s.wave p :=
  ⟨_, rfl, by rw [SMap.get_set_same], fun x hx => by rw [SMap.get_set_other _ _ _ hx], State.sameStorage_of_fields rfl rfl rfl rfl, fun _ => rfl⟩

/-! ### Islands and temperature (R12, R328, R329) -/

/-- When a request for an island holds: it is an island, that of a fused-off core stays off, and one that leaves Run is unoccupied, a die's
fabric or PHYs with its cores out of Run. -/
theorem islandOk_iff (s : State) (n : Nat) (st : Island) : s.islandOk n st = true ↔
    n < 56 ∧ (48 ≤ n ∨ (s.core n).enabled = true ∨ st = .off) ∧
    (st = .run ∨ (n < 48 ∧ s.occupied n = false) ∨ (48 ≤ n ∧ ∀ c < 48, dieOf c = (n - 48) % 4 → s.islands.get .run c ≠ .run)) := by
  unfold State.islandOk
  by_cases hn : n < 48
  · have hle : ¬48 ≤ n := by omega
    simp [hn, hle, and_assoc]
  · have hle : 48 ≤ n := by omega
    simp [hn, hle, imp_iff_not_or]

theorem islandStateChange_effect {s : State} {n : Nat} {st : Island} (h : s.islandOk n st = true) :
    ∃ t, exec (.islandStateChange n st) s = .next t ∧ t.islands.get .run n = st ∧
      (∀ x, x ≠ n → t.islands.get .run x = s.islands.get .run x) ∧ s.sameStorage t ∧ ∀ p, t.wave p = s.wave p :=
  ⟨_, when_true h, by rw [SMap.get_set_same], fun x hx => by rw [SMap.get_set_other _ _ _ hx],
    State.sameStorage_of_fields rfl rfl rfl rfl, fun _ => rfl⟩

theorem thermalThrottleStart_effect (s : State) (n : Nat) : ∃ t, exec (.thermalThrottleStart n) s = .next t ∧
    t.throttled.get false n = true ∧ s.sameStorage t ∧ ∀ p, t.wave p = s.wave p :=
  ⟨_, rfl, by rw [SMap.get_set_same], State.sameStorage_of_fields rfl rfl rfl rfl, fun _ => rfl⟩

theorem thermalThrottleEnd_effect (s : State) (n : Nat) : ∃ t, exec (.thermalThrottleEnd n) s = .next t ∧
    t.throttled.get false n = false ∧ s.sameStorage t ∧ ∀ p, t.wave p = s.wave p :=
  ⟨_, rfl, by rw [SMap.get_set_same], State.sameStorage_of_fields rfl rfl rfl rfl, fun _ => rfl⟩

/-- A thermal shutdown removes power, and every module is down (R320, R329). -/
theorem thermalShutdown_effect (s : State) : ∃ t, exec .thermalShutdown s = .next t ∧ t.Blank ∧ t.boot = .removed ∧
    ∀ x < 4, (t.modules.get {} x).up = false := by
  refine ⟨_, rfl, s.afresh_blank .removed, rfl, fun x hx => ?_⟩
  have h : x ∈ List.range 4 := List.mem_range.mpr hx
  exact congrArg Module.up ((SMap.get_map_keys {} (fun _ => { up := false }) (List.range 4) x).trans (if_pos h))

/-! ### The statement -/

/-- Settles O57: one lemma for each step, and for a host message that hands an image over. -/
theorem linksAndPower : Obligations.LinksAndPower := by
  intro s n
  refine ⟨ucieModuleDown_effect s n, ucieLaneTrainDown_effect s n, portLinkDown_effect s n, ?power, ?image,
    fun st hn hcore hrun => islandStateChange_effect ((islandOk_iff s n st).mpr ⟨hn, hcore, hrun⟩),
    thermalThrottleStart_effect s n, thermalThrottleEnd_effect s n, thermalShutdown_effect s⟩
  case power =>
    obtain ⟨t, ht, ⟨hblank, hclock, hprimary, hbackup, hcores⟩, hboots⟩ := powerGood_boots s
    exact ⟨t, ht, hblank, hclock, hprimary, hbackup, hcores, hboots⟩
  case image =>
    intro m hboot hup hmod htyp hsub hrsv hstat
    have part : m.len ≤ 4096 → imagePart m = true := fun hlen => by simp [imagePart, htyp, hsub, hrsv, hstat, hlen, hmod]
    refine ⟨fun hlen hmax => imagePart_taken hboot hup (part hmax) hlen, fun hlen => ?_⟩
    have hp := part (by omega)
    exact ⟨emptyPart_boots hboot hup hp hlen, emptyPart_rejected hboot hup hp hlen⟩

end Sys2Proof.Machine
end

section
/-! The encoder and the decoder are inverse, and what does not decode (R62 to R65, R70 to R81): the statements O1, O2 and O3. -/

namespace Sys2Proof

/-! ### Results of the decoder's combinators -/

theorem one_ok {ok2 ok3 : Bool} {i j : Instr} {k : Nat} :
    one ok2 ok3 i = .ok (j, k) ↔ ok2 = true ∧ ok3 = true ∧ i = j ∧ k = 1 := by
  cases ok2 <;> cases ok3 <;> simp [one, eq_comm]

theorem oneOf_ok {α : Type} {o : Option α} {ok2 : Bool} {ok3 : α → Bool} {f : α → Instr} {j : Instr} {k : Nat} :
    oneOf o ok2 ok3 f = .ok (j, k) ↔ ∃ x, o = some x ∧ ok2 = true ∧ ok3 x = true ∧ f x = j ∧ k = 1 := by
  cases o <;> simp [oneOf, one_ok]

/-- An operand word (R73). -/
def IsOperand (y : Word) : Prop := y.toNat / 16777216 = 0xDF

theorem two_ok {next : Option Word} {ok2 ok3 : Bool} {f : Nat → Nat → Decoded} {j : Instr} {k : Nat} :
    two next ok2 ok3 f = .ok (j, k) ↔ ok2 = true ∧ ok3 = true ∧ k = 2 ∧
      ∃ y, next = some y ∧ IsOperand y ∧ ∃ m, f (y.toNat / 65536 % 256) (y.toNat % 65536) = .ok (j, m) := by
  unfold two
  cases next with
  | none => cases ok2 <;> cases ok3 <;> simp
  | some y =>
    by_cases hy : y.toNat / 16777216 = 0xDF
    · cases hf : f (y.toNat / 65536 % 256) (y.toNat % 65536) with
      | error e => by_cases he : e = .reservedBit <;> cases ok2 <;> cases ok3 <;> simp [hy, hf, he, IsOperand]
      | ok r =>
        obtain ⟨i, m⟩ := r
        cases ok2 <;> cases ok3 <;> simp [hy, hf, IsOperand, and_comm, eq_comm]
    · cases ok2 <;> cases ok3 <;> simp [hy, IsOperand]

/-! ### The codes of the small sets -/

theorem Cc.ofCode_eq_some {n : Nat} {c : Cc} : Cc.ofCode n = some c ↔ n = c.code := by
  constructor
  · unfold Cc.ofCode; split <;> rintro ⟨⟩ <;> rfl
  · rintro rfl; cases c <;> rfl

theorem BrCond.ofCode_eq_some {n : Nat} {c : BrCond} : BrCond.ofCode n = some c ↔ n = c.code := by
  constructor
  · unfold BrCond.ofCode; split <;> rintro ⟨⟩ <;> rfl
  · rintro rfl; cases c <;> rfl

theorem Cond.ofCode_eq_some {n : Nat} {c : Cond} : Cond.ofCode n = some c ↔ n = c.code := by
  constructor
  · unfold Cond.ofCode; split <;> rintro ⟨⟩ <;> rfl
  · rintro rfl; cases c <;> rfl

theorem EType.ofCode_eq_some {n : Nat} {c : EType} : EType.ofCode n = some c ↔ n = c.code := by
  constructor
  · unfold EType.ofCode; split <;> rintro ⟨⟩ <;> rfl
  · rintro rfl; cases c <;> rfl

theorem Pat.ofCode_eq_some {n : Nat} {c : Pat} : Pat.ofCode n = some c ↔ n = c.code := by
  constructor
  · unfold Pat.ofCode; split <;> rintro ⟨⟩ <;> rfl
  · rintro rfl; cases c <;> rfl

theorem XOp.ofCode_eq_some {n : Nat} {c : XOp} : XOp.ofCode n = some c ↔ n = c.code := by
  constructor
  · unfold XOp.ofCode; split <;> rintro ⟨⟩ <;> rfl
  · rintro rfl; cases c <;> rfl

theorem Scope.ofCode_eq_some {n : Nat} {c : Scope} : Scope.ofCode n = some c ↔ n = c.code := by
  constructor
  · unfold Scope.ofCode; split <;> rintro ⟨⟩ <;> rfl
  · rintro rfl; cases c <;> rfl

theorem Audience.ofCode_eq_some {n : Nat} {c : Audience} : Audience.ofCode n = some c ↔ n = c.code := by
  constructor
  · unfold Audience.ofCode; split <;> rintro ⟨⟩ <;> rfl
  · rintro rfl; cases c <;> rfl

theorem CpSpace.ofCode_eq_some {n : Nat} {c : CpSpace} : CpSpace.ofCode n = some c ↔ n = c.code := by
  constructor
  · unfold CpSpace.ofCode; split <;> rintro ⟨⟩ <;> rfl
  · rintro rfl; cases c <;> rfl

theorem WFmt.ofCode_eq_some {n : Nat} {c : WFmt} : WFmt.ofCode n = some c ↔ n = c.code := by
  constructor
  · unfold WFmt.ofCode; split <;> rintro ⟨⟩ <;> rfl
  · rintro rfl; cases c <;> rfl

/-- The selector byte of R160 names a handle below 16, the own slot or the ceiling. -/
theorem Space.ofCode_eq_some {n : Nat} {s : Space} : Space.ofCode n = some s ↔ n = s.code ∧ s.wf = true := by
  constructor
  · unfold Space.ofCode
    split
    · next hn => rintro ⟨⟩; exact ⟨rfl, decide_eq_true hn⟩
    split
    · next hn => rintro ⟨⟩; exact ⟨hn, rfl⟩
    split
    · next hn => rintro ⟨⟩; exact ⟨hn, rfl⟩
    · nofun
  · rintro ⟨rfl, h⟩
    cases s with
    | handle x => exact if_pos (of_decide_eq_true h)
    | slot => rfl
    | ceil => rfl

theorem SpecReg.ofCode_eq_some {n : Nat} {s : SpecReg} : SpecReg.ofCode n = some s ↔ n = s.code ∧ s.wf = true := by
  constructor
  · unfold SpecReg.ofCode
    split
    · next hn => rintro ⟨⟩; exact ⟨rfl, decide_eq_true hn⟩
    · split <;> rintro ⟨⟩ <;> exact ⟨rfl, rfl⟩
  · rintro ⟨rfl, h⟩
    cases s with
    | wfield x => exact if_pos (of_decide_eq_true h)
    | lc x =>
      have hx : x < 3 := of_decide_eq_true h
      interval_cases x <;> rfl
    | _ => rfl

theorem Cc.code_lt (c : Cc) : c.code < 4 := by cases c <;> decide
theorem BrCond.code_lt (c : BrCond) : c.code < 7 := by cases c <;> decide
theorem Cond.code_lt (c : Cond) : c.code < 8 := by cases c <;> decide
theorem EType.code_lt (c : EType) : c.code < 12 := by cases c <;> decide
theorem Pat.code_lt (c : Pat) : c.code < 4 := by cases c <;> decide
theorem XOp.code_lt (c : XOp) : c.code < 6 := by cases c <;> decide
theorem Scope.code_lt (c : Scope) : c.code < 6 := by cases c <;> decide
theorem Audience.code_lt (c : Audience) : c.code < 3 := by cases c <;> decide
theorem CpSpace.code_lt (c : CpSpace) : c.code < 3 := by cases c <;> decide
theorem WFmt.code_lt (c : WFmt) : c.code < 5 := by cases c <;> decide

theorem Space.code_lt {s : Space} (h : s.wf = true) : s.code < 256 := by
  cases s with
  | handle x => exact Nat.lt_trans (of_decide_eq_true h) (by decide)
  | slot | ceil => decide

theorem SpecReg.code_lt {s : SpecReg} (h : s.wf = true) : s.code < 22 := by
  cases s with
  | wfield x => exact Nat.lt_trans (of_decide_eq_true h) (by decide)
  | lc x => have hx : x < 3 := of_decide_eq_true h; simp only [SpecReg.code]; omega
  | _ => decide

theorem b2n_lt (b : Bool) : b2n b < 2 := by cases b <;> decide
@[simp] theorem b2n_le (b : Bool) : b2n b ≤ 1 := by cases b <;> decide
theorem b2n_beq (b : Bool) : (b2n b == 1) = b := by cases b <;> rfl

/-! ### The fields of a word (R70) -/

theorem mk_toNat {op rest : Nat} (hop : op < 256) (hr : rest < 16777216) : (mk op rest).toNat = op * 16777216 + rest := by
  rw [mk, BitVec.toNat_ofNat]; omega

theorem mk_eq {w : Word} {op rest : Nat} (hop : w.toNat / 16777216 = op) (hr : w.toNat % 16777216 = rest) : mk op rest = w := by
  apply BitVec.eq_of_toNat_eq
  have := w.isLt
  rw [mk_toNat] <;> omega

/-- The decoder, as a function of a word's opcode and value. -/
def decodeOp (next : Option Word) (op n : Nat) : Decoded :=
  match op / 16 with
  | 0x0 => dec0 (op % 16) n
  | 0x1 => dec1 (op % 16) n
  | 0x2 => dec2 (op % 16) n
  | 0x3 => dec3 next (op % 16) n
  | 0x4 => dec4 next (op % 16) n
  | 0x5 => dec5 next (op % 16) n
  | 0x6 => dec6 next (op % 16) n
  | 0x7 => dec7 next (op % 16) n
  | 0x8 => dec8 next (op % 16) n
  | 0x9 => dec9 next (op % 16) n
  | 0xA => decA (op % 16) n
  | 0xB => decB (op % 16) n
  | 0xC => decC next (op % 16) n
  | 0xD => if op % 16 = 0xF then .error .operandWord else .error .undefinedOpcode
  | 0xE => decE (op % 16) n
  | _ => .error .headerInBody

theorem decodeInstr_eq_decodeOp (w : Word) (next : Option Word) : decodeInstr w next = decodeOp next (w.toNat / 16777216) w.toNat := by
  rw [decodeOp, Nat.div_div_eq_div_mul]
  rfl

/-! ### Decoding what was encoded -/

/-- The words of an instruction decode to it, whatever follows a form of one word. -/
def RoundTrips (i : Instr) : Prop :=
  (∃ w, encode i = [w] ∧ ∀ next, decodeInstr w next = .ok (i, 1)) ∨
  ∃ w y, encode i = [w, y] ∧ decodeInstr w (some y) = .ok (i, 2)

theorem roundTrips_mk {i : Instr} {op rest : Nat} (he : encode i = [mk op rest]) (hop : op < 256) (hr : rest < 16777216)
    (h : ∀ next n, n / 16777216 = op → n % 16777216 = rest → decodeOp next op n = .ok (i, 1)) : RoundTrips i := by
  refine .inl ⟨_, he, fun next => ?_⟩
  rw [decodeInstr_eq_decodeOp, mk_toNat hop hr, show (op * 16777216 + rest) / 16777216 = op by omega]
  exact h next _ (by omega) (by omega)

theorem roundTrips_fA {i : Instr} {op d a b : Nat} (he : encode i = [fA op d a b]) (hop : op < 256) (hd : d < 256) (ha : a < 256)
    (hb : b < 256) (h : ∀ next n, n / 65536 % 256 = d → n / 256 % 256 = a → n % 256 = b → decodeOp next op n = .ok (i, 1)) :
    RoundTrips i :=
  roundTrips_mk he hop (by omega) fun next n _ hn => h next n (by omega) (by omega) (by omega)

theorem roundTrips_fI {i : Instr} {op d imm : Nat} (he : encode i = [fI op d imm]) (hop : op < 256) (hd : d < 256) (hi : imm < 65536)
    (h : ∀ next n, n / 65536 % 256 = d → n % 65536 = imm → decodeOp next op n = .ok (i, 1)) : RoundTrips i :=
  roundTrips_mk he hop (by omega) fun next n _ hn => h next n (by omega) (by omega)

theorem roundTrips_fM {i : Instr} {op d o p x : Nat} (he : encode i = [fM op d o p x]) (hop : op < 256) (hd : d < 256) (ho : o < 256)
    (hp : p < 32) (hx : x < 8)
    (h : ∀ next n, n / 65536 % 256 = d → n / 256 % 256 = o → n % 256 / 8 = p → n % 8 = x → decodeOp next op n = .ok (i, 1)) :
    RoundTrips i :=
  roundTrips_mk he hop (by omega) fun next n _ hn => h next n (by omega) (by omega) (by omega) (by omega)

theorem roundTrips_fB {i : Instr} {op : Nat} {hint : BitVec 2} {disp : BitVec 22} (he : encode i = [fB op hint disp]) (hop : op < 256)
    (h : ∀ next n, BitVec.ofNat 2 (n / 65536 % 256 / 64) = hint → BitVec.ofNat 22 (n % 4194304) = disp → decodeOp next op n = .ok (i, 1)) :
    RoundTrips i := by
  have := hint.isLt
  have := disp.isLt
  refine roundTrips_mk he hop (by omega) fun next n _ hn => h next n ?_ ?_
  · rw [show n / 65536 % 256 / 64 = hint.toNat by omega, BitVec.ofNat_toNat, BitVec.setWidth_eq]
  · rw [show n % 4194304 = disp.toNat by omega, BitVec.ofNat_toNat, BitVec.setWidth_eq]

theorem roundTrips_fC {i : Instr} {op sb unit option : Nat} (he : encode i = [fC op sb unit option]) (hop : op < 256) (hs : sb < 64)
    (hu : unit < 64) (ho : option < 4096)
    (h : ∀ next n, n / 65536 % 256 / 4 = sb → n / 4096 % 64 = unit → n % 4096 = option → decodeOp next op n = .ok (i, 1)) :
    RoundTrips i :=
  roundTrips_mk he hop (by omega) fun next n _ hn => h next n (by omega) (by omega) (by omega)

theorem roundTrips_pair {i : Instr} {op rest c ext : Nat} (he : encode i = [mk op rest, opw c ext]) (hop : op < 256)
    (hr : rest < 16777216) (hc : c < 256) (hx : ext < 65536)
    (h : ∀ y n, n % 16777216 = rest → IsOperand y → y.toNat / 65536 % 256 = c → y.toNat % 65536 = ext →
      decodeOp (some y) op n = .ok (i, 2)) : RoundTrips i := by
  refine .inr ⟨_, _, he, ?_⟩
  have hy : (opw c ext).toNat = 0xDF * 16777216 + (c * 65536 + ext) := mk_toNat (by decide) (by omega)
  rw [decodeInstr_eq_decodeOp, mk_toNat hop hr, show (op * 16777216 + rest) / 16777216 = op by omega]
  exact h _ _ (by omega) (show (opw c ext).toNat / 16777216 = 0xDF by omega) (by omega) (by omega)

theorem roundTrips_fA_pair {i : Instr} {op d a b c ext : Nat} (he : encode i = [fA op d a b, opw c ext]) (hop : op < 256) (hd : d < 256)
    (ha : a < 256) (hb : b < 256) (hc : c < 256) (hx : ext < 65536)
    (h : ∀ y n, n / 65536 % 256 = d → n / 256 % 256 = a → n % 256 = b → IsOperand y → y.toNat / 65536 % 256 = c → y.toNat % 65536 = ext →
      decodeOp (some y) op n = .ok (i, 2)) : RoundTrips i :=
  roundTrips_pair he hop (by omega) hc hx fun y n hn => h y n (by omega) (by omega) (by omega)

theorem isV_iff {r : Nat} : isV r = true ↔ r < 256 := decide_eq_true_iff
theorem isS_iff {r : Nat} : isS r = true ↔ r < 64 := decide_eq_true_iff
theorem isV3_iff {d a b : Nat} : isV3 d a b = true ↔ d < 256 ∧ a < 256 ∧ b < 256 := by simp [isV3, isV, and_assoc]
theorem isS3_iff {d a b : Nat} : isS3 d a b = true ↔ d < 64 ∧ a < 64 ∧ b < 64 := by simp [isS3, isS, and_assoc]

theorem SpecReg.destOk_lt {sr : SpecReg} {d : Nat} (h : sr.destOk d = true) : d < 256 := by
  cases sr <;> simp [SpecReg.destOk, isV, isS, isEven] at h <;> omega

theorem isEven_lt {r : Nat} (h : isEven r = true) : r < 64 := of_decide_eq_true (Bool.and_eq_true_iff.mp h).1
theorem isBlock_lt {r : Nat} (h : isBlock r = true) : r < 64 := Nat.lt_of_le_of_lt (of_decide_eq_true h) (by decide)

theorem isCmd_iff {sb t : Nat} : isCmd sb t = true ↔ isBlock sb = true ∧ t < 64 := by simp [isCmd]

theorem isMem_iff {v o p x : Nat} : isMem v o p x = true ↔ v < 256 ∧ o < 256 ∧ p < 32 ∧ x < 8 := by simp [isMem, isV, and_assoc]
theorem isMemS_iff {v o p x : Nat} : isMemS v o p x = true ↔ v < 64 ∧ o < 64 ∧ p < 32 ∧ x < 8 := by simp [isMemS, isS, and_assoc]

theorem isField_iff {len pos : Nat} : isField len pos = true ↔ 1 ≤ len ∧ len ≤ 32 ∧ pos + len ≤ 32 ∧ pos < 32 := by
  simp [isField, and_assoc]

theorem fieldOk_iff {sx : Bool} {ext : Nat} :
    fieldOk sx ext = true ↔ ext < 4096 ∧ (sx = false → ext / 2048 % 2 = 0) ∧ isField (ext / 32 % 64) (ext % 32) = true := by
  have : bitOf ext 11 = false ↔ ext / 2048 % 2 = 0 := by
    rw [bitOf, beq_eq_false_iff_ne]; omega
  cases sx <;> simp [fieldOk, this, and_assoc]

theorem isExchange_le {b : Nat} {p : Pat} {k : Nat} (h : isExchange b p k = true) : b < 256 ∧ k ≤ 95 := by
  unfold isExchange at h
  split at h <;> simp [isV] at h <;> omega

theorem roundTrips_brc {c : BrCond} {a : Nat} {disp : BitVec 15} (h : (Instr.brc c a disp).wf = true) : RoundTrips (.brc c a disp) := by
  have ha : a < 64 ∧ (c.code < 3 → a = 0) := by
    cases c <;> simp [Instr.wf, isS] at h <;> simp [BrCond.code] <;> omega
  have := c.code_lt
  have := disp.isLt
  refine roundTrips_mk rfl (by decide) (by omega) fun _ n _ hn => ?_
  have ha' : n / 32768 % 64 = a := by omega
  have hc : n / 65536 % 256 / 32 = c.code := by omega
  refine oneOf_ok.mpr ⟨c, BrCond.ofCode_eq_some.mpr hc, ?_, rfl, ?_, rfl⟩
  · simp only [ha', hc, Bool.or_eq_true, decide_eq_true_eq]; omega
  · simp [ha', show n % 32768 = disp.toNat by omega]

theorem roundTrips_wrsr {sr : SpecReg} {a : Nat} (h : (Instr.wrsr sr a).wf = true) : RoundTrips (.wrsr sr a) := by
  obtain ⟨hw, ha⟩ := Bool.and_eq_true_iff.mp h
  have hs : sr.wf = true := by cases sr <;> first | rfl | exact hw | cases hw
  have := isS_iff.mp ha
  refine roundTrips_fI rfl (by decide) (by omega) (Nat.lt_trans (SpecReg.code_lt hs) (by decide)) ?_
  rintro _ n rfl hi
  have hsr := SpecReg.ofCode_eq_some.mpr ⟨hi, hs⟩
  show (match SpecReg.ofCode (n % 65536) with | none => _ | some r => _) = _
  rw [hsr]
  exact one_ok.mpr ⟨hw, ha, rfl, rfl⟩

/-- The field layout of R138 gives its parts back. -/
theorem fieldOk_parts {sx : Bool} {len pos ext : Nat} (h : isField len pos = true) (hx : ext = b2n sx * 2048 + len * 32 + pos) :
    fieldOk sx ext = true ∧ (ext / 2048 % 2 == 1) = sx ∧ ext / 32 % 64 = len ∧ ext % 32 = pos := by
  have := isField_iff.mp h
  have := b2n_lt sx
  have hlen : ext / 32 % 64 = len := by omega
  have hpos : ext % 32 = pos := by omega
  have hsx : ext / 2048 % 2 = b2n sx := by omega
  refine ⟨fieldOk_iff.mpr ⟨by omega, ?_, by rw [hlen, hpos]; exact h⟩, by rw [hsx, b2n_beq], hlen, hpos⟩
  rintro rfl
  exact hsx

theorem fieldOk_true {sx : Bool} {ext : Nat} (h : fieldOk sx ext = true) : fieldOk true ext = true := by
  obtain ⟨hx, -, hf⟩ := fieldOk_iff.mp h
  exact fieldOk_iff.mpr ⟨hx, nofun, hf⟩

theorem field_ok {f : Bool → Nat → Nat → Instr} {sx : Bool} {len pos c ext : Nat} (h : isField len pos = true) (hc : c = 0)
    (hx : ext = b2n sx * 2048 + len * 32 + pos) :
    one (decide (c = 0) && fieldOk true ext) true (f (ext / 2048 % 2 == 1) (ext / 32 % 64) (ext % 32)) = .ok (f sx len pos, 1) := by
  obtain ⟨hok, hsx, hlen, hpos⟩ := fieldOk_parts h hx
  exact one_ok.mpr ⟨by simp [hc, fieldOk_true hok], rfl, by rw [hsx, hlen, hpos], rfl⟩

theorem cvtParts_le (t f : EType) : cvtParts t f ≤ 8 := by cases t <;> cases f <;> decide

theorem roundTrips_vcvt {d a : Nat} {t f : EType} {part : Nat} (h : (Instr.vcvt d a t f part).wf = true) :
    RoundTrips (.vcvt d a t f part) := by
  obtain ⟨hda, hp⟩ := Bool.and_eq_true_iff.mp h
  obtain ⟨hd, ha⟩ := Bool.and_eq_true_iff.mp hda
  have := of_decide_eq_true hp
  have := cvtParts_le t f
  have := t.code_lt
  have := f.code_lt
  refine roundTrips_fA_pair rfl (by decide) (isV_iff.mp hd) (isV_iff.mp ha) (by omega) (by decide) (by omega) ?_
  rintro y n rfl rfl hb hy h0 rfl
  have ht : EType.ofCode (n % 256 / 16) = some t := EType.ofCode_eq_some.mpr (by omega)
  have hf : EType.ofCode (n % 256 % 16) = some f := EType.ofCode_eq_some.mpr (by omega)
  show (match EType.ofCode (n % 256 / 16), EType.ofCode (n % 256 % 16) with | some t, some f => _ | _, _ => _) = _
  rw [ht, hf]
  refine two_ok.mpr ⟨rfl, rfl, rfl, y, rfl, hy, 1, ?_⟩
  refine one_ok.mpr ⟨?_, rfl, rfl, rfl⟩
  simp only [Bool.and_eq_true, decide_eq_true_eq]
  omega

theorem roundTrips_vshf {d a b : Nat} {p : Pat} {k : Nat} (h : (Instr.vshf d a b p k).wf = true) : RoundTrips (.vshf d a b p k) := by
  obtain ⟨hda, he⟩ := Bool.and_eq_true_iff.mp h
  obtain ⟨hd, ha⟩ := Bool.and_eq_true_iff.mp hda
  obtain ⟨hb, hk⟩ := isExchange_le he
  have := p.code_lt
  refine roundTrips_fA_pair rfl (by decide) (isV_iff.mp hd) (isV_iff.mp ha) hb (by decide) (by omega) ?_
  rintro y n rfl rfl rfl hy h0 hx
  have hp : Pat.ofCode (y.toNat % 65536 % 4) = some p := Pat.ofCode_eq_some.mpr (by omega)
  obtain rfl : y.toNat % 65536 / 4 % 128 = k := by omega
  simp only [decodeOp, dec7]
  refine two_ok.mpr ⟨rfl, rfl, rfl, y, rfl, hy, 1, ?_⟩
  generalize y.toNat % 65536 = ext at *
  simp [hp, oneOf, one, h0, show ext < 512 by omega, he]

theorem roundTrips_vshop {d a b : Nat} {op : XOp} {p : Pat} {k : Nat} (h : (Instr.vshop d a b op p k).wf = true) :
    RoundTrips (.vshop d a b op p k) := by
  obtain ⟨hda, he⟩ := Bool.and_eq_true_iff.mp h
  obtain ⟨hd, ha⟩ := Bool.and_eq_true_iff.mp hda
  obtain ⟨hb, hk⟩ := isExchange_le he
  have := p.code_lt
  have := op.code_lt
  refine roundTrips_fA_pair rfl (by decide) (isV_iff.mp hd) (isV_iff.mp ha) hb (by decide) (by omega) ?_
  rintro y n rfl rfl rfl hy h0 hx
  have hp : Pat.ofCode (y.toNat % 65536 % 4) = some p := Pat.ofCode_eq_some.mpr (by omega)
  have ho : XOp.ofCode (y.toNat % 65536 / 512 % 8) = some op := XOp.ofCode_eq_some.mpr (by omega)
  obtain rfl : y.toNat % 65536 / 4 % 128 = k := by omega
  simp only [decodeOp, dec7]
  refine two_ok.mpr ⟨rfl, rfl, rfl, y, rfl, hy, 1, ?_⟩
  generalize y.toNat % 65536 = ext at *
  simp [hp, ho, one, h0, show ext < 4096 by omega, he]

theorem roundTrips_vsegop {d a b : Nat} {op : XOp} {tot : Bool} (h : (Instr.vsegop d a b op tot).wf = true) :
    RoundTrips (.vsegop d a b op tot) := by
  obtain ⟨hd, ha, hb⟩ := isV3_iff.mp h
  have := op.code_lt
  have := b2n_lt tot
  refine roundTrips_fA_pair rfl (by decide) hd ha hb (by decide) (by omega) ?_
  rintro y n rfl rfl rfl hy h0 hx
  simp only [decodeOp, dec7]
  refine two_ok.mpr ⟨rfl, rfl, rfl, y, rfl, hy, 1, ?_⟩
  refine oneOf_ok.mpr ⟨op, XOp.ofCode_eq_some.mpr (by omega), ?_, rfl, ?_, rfl⟩
  · simp only [Bool.and_eq_true, decide_eq_true_eq]; omega
  · rw [show y.toNat % 65536 % 2 = b2n tot by omega, b2n_beq]

theorem roundTrips_xatm {d o c : Nat} {sp : Space} {op : Nat} (h : (Instr.xatm d o c sp op).wf = true) :
    RoundTrips (.xatm d o c sp op) := by
  obtain ⟨h4, hop⟩ := Bool.and_eq_true_iff.mp h
  obtain ⟨h5, hsp⟩ := Bool.and_eq_true_iff.mp h4
  obtain ⟨h3, hs⟩ := Bool.and_eq_true_iff.mp h5
  obtain ⟨hd, ho, hc⟩ := isV3_iff.mp h3
  have := of_decide_eq_true hop
  refine roundTrips_fA_pair rfl (by decide) hd ho (Space.code_lt hs) hc (by omega) ?_
  rintro y n rfl rfl hb hy rfl rfl
  simp only [decodeOp, dec8, Space.ofCode_eq_some.mpr ⟨hb, hs⟩]
  cases sp with
  | ceil => exact absurd rfl (of_decide_eq_true hsp)
  | handle x => exact two_ok.mpr ⟨rfl, rfl, rfl, y, rfl, hy, 1, one_ok.mpr ⟨hop, rfl, rfl, rfl⟩⟩
  | slot => exact two_ok.mpr ⟨rfl, rfl, rfl, y, rfl, hy, 1, one_ok.mpr ⟨hop, rfl, rfl, rfl⟩⟩

theorem roundTrips_xexp {sb e : Nat} {aud : Audience} {xch cmn : Bool} (h : (Instr.xexp sb e aud xch cmn).wf = true) :
    RoundTrips (.xexp sb e aud xch cmn) := by
  obtain ⟨hs, he⟩ := Bool.and_eq_true_iff.mp h
  have := of_decide_eq_true he
  have := aud.code_lt
  have := b2n_lt xch
  have := b2n_lt cmn
  refine roundTrips_fC rfl (by decide) (isBlock_lt hs) (by omega) (by omega) ?_
  rintro _ n rfl rfl hx
  exact oneOf_ok.mpr ⟨aud, Audience.ofCode_eq_some.mpr (by omega), decide_eq_true (by omega), h,
    by rw [show n / 512 % 2 = b2n xch by omega, show n / 256 % 2 = b2n cmn by omega, b2n_beq, b2n_beq], rfl⟩

theorem roundTrips_vamo {d o p x op c : Nat} {sc : Scope} {w : Bool} (h : (Instr.vamo d o p x op c sc w).wf = true) :
    RoundTrips (.vamo d o p x op c sc w) := by
  obtain ⟨h4, hw⟩ := Bool.and_eq_true_iff.mp h
  obtain ⟨h5, hc⟩ := Bool.and_eq_true_iff.mp h4
  obtain ⟨hm, hop⟩ := Bool.and_eq_true_iff.mp h5
  obtain ⟨hd, ho, hp, hx⟩ := isMem_iff.mp hm
  have := of_decide_eq_true hop
  have := sc.code_lt
  have := b2n_lt w
  have hw' : b2n w = 0 ∨ d ≤ 254 ∧ c ≤ 254 := by cases w <;> simp [b2n] at hw ⊢; exact hw
  refine roundTrips_pair rfl (by decide) (by omega) (isV_iff.mp hc) (by omega) ?_
  rintro y n hn hy rfl hext
  simp only [decodeOp, dec9]
  refine two_ok.mpr ⟨rfl, rfl, rfl, y, rfl, hy, 1, oneOf_ok.mpr ⟨sc, Scope.ofCode_eq_some.mpr (by omega), ?_, rfl, ?_, rfl⟩⟩
  · simp only [Bool.and_eq_true, Bool.or_eq_true, decide_eq_true_eq]; omega
  · rw [show y.toNat % 65536 / 128 = b2n w by omega, b2n_beq, show y.toNat % 65536 % 16 = op by omega,
      show n / 65536 % 256 = d by omega, show n / 256 % 256 = o by omega, show n % 256 / 8 = p by omega, show n % 8 = x by omega]

theorem roundTrips_vamoc {d o p x c : Nat} {sc : Scope} {w : Bool} (h : (Instr.vamoc d o p x c sc w).wf = true) :
    RoundTrips (.vamoc d o p x c sc w) := by
  obtain ⟨h4, hw⟩ := Bool.and_eq_true_iff.mp h
  obtain ⟨hm, hc⟩ := Bool.and_eq_true_iff.mp h4
  obtain ⟨hd, ho, hp, hx⟩ := isMem_iff.mp hm
  have := sc.code_lt
  have := b2n_lt w
  have hw' : b2n w = 0 ∨ d ≤ 254 ∧ c ≤ 254 := by cases w <;> simp [b2n] at hw ⊢; exact hw
  refine roundTrips_pair rfl (by decide) (by omega) (isV_iff.mp hc) (by omega) ?_
  rintro y n hn hy rfl hext
  simp only [decodeOp, dec9]
  refine two_ok.mpr ⟨rfl, rfl, rfl, y, rfl, hy, 1, oneOf_ok.mpr ⟨sc, Scope.ofCode_eq_some.mpr (by omega), ?_, rfl, ?_, rfl⟩⟩
  · simp only [Bool.and_eq_true, Bool.or_eq_true, decide_eq_true_eq]; omega
  · rw [show y.toNat % 65536 / 128 = b2n w by omega, b2n_beq,
      show n / 65536 % 256 = d by omega, show n / 256 % 256 = o by omega, show n % 256 / 8 = p by omega, show n % 8 = x by omega]

theorem roundTrips_mwl {bay lat a : Nat} {f : WFmt} (h : (Instr.mwl bay lat a f).wf = true) : RoundTrips (.mwl bay lat a f) := by
  obtain ⟨hbl, ha⟩ := Bool.and_eq_true_iff.mp h
  obtain ⟨hb, hl⟩ := Bool.and_eq_true_iff.mp hbl
  have := of_decide_eq_true hb
  have := of_decide_eq_true hl
  have := isS_iff.mp ha
  have := f.code_lt
  refine roundTrips_fA rfl (by decide) (by omega) (by omega) (by omega) ?_
  rintro _ n hd rfl hf
  obtain rfl : n / 65536 % 256 / 64 = bay := by omega
  obtain rfl : n / 65536 % 256 / 32 % 2 = lat := by omega
  exact oneOf_ok.mpr ⟨f, WFmt.ofCode_eq_some.mpr hf, decide_eq_true (by omega), Bool.and_eq_true_iff.mpr ⟨hb, ha⟩, rfl, rfl⟩

theorem roundTrips_mma {f count lat : Nat} (h : (Instr.mma f count lat).wf = true) : RoundTrips (.mma f count lat) := by
  obtain ⟨h4, hl⟩ := Bool.and_eq_true_iff.mp h
  obtain ⟨h3, hfc⟩ := Bool.and_eq_true_iff.mp h4
  obtain ⟨h2, h64⟩ := Bool.and_eq_true_iff.mp h3
  obtain ⟨hf, h1⟩ := Bool.and_eq_true_iff.mp h2
  have := of_decide_eq_true hl
  have := of_decide_eq_true h64
  have := of_decide_eq_true h1
  refine roundTrips_fA rfl (by decide) (isV_iff.mp hf) (by omega) (by omega) ?_
  rintro _ n rfl rfl rfl
  refine one_ok.mpr ⟨?_, hfc, rfl, rfl⟩
  simp only [Bool.and_eq_true, decide_eq_true_eq]; omega

theorem roundTrips_mdrn {sb bay : Nat} {out : EType} {acc clr cmn : Bool} (h : (Instr.mdrn sb bay out acc clr cmn).wf = true) :
    RoundTrips (.mdrn sb bay out acc clr cmn) := by
  obtain ⟨hs, hb⟩ := Bool.and_eq_true_iff.mp h
  have := of_decide_eq_true hb
  have := out.code_lt
  have := b2n_lt acc
  have := b2n_lt clr
  have := b2n_lt cmn
  refine roundTrips_fC rfl (by decide) (isBlock_lt hs) (by omega) (by omega) ?_
  rintro _ n rfl rfl hx
  exact oneOf_ok.mpr ⟨out, EType.ofCode_eq_some.mpr (by omega), decide_eq_true (by omega), h,
    by rw [show n / 128 % 2 = b2n acc by omega, show n / 64 % 2 = b2n clr by omega, show n / 32 % 2 = b2n cmn by omega,
      b2n_beq, b2n_beq, b2n_beq], rfl⟩

theorem roundTrips (i : Instr) (hwf : i.wf = true) (h : encode i ≠ []) : RoundTrips i := by
  cases i
  case nop | elseFlip | endIf | lbeg | exit | rte | evpub | yield =>
    exact roundTrips_mk rfl (by decide) (by decide) fun _ n _ hn => one_ok.mpr ⟨decide_eq_true hn, rfl, rfl, rfl⟩
  -- formats A and C: three scalar registers; three vector registers; two registers
  case sadd d a b | ssub d a b | smul d a b | smulh d a b | sand d a b | sor d a b | sxor d a b | sshl d a b | sshr d a b | ssra d a b
      | smin d a b | smax d a b | xfree d a b =>
    obtain ⟨hd, ha, hb⟩ := isS3_iff.mp hwf
    exact roundTrips_fA rfl (by decide) (by omega) (by omega) (by omega) (by rintro _ n rfl rfl rfl; exact one_ok.mpr ⟨rfl, hwf, rfl, rfl⟩)
  case vadd d a b | vsub d a b | vmul d a b | vmulh d a b | vmin d a b | vmax d a b | vand d a b | vor d a b | vxor d a b | vshl d a b
      | vshr d a b | vsra d a b | vdot d a b | vdota d a b =>
    obtain ⟨hd, ha, hb⟩ := isV3_iff.mp hwf
    exact roundTrips_fA rfl (by decide) hd ha hb (by rintro _ n rfl rfl rfl; rfl)
  case snot d a | smov d a | spopc d a | sclz d a | gang d a | wmidl d a =>
    obtain ⟨hd, ha⟩ := Bool.and_eq_true_iff.mp hwf
    have := isS_iff.mp hd
    have := isS_iff.mp ha
    exact roundTrips_fA rfl (by decide) (by omega) (by omega) (by decide)
      (by rintro _ n rfl rfl hb; exact one_ok.mpr ⟨decide_eq_true hb, hwf, rfl, rfl⟩)
  case vabs d a | vneg d a | vnot d a | vmov d a | vpopc d a | vclz d a | vrcp d a | vrsq d a | vsqrt d a | vex2 d a | vlg2 d a | vsin d a
      | vcos d a =>
    obtain ⟨hd, ha⟩ := Bool.and_eq_true_iff.mp hwf
    exact roundTrips_fA rfl (by decide) (isV_iff.mp hd) (isV_iff.mp ha) (by decide)
      (by rintro _ n rfl rfl hb; exact one_ok.mpr ⟨decide_eq_true hb, rfl, rfl, rfl⟩)
  case vbcs d a =>
    obtain ⟨hd, ha⟩ := Bool.and_eq_true_iff.mp hwf
    have := isS_iff.mp ha
    exact roundTrips_fA rfl (by decide) (isV_iff.mp hd) (by omega) (by decide)
      (by rintro _ n rfl rfl hb; exact one_ok.mpr ⟨decide_eq_true hb, ha, rfl, rfl⟩)
  case twany d a | tffr d a =>
    obtain ⟨hd, ha⟩ := Bool.and_eq_true_iff.mp hwf
    have := isS_iff.mp hd
    have := isEven_lt ha
    exact roundTrips_fA rfl (by decide) (by omega) (by omega) (by decide)
      (by rintro _ n rfl rfl hb; exact one_ok.mpr ⟨decide_eq_true hb, hwf, rfl, rfl⟩)
  case xalloc d a =>
    obtain ⟨hd, ha⟩ := Bool.and_eq_true_iff.mp hwf
    have := of_decide_eq_true hd
    have := isS_iff.mp ha
    exact roundTrips_fA rfl (by decide) (by omega) (by omega) (by decide)
      (by rintro _ n rfl rfl hb; exact one_ok.mpr ⟨decide_eq_true hb, hwf, rfl, rfl⟩)
  case vmatch d a =>
    obtain ⟨hd, ha⟩ := Bool.and_eq_true_iff.mp hwf
    have := of_decide_eq_true hd
    exact roundTrips_fA rfl (by decide) (by omega) (isV_iff.mp ha) (by decide)
      (by rintro _ n rfl rfl hb; exact one_ok.mpr ⟨decide_eq_true hb, hd, rfl, rfl⟩)
  case ifOpen a c =>
    exact roundTrips_fA rfl (by decide) (by decide) (isV_iff.mp hwf) (Nat.lt_trans c.code_lt (by decide))
      (by rintro _ n hd rfl hb; exact oneOf_ok.mpr ⟨c, Cc.ofCode_eq_some.mpr hb, decide_eq_true hd, rfl, rfl, rfl⟩)
  case vbal d a c =>
    obtain ⟨hd, ha⟩ := Bool.and_eq_true_iff.mp hwf
    have := of_decide_eq_true hd
    exact roundTrips_fA rfl (by decide) (by omega) (isV_iff.mp ha) (Nat.lt_trans c.code_lt (by decide))
      (by rintro _ n rfl rfl hb; exact oneOf_ok.mpr ⟨c, Cc.ofCode_eq_some.mpr hb, rfl, hd, rfl, rfl⟩)
  case vany d a c | vall d a c | vffs d a c =>
    obtain ⟨hd, ha⟩ := Bool.and_eq_true_iff.mp hwf
    have := isS_iff.mp hd
    exact roundTrips_fA rfl (by decide) (by omega) (isV_iff.mp ha) (Nat.lt_trans c.code_lt (by decide))
      (by rintro _ n rfl rfl hb; exact oneOf_ok.mpr ⟨c, Cc.ofCode_eq_some.mpr hb, rfl, hd, rfl, rfl⟩)
  case ifm a inv =>
    have := of_decide_eq_true hwf
    exact roundTrips_fA rfl (by decide) (by decide) (by omega) (Nat.lt_trans (b2n_lt inv) (by decide))
      (by rintro _ n hd rfl hb; exact one_ok.mpr ⟨by simp [hd, hb], hwf, by rw [hb, b2n_beq], rfl⟩)
  case loop k a disp =>
    obtain ⟨hk, ha⟩ := Bool.and_eq_true_iff.mp hwf
    have := of_decide_eq_true hk
    have := isS_iff.mp ha
    have := disp.isLt
    refine roundTrips_mk rfl (by decide) (by omega) fun _ n _ hn => one_ok.mpr ⟨rfl, decide_eq_true (by omega), ?_, rfl⟩
    simp [show n / 65536 % 256 / 64 = k by omega, show n / 65536 % 256 % 64 = a by omega, show n % 65536 = disp.toNat by omega]
  case endl k disp =>
    have := of_decide_eq_true hwf
    have := disp.isLt
    refine roundTrips_mk rfl (by decide) (by omega) fun _ n _ hn => one_ok.mpr ⟨rfl, decide_eq_true (by omega), ?_, rfl⟩
    simp [show n / 65536 % 256 / 64 = k by omega, show n % 4194304 = disp.toNat by omega]
  case brk x | cont x =>
    have := of_decide_eq_true hwf
    exact roundTrips_fI rfl (by decide) (by decide) (by omega)
      (by rintro _ n hd rfl; exact one_ok.mpr ⟨by simpa [hd] using this, rfl, rfl, rfl⟩)
  case lend hint disp | bra hint disp | trmp hint disp | trmpr hint disp =>
    exact roundTrips_fB rfl (by decide) (by rintro _ n rfl rfl; rfl)
  case brc c a disp => exact roundTrips_brc hwf
  case brx p | ret p =>
    have := of_decide_eq_true hwf
    refine roundTrips_mk rfl (by decide) (by omega) fun _ n _ hn => one_ok.mpr ?_
    have hp : n / 65536 % 256 / 8 = p := by omega
    exact ⟨decide_eq_true (by omega), by rw [hp]; exact hwf, by rw [hp], rfl⟩
  case call l disp =>
    have := of_decide_eq_true hwf
    have := disp.isLt
    refine roundTrips_mk rfl (by decide) (by omega) fun _ n _ hn => ?_
    have hl : n / 65536 % 256 / 8 = l := by omega
    exact one_ok.mpr ⟨rfl, by rw [hl]; exact hwf, by simp [hl, show n % 524288 = disp.toNat by omega], rfl⟩
  case callx l p =>
    obtain ⟨hl, hp⟩ := Bool.and_eq_true_iff.mp hwf
    have := of_decide_eq_true hl
    have := of_decide_eq_true hp
    refine roundTrips_mk rfl (by decide) (by omega) fun _ n _ hn => one_ok.mpr ?_
    have hl' : n / 65536 % 256 / 8 = l := by omega
    have hp' : n / 16384 % 32 = p := by omega
    exact ⟨decide_eq_true (by omega), by rw [hl', hp']; exact hwf, by rw [hl', hp'], rfl⟩
  case trap imm | bkpt imm | bara imm =>
    exact roundTrips_fI rfl (by decide) (by decide) imm.isLt
      fun _ n hd hi => one_ok.mpr ⟨decide_eq_true hd, rfl, by simp [hi], rfl⟩
  case ppt x | nap x =>
    exact roundTrips_fI rfl (by decide) (by decide) (of_decide_eq_true hwf)
      (by rintro _ n hd rfl; exact one_ok.mpr ⟨decide_eq_true hd, rfl, rfl, rfl⟩)
  case mode m =>
    refine roundTrips_fI rfl (by decide) (by decide) m.isLt fun _ n hd hi => ?_
    have hm : BitVec.ofNat 16 (n % 65536) = m := by simp [hi]
    exact one_ok.mpr ⟨by rw [hm, hd]; exact hwf, rfl, by rw [hm], rfl⟩
  case modes a =>
    have := isS_iff.mp hwf
    exact roundTrips_fA rfl (by decide) (by decide) (by omega) (by decide)
      (by rintro _ n hd rfl hb; exact one_ok.mpr ⟨by simp [hd, hb], hwf, rfl, rfl⟩)
  case rdsr d sr =>
    obtain ⟨hs, hd⟩ := Bool.and_eq_true_iff.mp hwf
    exact roundTrips_fI rfl (by decide) (SpecReg.destOk_lt hd) (Nat.lt_trans (SpecReg.code_lt hs) (by decide))
      (by rintro _ n rfl hi; exact oneOf_ok.mpr ⟨sr, SpecReg.ofCode_eq_some.mpr ⟨hi, hs⟩, rfl, hd, rfl, rfl⟩)
  case wrsr sr a => exact roundTrips_wrsr hwf
  case nsav d =>
    exact roundTrips_fA rfl (by decide) (isV_iff.mp hwf) (by decide) (by decide)
      (by rintro _ n rfl ha hb; exact one_ok.mpr ⟨decide_eq_true (by omega), rfl, rfl, rfl⟩)
  case nrst a =>
    exact roundTrips_fA rfl (by decide) (by decide) (isV_iff.mp hwf) (by decide)
      (by rintro _ n hd rfl hb; exact one_ok.mpr ⟨by simp [hd, hb], rfl, rfl, rfl⟩)
  case bar d imm | sli d imm | shi d imm | saddi d imm =>
    have := isS_iff.mp hwf
    exact roundTrips_fI rfl (by decide) (by omega) imm.isLt
      (by rintro _ n rfl hi; exact one_ok.mpr ⟨rfl, hwf, by simp [hi], rfl⟩)
  case vli d imm =>
    exact roundTrips_fI rfl (by decide) (isV_iff.mp hwf) imm.isLt
      (by rintro _ n rfl hi; exact one_ok.mpr ⟨rfl, rfl, by simp [hi], rfl⟩)
  case barw d =>
    have := isS_iff.mp hwf
    exact roundTrips_fI rfl (by decide) (by omega) (by decide)
      (by rintro _ n rfl hi; exact one_ok.mpr ⟨decide_eq_true hi, hwf, rfl, rfl⟩)
  case launch sb | ilock sb | iunlk sb =>
    exact roundTrips_fC rfl (by decide) (isBlock_lt hwf) (by decide) (by decide)
      (by rintro _ n rfl hu ho; exact one_ok.mpr ⟨decide_eq_true (by omega), hwf, rfl, rfl⟩)
  case task sb r =>
    obtain ⟨hs, hr⟩ := Bool.and_eq_true_iff.mp hwf
    have := of_decide_eq_true hr
    refine roundTrips_fC rfl (by decide) (isBlock_lt hs) (by decide) (by omega) ?_
    rintro _ n rfl hu ho
    obtain rfl : n % 256 = r := by omega
    exact one_ok.mpr ⟨decide_eq_true (by omega), hwf, rfl, rfl⟩
  case waitf m =>
    have := m.isLt
    exact roundTrips_fI rfl (by decide) (by decide) (by omega)
      fun _ n hd hi => one_ok.mpr ⟨by simp [hd, hi, this], rfl, by simp [hi], rfl⟩
  case adrd d sel =>
    obtain ⟨hd, hs⟩ := Bool.and_eq_true_iff.mp hwf
    have := isS_iff.mp hd
    have := of_decide_eq_true hs
    exact roundTrips_fI rfl (by decide) (by omega) (by omega)
      (by rintro _ n rfl rfl; exact one_ok.mpr ⟨hs, hd, rfl, rfl⟩)
  case admix a tag =>
    obtain ⟨ha, ht⟩ := Bool.and_eq_true_iff.mp hwf
    exact roundTrips_fA rfl (by decide) (by decide) (isV_iff.mp ha) (of_decide_eq_true ht)
      (by rintro _ n hd rfl rfl; exact one_ok.mpr ⟨decide_eq_true hd, rfl, rfl, rfl⟩)
  case scmp d a b c =>
    obtain ⟨hd, ha, hb⟩ := isS3_iff.mp hwf
    have hc := c.code_lt
    refine roundTrips_fA_pair rfl (by decide) (by omega) (by omega) (by omega) (by decide) (by omega) ?_
    rintro y n rfl rfl rfl hy h0 hx
    simp only [decodeOp, dec3]
    refine two_ok.mpr ⟨rfl, hwf, rfl, y, rfl, hy, 1, ?_⟩
    exact oneOf_ok.mpr
      ⟨c, Cond.ofCode_eq_some.mpr (by omega), by simp [h0, hx, hc], rfl, rfl, rfl⟩
  case vcmp d a b c =>
    obtain ⟨hd, ha, hb⟩ := isV3_iff.mp hwf
    have hc := c.code_lt
    refine roundTrips_fA_pair rfl (by decide) hd ha hb (by decide) (by omega) ?_
    rintro y n rfl rfl rfl hy h0 hx
    simp only [decodeOp, dec6]
    refine two_ok.mpr ⟨rfl, rfl, rfl, y, rfl, hy, 1, ?_⟩
    exact oneOf_ok.mpr
      ⟨c, Cond.ofCode_eq_some.mpr (by omega), by simp [h0, hx, hc], rfl, rfl, rfl⟩
  case ssel d a b c =>
    obtain ⟨h3, hc⟩ := Bool.and_eq_true_iff.mp hwf
    obtain ⟨hd, ha, hb⟩ := isS3_iff.mp h3
    have := isS_iff.mp hc
    refine roundTrips_fA_pair rfl (by decide) (by omega) (by omega) (by omega) (by omega) (by decide) ?_
    rintro y n rfl rfl rfl hy rfl hx
    simp only [decodeOp, dec3]
    refine two_ok.mpr ⟨rfl, h3, rfl, y, rfl, hy, 1, ?_⟩
    exact one_ok.mpr ⟨decide_eq_true hx, hc, rfl, rfl⟩
  case vfma d a b c | vsel d a b c =>
    obtain ⟨h3, hc⟩ := Bool.and_eq_true_iff.mp hwf
    obtain ⟨hd, ha, hb⟩ := isV3_iff.mp h3
    refine roundTrips_fA_pair rfl (by decide) hd ha hb (isV_iff.mp hc) (by decide) ?_
    rintro y n rfl rfl rfl hy rfl hx
    simp only [decodeOp, dec5, dec6]
    refine two_ok.mpr ⟨rfl, rfl, rfl, y, rfl, hy, 1, ?_⟩
    exact one_ok.mpr ⟨decide_eq_true hx, rfl, rfl, rfl⟩
  case sbfe d a sx len pos =>
    obtain ⟨hda, hf⟩ := Bool.and_eq_true_iff.mp hwf
    obtain ⟨hd, ha⟩ := Bool.and_eq_true_iff.mp hda
    have := isS_iff.mp hd
    have := isS_iff.mp ha
    have := isField_iff.mp hf
    have := b2n_lt sx
    refine roundTrips_fA_pair rfl (by decide) (by omega) (by omega) (by decide) (by decide) (by omega) ?_
    rintro y n rfl rfl hb hy h0 hx
    simp only [decodeOp, dec4]
    refine two_ok.mpr ⟨decide_eq_true hb, hda, rfl, y, rfl, hy, 1, ?_⟩
    exact field_ok hf h0 hx
  case vbfe d a sx len pos =>
    obtain ⟨hda, hf⟩ := Bool.and_eq_true_iff.mp hwf
    obtain ⟨hd, ha⟩ := Bool.and_eq_true_iff.mp hda
    have := isField_iff.mp hf
    have := b2n_lt sx
    refine roundTrips_fA_pair rfl (by decide) (isV_iff.mp hd) (isV_iff.mp ha) (by decide) (by decide) (by omega) ?_
    rintro y n rfl rfl hb hy h0 hx
    simp only [decodeOp, dec6]
    refine two_ok.mpr ⟨decide_eq_true hb, rfl, rfl, y, rfl, hy, 1, ?_⟩
    exact field_ok hf h0 hx
  case vbfi d a b len pos =>
    obtain ⟨h3, hf⟩ := Bool.and_eq_true_iff.mp hwf
    obtain ⟨hd, ha, hb⟩ := isV3_iff.mp h3
    have := isField_iff.mp hf
    refine roundTrips_fA_pair rfl (by decide) hd ha hb (by decide) (by omega) ?_
    rintro y n rfl rfl rfl hy h0 hx
    obtain ⟨hok, -, hlen, hpos⟩ := fieldOk_parts (sx := false) (ext := y.toNat % 65536) hf (by rw [hx]; simp [b2n])
    simp only [decodeOp, dec6]
    refine two_ok.mpr ⟨rfl, rfl, rfl, y, rfl, hy, 1, ?_⟩
    exact one_ok.mpr ⟨by rw [h0]; exact hok, rfl, by rw [hlen, hpos], rfl⟩
  case vcvt d a t f part => exact roundTrips_vcvt hwf
  case vscl d a b =>
    obtain ⟨hda, hb⟩ := Bool.and_eq_true_iff.mp hwf
    obtain ⟨hd, ha⟩ := Bool.and_eq_true_iff.mp hda
    have := isS_iff.mp hb
    exact roundTrips_fA rfl (by decide) (isV_iff.mp hd) (isV_iff.mp ha) (by omega)
      (by rintro _ n rfl rfl rfl; exact one_ok.mpr ⟨rfl, hb, rfl, rfl⟩)
  case vlid d a b =>
    obtain ⟨hda, hb⟩ := Bool.and_eq_true_iff.mp hwf
    obtain ⟨hd, ha⟩ := Bool.and_eq_true_iff.mp hda
    have := isS_iff.mp ha
    have := isS_iff.mp hb
    exact roundTrips_fA rfl (by decide) (isV_iff.mp hd) (by omega) (by omega)
      (by rintro _ n rfl rfl rfl; exact one_ok.mpr ⟨rfl, Bool.and_eq_true_iff.mpr ⟨ha, hb⟩, rfl, rfl⟩)
  case vshf d a b p k => exact roundTrips_vshf hwf
  case vshop d a b op p k => exact roundTrips_vshop hwf
  case vsegop d a b op tot => exact roundTrips_vsegop hwf
  case xget d o sp | xput d o sp =>
    obtain ⟨hdo, hs⟩ := Bool.and_eq_true_iff.mp hwf
    obtain ⟨hd, ho⟩ := Bool.and_eq_true_iff.mp hdo
    exact roundTrips_fA rfl (by decide) (isV_iff.mp hd) (isV_iff.mp ho) (Space.code_lt hs)
      (by rintro _ n rfl rfl hb; exact oneOf_ok.mpr ⟨sp, Space.ofCode_eq_some.mpr ⟨hb, hs⟩, rfl, rfl, rfl, rfl⟩)
  case xgetw d a sp | xputw d a sp =>
    obtain ⟨hda, hs⟩ := Bool.and_eq_true_iff.mp hwf
    obtain ⟨hd, ha⟩ := Bool.and_eq_true_iff.mp hda
    have := isS_iff.mp ha
    exact roundTrips_fA rfl (by decide) (isV_iff.mp hd) (by omega) (Space.code_lt hs)
      (by rintro _ n rfl rfl hb; exact oneOf_ok.mpr ⟨sp, Space.ofCode_eq_some.mpr ⟨hb, hs⟩, rfl, ha, rfl, rfl⟩)
  case xatm d o c sp op => exact roundTrips_xatm hwf
  case xexp sb e aud xch cmn => exact roundTrips_xexp hwf
  case xrev d e =>
    obtain ⟨hd, he⟩ := Bool.and_eq_true_iff.mp hwf
    have := isS_iff.mp hd
    have := of_decide_eq_true he
    exact roundTrips_fI rfl (by decide) (by omega) (by omega)
      (by rintro _ n rfl rfl; exact one_ok.mpr ⟨he, hd, rfl, rfl⟩)
  case xatt sb x adr =>
    obtain ⟨hs, hx⟩ := Bool.and_eq_true_iff.mp hwf
    have := of_decide_eq_true hx
    have := b2n_lt adr
    refine roundTrips_fC rfl (by decide) (isBlock_lt hs) (by omega) (by omega) ?_
    rintro _ n rfl rfl ho
    exact one_ok.mpr ⟨decide_eq_true (by omega), hwf, by rw [show n / 2048 % 2 = b2n adr by omega, b2n_beq], rfl⟩
  case xdet x =>
    have := of_decide_eq_true hwf
    exact roundTrips_fI rfl (by decide) (by decide) (by omega)
      (by rintro _ n hd rfl; exact one_ok.mpr ⟨by simpa [hd] using this, rfl, rfl, rfl⟩)
  case xprb d own x =>
    obtain ⟨hd, hx⟩ := Bool.and_eq_true_iff.mp hwf
    have := of_decide_eq_true hd
    have := of_decide_eq_true hx
    have := b2n_lt own
    refine roundTrips_fA rfl (by decide) (by omega) (by decide) (by omega) ?_
    rintro _ n rfl ha hb
    refine one_ok.mpr ⟨?_, hd, ?_, rfl⟩
    · simp only [Bool.and_eq_true, decide_eq_true_eq]; omega
    · rw [show n % 256 / 16 = b2n own by omega, b2n_beq, show n % 256 % 16 = x by omega]
  case vldb d o p x | vldh d o p x | vldw d o p x | vstb d o p x | vsth d o p x | vstw d o p x =>
    obtain ⟨hd, ho, hp, hx⟩ := isMem_iff.mp hwf
    exact roundTrips_fM rfl (by decide) hd ho hp hx (by rintro _ n rfl rfl rfl rfl; rfl)
  case vldd d o p x | vstd d o p x =>
    obtain ⟨hm, h254⟩ := Bool.and_eq_true_iff.mp hwf
    obtain ⟨hd, ho, hp, hx⟩ := isMem_iff.mp hm
    exact roundTrips_fM rfl (by decide) hd ho hp hx (by rintro _ n rfl rfl rfl rfl; exact one_ok.mpr ⟨rfl, h254, rfl, rfl⟩)
  case sldw d o p x | sstw d o p x =>
    obtain ⟨hd, ho, hp, hx⟩ := isMemS_iff.mp hwf
    exact roundTrips_fM rfl (by decide) (by omega) (by omega) hp hx
      (by rintro _ n rfl rfl rfl rfl; exact one_ok.mpr ⟨rfl, hwf, rfl, rfl⟩)
  case sldd d o p x | sstd d o p x =>
    obtain ⟨hm, he⟩ := Bool.and_eq_true_iff.mp hwf
    obtain ⟨hd, ho, hp, hx⟩ := isMemS_iff.mp hm
    exact roundTrips_fM rfl (by decide) (by omega) (by omega) hp hx
      (by rintro _ n rfl rfl rfl rfl; exact one_ok.mpr ⟨rfl, hwf, rfl, rfl⟩)
  case vamo d o p x op c sc w => exact roundTrips_vamo hwf
  case vamoc d o p x c sc w => exact roundTrips_vamoc hwf
  case fence pred succ sc =>
    have := sc.code_lt
    refine roundTrips_fA rfl (by decide) pred.isLt succ.isLt (by omega) ?_
    rintro _ n hd ha hb
    exact oneOf_ok.mpr ⟨sc, Scope.ofCode_eq_some.mpr (by omega), decide_eq_true (by omega), rfl, by simp [hd, ha], rfl⟩
  case cpin sb t sp | cpout sb t sp =>
    obtain ⟨hs, ht⟩ := isCmd_iff.mp hwf
    have := sp.code_lt
    refine roundTrips_fC rfl (by decide) (isBlock_lt hs) ht (by omega) ?_
    rintro _ n rfl rfl ho
    exact oneOf_ok.mpr ⟨sp, CpSpace.ofCode_eq_some.mpr (by omega), decide_eq_true (by omega), hwf, rfl, rfl⟩
  case cprr sb t cmn =>
    obtain ⟨hs, ht⟩ := isCmd_iff.mp hwf
    have := b2n_lt cmn
    refine roundTrips_fC rfl (by decide) (isBlock_lt hs) ht (by omega) ?_
    rintro _ n rfl rfl ho
    refine one_ok.mpr ⟨?_, hwf, ?_, rfl⟩
    · simp only [Bool.and_eq_true, decide_eq_true_eq]; omega
    · rw [show n / 1024 % 4 = b2n cmn by omega, b2n_beq]
  case gath sb t ad sz vi | scat sb t ad sz vi =>
    obtain ⟨hsz3, had⟩ := Bool.and_eq_true_iff.mp hwf
    obtain ⟨hsz2, hv⟩ := Bool.and_eq_true_iff.mp hsz3
    obtain ⟨hc, hsz⟩ := Bool.and_eq_true_iff.mp hsz2
    obtain ⟨hs, ht⟩ := isCmd_iff.mp hc
    have := of_decide_eq_true hsz
    have := isV_iff.mp hv
    have := b2n_lt ad
    have hadit : b2n ad = 0 ∨ sz = 2 := by cases ad <;> simp [b2n] at had ⊢; exact had
    refine roundTrips_fC rfl (by decide) (isBlock_lt hs) ht (by omega) ?_
    rintro _ n rfl rfl ho
    refine one_ok.mpr ⟨?_, hc, ?_, rfl⟩
    · simp only [Bool.and_eq_true, Bool.or_eq_true, decide_eq_true_eq]; omega
    · rw [show n / 2048 % 2 = b2n ad by omega, b2n_beq, show n / 256 % 4 = sz by omega, show n % 256 = vi by omega]
  case twall a | tclr a =>
    have := isEven_lt hwf
    exact roundTrips_fA rfl (by decide) (by decide) (by omega) (by decide)
      (by rintro _ n hd rfl hb; exact one_ok.mpr ⟨by simp [hd, hb], hwf, rfl, rfl⟩)
  case tstat d sel =>
    obtain ⟨hd, hs⟩ := Bool.and_eq_true_iff.mp hwf
    have := isEven_lt hd
    have hs' := of_decide_eq_true hs
    exact roundTrips_fA rfl (by decide) (by omega) (by decide) (by omega)
      (by rintro _ n rfl ha rfl; exact one_ok.mpr ⟨by simpa [ha] using hs', hd, rfl, rfl⟩)
  case mwl bay lat a f => exact roundTrips_mwl hwf
  case mma f count lat => exact roundTrips_mma hwf
  case mdrn sb bay out acc clr cmn => exact roundTrips_mdrn hwf
  case mzer bay row count =>
    obtain ⟨h3, hrc⟩ := Bool.and_eq_true_iff.mp hwf
    obtain ⟨h2, hc⟩ := Bool.and_eq_true_iff.mp h3
    obtain ⟨hb, hr⟩ := Bool.and_eq_true_iff.mp h2
    have := of_decide_eq_true hb
    have := of_decide_eq_true hr
    have := of_decide_eq_true hc
    have := of_decide_eq_true hrc
    refine roundTrips_fA rfl (by decide) (by omega) (by omega) (by omega) ?_
    rintro _ n rfl rfl rfl
    refine one_ok.mpr ⟨?_, hb, rfl, rfl⟩
    simp only [Bool.and_eq_true, decide_eq_true_eq]; omega
  case mhint bay x =>
    obtain ⟨hb, hx⟩ := Bool.and_eq_true_iff.mp hwf
    have := of_decide_eq_true hb
    exact roundTrips_fI rfl (by decide) (by omega) (of_decide_eq_true hx)
      (by rintro _ n rfl rfl; exact one_ok.mpr ⟨rfl, hb, rfl, rfl⟩)
  case mstat d bay sel clr =>
    obtain ⟨hdb, hsc⟩ := Bool.and_eq_true_iff.mp hwf
    obtain ⟨hd, hb⟩ := Bool.and_eq_true_iff.mp hdb
    have := isEven_lt hd
    have := of_decide_eq_true hb
    have := b2n_lt sel
    have := b2n_lt clr
    have hsum : b2n sel + b2n clr < 2 := by cases sel <;> cases clr <;> simp_all [b2n]
    refine roundTrips_fA rfl (by decide) (by omega) (by omega) (by omega) ?_
    rintro _ n rfl rfl hx
    exact one_ok.mpr ⟨decide_eq_true (by omega), hdb,
      by rw [show n % 256 / 2 = b2n sel by omega, show n % 256 % 2 = b2n clr by omega, b2n_beq, b2n_beq], rfl⟩
  case pbind g r a =>
    obtain ⟨hgr, ha⟩ := Bool.and_eq_true_iff.mp hwf
    obtain ⟨hg, hr⟩ := Bool.and_eq_true_iff.mp hgr
    have := of_decide_eq_true hg
    have := isS_iff.mp ha
    exact roundTrips_fA rfl (by decide) (isV_iff.mp hr) (by omega) (by omega)
      (by rintro _ n rfl rfl rfl; exact one_ok.mpr ⟨hg, ha, rfl, rfl⟩)
  case pinit g | prsc g | punb g =>
    have hg := of_decide_eq_true hwf
    exact roundTrips_fA rfl (by decide) (by decide) (by decide) (by omega)
      (by rintro _ n hd ha rfl; exact one_ok.mpr ⟨by simpa [hd, ha] using hg, rfl, rfl, rfl⟩)
  case pmul g a b | pdiv g a b =>
    obtain ⟨hga, hb⟩ := Bool.and_eq_true_iff.mp hwf
    obtain ⟨hg, ha⟩ := Bool.and_eq_true_iff.mp hga
    have := of_decide_eq_true hg
    exact roundTrips_fA rfl (by decide) (by omega) (isV_iff.mp ha) (isV_iff.mp hb)
      (by rintro _ n rfl rfl rfl; exact one_ok.mpr ⟨hg, rfl, rfl, rfl⟩)
  case pout d g a =>
    obtain ⟨hdg, ha⟩ := Bool.and_eq_true_iff.mp hwf
    obtain ⟨hd, hg⟩ := Bool.and_eq_true_iff.mp hdg
    have := of_decide_eq_true hg
    have := isS_iff.mp ha
    exact roundTrips_fA rfl (by decide) (isV_iff.mp hd) (by omega) (by omega)
      (by rintro _ n rfl rfl rfl; exact one_ok.mpr ⟨hg, ha, rfl, rfl⟩)
  case pdesc d g =>
    obtain ⟨hd, hg⟩ := Bool.and_eq_true_iff.mp hwf
    have := of_decide_eq_true hd
    have hg' := of_decide_eq_true hg
    exact roundTrips_fA rfl (by decide) (by omega) (by decide) (by omega)
      (by rintro _ n rfl ha rfl; exact one_ok.mpr ⟨by simpa [ha] using hg', hd, rfl, rfl⟩)
  case wemit r a d =>
    obtain ⟨hra, hd⟩ := Bool.and_eq_true_iff.mp hwf
    obtain ⟨hr, ha⟩ := Bool.and_eq_true_iff.mp hra
    have := of_decide_eq_true hr
    have := isS_iff.mp ha
    have := isS_iff.mp hd
    exact roundTrips_fA rfl (by decide) (by omega) (by omega) (by omega)
      (by rintro _ n rfl rfl rfl; exact one_ok.mpr ⟨rfl, hwf, rfl, rfl⟩)
  case wmadv d a p =>
    obtain ⟨hda, hp⟩ := Bool.and_eq_true_iff.mp hwf
    obtain ⟨hd, ha⟩ := Bool.and_eq_true_iff.mp hda
    have := isS_iff.mp hd
    have := isS_iff.mp ha
    have := isEven_lt hp
    exact roundTrips_fA rfl (by decide) (by omega) (by omega) (by omega)
      (by rintro _ n rfl rfl rfl; exact one_ok.mpr ⟨rfl, hwf, rfl, rfl⟩)
  case wmrd d a sel =>
    obtain ⟨hda, hs⟩ := Bool.and_eq_true_iff.mp hwf
    obtain ⟨hd, ha⟩ := Bool.and_eq_true_iff.mp hda
    have := isEven_lt hd
    have := isS_iff.mp ha
    have := of_decide_eq_true hs
    exact roundTrips_fA rfl (by decide) (by omega) (by omega) (by omega)
      (by rintro _ n rfl rfl rfl; exact one_ok.mpr ⟨hs, hda, rfl, rfl⟩)
  case wrel d a bnd =>
    obtain ⟨hda, hb⟩ := Bool.and_eq_true_iff.mp hwf
    obtain ⟨hd, ha⟩ := Bool.and_eq_true_iff.mp hda
    have := isS_iff.mp hd
    have := isS_iff.mp ha
    have := of_decide_eq_true hb
    exact roundTrips_fA rfl (by decide) (by omega) (by omega) (by omega)
      (by rintro _ n rfl rfl rfl; exact one_ok.mpr ⟨hb, hda, rfl, rfl⟩)
  case wrecv r w d bnd wt | wlate r w d bnd wt =>
    obtain ⟨h3, hb⟩ := Bool.and_eq_true_iff.mp hwf
    obtain ⟨hrw, hd⟩ := Bool.and_eq_true_iff.mp h3
    obtain ⟨hr, hw⟩ := Bool.and_eq_true_iff.mp hrw
    have := of_decide_eq_true hr
    have := of_decide_eq_true hw
    have := isS_iff.mp hd
    have := of_decide_eq_true hb
    have := b2n_lt wt
    refine roundTrips_fA_pair rfl (by decide) (by omega) (by omega) (by omega) (by decide) (by omega) ?_
    rintro y n rfl rfl rfl hy h0 hx
    simp only [decodeOp, decC]
    refine two_ok.mpr ⟨rfl, h3, rfl, y, rfl, hy, 1, one_ok.mpr ⟨?_, rfl, ?_, rfl⟩⟩
    · simp only [Bool.and_eq_true, decide_eq_true_eq]; omega
    · rw [show y.toNat % 65536 % 4 = bnd by omega, show y.toNat % 65536 / 4 = b2n wt by omega, b2n_beq]
  case wnext d bnd wt =>
    obtain ⟨hd, hb⟩ := Bool.and_eq_true_iff.mp hwf
    have := isEven_lt hd
    have := of_decide_eq_true hb
    have := b2n_lt wt
    refine roundTrips_fI rfl (by decide) (by omega) (by omega) ?_
    rintro _ n rfl hi
    exact one_ok.mpr ⟨decide_eq_true (by omega), hd,
      by rw [show n % 65536 % 4 = bnd by omega, show n % 65536 / 4 = b2n wt by omega, b2n_beq], rfl⟩
  case wpub r a d bnd | wamd r a d bnd =>
    obtain ⟨h3, hb⟩ := Bool.and_eq_true_iff.mp hwf
    obtain ⟨hra, hd⟩ := Bool.and_eq_true_iff.mp h3
    obtain ⟨hr, ha⟩ := Bool.and_eq_true_iff.mp hra
    have := of_decide_eq_true hr
    have := isS_iff.mp ha
    have := isS_iff.mp hd
    have := of_decide_eq_true hb
    refine roundTrips_fA_pair rfl (by decide) (by omega) (by omega) (by omega) (by decide) (by omega) ?_
    rintro y n rfl rfl rfl hy h0 rfl
    simp only [decodeOp, decC]
    refine two_ok.mpr ⟨rfl, h3, rfl, y, rfl, hy, 1, one_ok.mpr ⟨?_, rfl, rfl, rfl⟩⟩
    simp only [Bool.and_eq_true, decide_eq_true_eq]; omega
  case patch x =>
    have := x.isLt
    refine roundTrips_mk rfl (by decide) (by omega) fun _ n _ hn => one_ok.mpr ⟨decide_eq_true (by omega), rfl, ?_, rfl⟩
    simp [show n % 4194304 = x.toNat by omega]
  -- the steps that have no word
  all_goals exact absurd rfl h

/-! ### What decodes was encoded -/

/-- The words at `w` are those of a well-formed instruction that takes `k` words. -/
def Encodes (w : Word) (next : Option Word) (i : Instr) (k : Nat) : Prop :=
  i.wf = true ∧ (k = 1 ∧ encode i = [w] ∨ k = 2 ∧ ∃ y, next = some y ∧ IsOperand y ∧ encode i = [w, y])

theorem encodes_one {w : Word} {next : Option Word} {i : Instr} {op rest : Nat} (hwf : i.wf = true) (he : encode i = [mk op rest])
    (hop : w.toNat / 16777216 = op) (hr : w.toNat % 16777216 = rest) : Encodes w next i 1 :=
  ⟨hwf, .inl ⟨rfl, by rw [he, mk_eq hop hr]⟩⟩

theorem encodes_two {w y : Word} {i : Instr} {op rest c ext : Nat} (hwf : i.wf = true) (he : encode i = [mk op rest, opw c ext])
    (hy : IsOperand y) (hop : w.toNat / 16777216 = op) (hr : w.toNat % 16777216 = rest) (hx : y.toNat % 16777216 = c * 65536 + ext) :
    Encodes w (some y) i 2 :=
  ⟨hwf, .inr ⟨rfl, y, rfl, hy, by rw [he, mk_eq hop hr, opw, mk_eq hy hx]⟩⟩

theorem and_true_intro {a b : Bool} (ha : a = true) (hb : b = true) : (a && b) = true := Bool.and_eq_true_iff.mpr ⟨ha, hb⟩

theorem isV_mod (n : Nat) : isV (n % 256) = true := decide_eq_true (by omega)
theorem isV3_mod (d a b : Nat) : isV3 (d % 256) (a % 256) (b % 256) = true := isV3_iff.mpr ⟨by omega, by omega, by omega⟩

theorem eq_b2n {n : Nat} (h : n < 2) : n = b2n (n == 1) := by interval_cases n <;> rfl

/-- An operand word's EXT with a field of R138: its field is in range and EXT is made of its parts. -/
theorem fieldOk_ext {sx : Bool} {c ext : Nat} (h : (decide (c = 0) && fieldOk sx ext) = true) :
    isField (ext / 32 % 64) (ext % 32) = true ∧
      c * 65536 + ext = 0 * 65536 + (b2n (ext / 2048 % 2 == 1) * 2048 + ext / 32 % 64 * 32 + ext % 32) := by
  obtain ⟨hc, hok⟩ := Bool.and_eq_true_iff.mp h
  have := of_decide_eq_true hc
  obtain ⟨hx, -, hf⟩ := fieldOk_iff.mp hok
  have := eq_b2n (n := ext / 2048 % 2) (by omega)
  exact ⟨hf, by omega⟩

section
variable {w : Word} {next : Option Word} {lo k : Nat} {i : Instr}

theorem dec0_encodes (hop : w.toNat / 16777216 = 0x00 + lo) (h : dec0 lo w.toNat = .ok (i, k)) : Encodes w next i k := by
  unfold dec0 at h
  dsimp only at h
  split at h
  case h_1 | h_3 | h_4 | h_10 =>
    obtain ⟨h2, -, rfl, rfl⟩ := one_ok.mp h
    exact encodes_one rfl rfl hop (of_decide_eq_true h2)
  case h_2 =>
    obtain ⟨c, hc, h2, -, rfl, rfl⟩ := oneOf_ok.mp h
    have := of_decide_eq_true h2
    have := Cc.ofCode_eq_some.mp hc
    exact encodes_one (isV_mod _) rfl hop (by omega)
  case h_5 =>
    obtain ⟨h2, h3, rfl, rfl⟩ := one_ok.mp h
    simp only [Bool.and_eq_true, decide_eq_true_eq] at h2
    have := eq_b2n h2.2
    exact encodes_one h3 rfl hop (by omega)
  case h_6 =>
    obtain ⟨-, h3, rfl, rfl⟩ := one_ok.mp h
    exact encodes_one (and_true_intro h3 (decide_eq_true (by omega))) rfl hop (by simp only [BitVec.toNat_ofNat]; omega)
  case h_7 =>
    obtain ⟨-, h3, rfl, rfl⟩ := one_ok.mp h
    exact encodes_one h3 rfl hop (by simp only [BitVec.toNat_ofNat]; omega)
  case h_8 | h_9 =>
    obtain ⟨h2, -, rfl, rfl⟩ := one_ok.mp h
    obtain ⟨hd, hi⟩ := Bool.and_eq_true_iff.mp h2
    have := of_decide_eq_true hd
    exact encodes_one hi rfl hop (by omega)
  case h_11 | h_12 =>
    obtain ⟨-, -, rfl, rfl⟩ := one_ok.mp h
    exact encodes_one rfl rfl hop (by simp only [BitVec.toNat_ofNat]; omega)
  case h_13 =>
    obtain ⟨c, hc, h2, -, rfl, rfl⟩ := oneOf_ok.mp h
    have hc := BrCond.ofCode_eq_some.mp hc
    simp only [Bool.or_eq_true, decide_eq_true_eq] at h2
    refine encodes_one ?_ rfl hop (by simp only [BitVec.toNat_ofNat]; omega)
    cases c <;> simp [BrCond.code] at hc <;> simp [Instr.wf, isS] <;> omega
  case h_14 =>
    obtain ⟨h2, h3, rfl, rfl⟩ := one_ok.mp h
    have := of_decide_eq_true h2
    exact encodes_one h3 rfl hop (by omega)
  case h_15 =>
    obtain ⟨-, h3, rfl, rfl⟩ := one_ok.mp h
    exact encodes_one h3 rfl hop (by simp only [BitVec.toNat_ofNat]; omega)
  case h_16 => cases h

theorem dec1_encodes (hop : w.toNat / 16777216 = 0x10 + lo) (h : dec1 lo w.toNat = .ok (i, k)) : Encodes w next i k := by
  unfold dec1 at h
  dsimp only at h
  split at h
  case h_1 | h_2 =>
    obtain ⟨h2, h3, rfl, rfl⟩ := one_ok.mp h
    have := of_decide_eq_true h2
    exact encodes_one h3 rfl hop (by omega)
  case h_3 | h_5 =>
    obtain ⟨h2, -, rfl, rfl⟩ := one_ok.mp h
    exact encodes_one rfl rfl hop (of_decide_eq_true h2)
  case h_4 | h_6 | h_15 =>
    obtain ⟨h2, -, rfl, rfl⟩ := one_ok.mp h
    have := of_decide_eq_true h2
    exact encodes_one rfl rfl hop (by simp only [BitVec.toNat_ofNat]; omega)
  case h_7 =>
    obtain ⟨h2, -, rfl, rfl⟩ := one_ok.mp h
    have := of_decide_eq_true h2
    exact encodes_one (decide_eq_true (by omega)) rfl hop (by omega)
  case h_8 =>
    obtain ⟨h2, -, rfl, rfl⟩ := one_ok.mp h
    obtain ⟨hd, hm⟩ := Bool.and_eq_true_iff.mp h2
    have := of_decide_eq_true hd
    exact encodes_one hm rfl hop (by simp only [BitVec.toNat_ofNat]; omega)
  case h_9 =>
    obtain ⟨h2, h3, rfl, rfl⟩ := one_ok.mp h
    simp only [Bool.and_eq_true, decide_eq_true_eq] at h2
    exact encodes_one h3 rfl hop (by omega)
  case h_10 =>
    obtain ⟨r, hr, -, h3, rfl, rfl⟩ := oneOf_ok.mp h
    obtain ⟨hc, hs⟩ := SpecReg.ofCode_eq_some.mp hr
    exact encodes_one (and_true_intro hs h3) rfl hop (by omega)
  case h_11 =>
    split at h
    · cases h
    · next r hr =>
      obtain ⟨h2, h3, rfl, rfl⟩ := one_ok.mp h
      obtain ⟨hc, -⟩ := SpecReg.ofCode_eq_some.mp hr
      exact encodes_one (and_true_intro h2 h3) rfl hop (by omega)
  case h_12 =>
    obtain ⟨h2, -, rfl, rfl⟩ := one_ok.mp h
    have := of_decide_eq_true h2
    exact encodes_one (isV_mod _) rfl hop (by omega)
  case h_13 =>
    obtain ⟨h2, -, rfl, rfl⟩ := one_ok.mp h
    simp only [Bool.and_eq_true, decide_eq_true_eq] at h2
    exact encodes_one (isV_mod _) rfl hop (by omega)
  case h_14 =>
    obtain ⟨-, h3, rfl, rfl⟩ := one_ok.mp h
    exact encodes_one h3 rfl hop (by simp only [BitVec.toNat_ofNat]; omega)
  case h_16 =>
    obtain ⟨h2, h3, rfl, rfl⟩ := one_ok.mp h
    have := of_decide_eq_true h2
    exact encodes_one h3 rfl hop (by omega)
  case h_17 => cases h

theorem dec2_encodes (hop : w.toNat / 16777216 = 0x20 + lo) (h : dec2 lo w.toNat = .ok (i, k)) : Encodes w next i k := by
  unfold dec2 at h
  dsimp only at h
  split at h
  case h_1 | h_4 =>
    obtain ⟨h2, -, rfl, rfl⟩ := one_ok.mp h
    exact encodes_one rfl rfl hop (of_decide_eq_true h2)
  case h_2 | h_3 | h_6 | h_7 =>
    obtain ⟨h2, h3, rfl, rfl⟩ := one_ok.mp h
    have := of_decide_eq_true h2
    exact encodes_one h3 rfl hop (by omega)
  case h_5 =>
    obtain ⟨h2, -, rfl, rfl⟩ := one_ok.mp h
    have := of_decide_eq_true h2
    exact encodes_one (decide_eq_true (by omega)) rfl hop (by omega)
  case h_8 =>
    obtain ⟨h2, -, rfl, rfl⟩ := one_ok.mp h
    simp only [Bool.and_eq_true, decide_eq_true_eq] at h2
    exact encodes_one rfl rfl hop (by simp only [BitVec.toNat_ofNat]; omega)
  case h_9 =>
    obtain ⟨h2, h3, rfl, rfl⟩ := one_ok.mp h
    exact encodes_one (and_true_intro h3 h2) rfl hop (by omega)
  case h_10 =>
    obtain ⟨h2, -, rfl, rfl⟩ := one_ok.mp h
    have := of_decide_eq_true h2
    exact encodes_one (and_true_intro (isV_mod _) (decide_eq_true (by omega))) rfl hop (by omega)
  case h_11 => cases h

theorem dec3_encodes (hop : w.toNat / 16777216 = 0x30 + lo) (h : dec3 next lo w.toNat = .ok (i, k)) : Encodes w next i k := by
  unfold dec3 at h
  dsimp only at h
  split at h
  case h_8 | h_16 =>
    obtain ⟨h2, h3, rfl, rfl⟩ := one_ok.mp h
    have := of_decide_eq_true h2
    exact encodes_one h3 rfl hop (by omega)
  case h_14 =>
    obtain ⟨-, h3, rfl, y, rfl, hy, m, hm⟩ := two_ok.mp h
    obtain ⟨c, hc, h2, -, rfl, rfl⟩ := oneOf_ok.mp hm
    have := Cond.ofCode_eq_some.mp hc
    simp only [Bool.and_eq_true, decide_eq_true_eq] at h2
    exact encodes_two h3 rfl hy hop (by omega) (by omega)
  case h_15 =>
    obtain ⟨-, h3, rfl, y, rfl, hy, m, hm⟩ := two_ok.mp h
    obtain ⟨h2, hc, rfl, rfl⟩ := one_ok.mp hm
    have := of_decide_eq_true h2
    exact encodes_two (and_true_intro h3 hc) rfl hy hop (by omega) (by omega)
  case h_17 => cases h
  all_goals
    obtain ⟨-, h3, rfl, rfl⟩ := one_ok.mp h
    exact encodes_one h3 rfl hop (by omega)

theorem dec4_encodes (hop : w.toNat / 16777216 = 0x40 + lo) (h : dec4 next lo w.toNat = .ok (i, k)) : Encodes w next i k := by
  unfold dec4 at h
  dsimp only at h
  split at h
  case h_1 | h_2 | h_3 =>
    obtain ⟨-, h3, rfl, rfl⟩ := one_ok.mp h
    exact encodes_one h3 rfl hop (by simp only [BitVec.toNat_ofNat]; omega)
  case h_4 =>
    obtain ⟨hb, h3, rfl, y, rfl, hy, m, hm⟩ := two_ok.mp h
    obtain ⟨h2, -, rfl, rfl⟩ := one_ok.mp hm
    have := of_decide_eq_true hb
    obtain ⟨hf, hx⟩ := fieldOk_ext h2
    exact encodes_two (and_true_intro h3 hf) rfl hy hop (by omega) (by omega)
  case h_5 | h_6 =>
    obtain ⟨h2, h3, rfl, rfl⟩ := one_ok.mp h
    have := of_decide_eq_true h2
    exact encodes_one h3 rfl hop (by omega)
  case h_7 => cases h

theorem dec5_encodes (hop : w.toNat / 16777216 = 0x50 + lo) (h : dec5 next lo w.toNat = .ok (i, k)) : Encodes w next i k := by
  unfold dec5 at h
  dsimp only at h
  split at h
  case h_5 =>
    obtain ⟨-, -, rfl, y, rfl, hy, m, hm⟩ := two_ok.mp h
    obtain ⟨h2, -, rfl, rfl⟩ := one_ok.mp hm
    have := of_decide_eq_true h2
    exact encodes_two (and_true_intro (isV3_mod _ _ _) (isV_mod _)) rfl hy hop (by omega) (by omega)
  case h_8 | h_9 | h_13 =>
    obtain ⟨h2, -, rfl, rfl⟩ := one_ok.mp h
    have := of_decide_eq_true h2
    exact encodes_one (and_true_intro (isV_mod _) (isV_mod _)) rfl hop (by omega)
  case h_17 => cases h
  all_goals
    obtain ⟨-, -, rfl, rfl⟩ := one_ok.mp h
    exact encodes_one (isV3_mod _ _ _) rfl hop (by omega)

theorem dec6_encodes (hop : w.toNat / 16777216 = 0x60 + lo) (h : dec6 next lo w.toNat = .ok (i, k)) : Encodes w next i k := by
  unfold dec6 at h
  dsimp only at h
  split at h
  case h_1 =>
    obtain ⟨-, -, rfl, y, rfl, hy, m, hm⟩ := two_ok.mp h
    obtain ⟨c, hc, h2, -, rfl, rfl⟩ := oneOf_ok.mp hm
    have := Cond.ofCode_eq_some.mp hc
    simp only [Bool.and_eq_true, decide_eq_true_eq] at h2
    exact encodes_two (isV3_mod _ _ _) rfl hy hop (by omega) (by omega)
  case h_2 =>
    obtain ⟨-, -, rfl, y, rfl, hy, m, hm⟩ := two_ok.mp h
    obtain ⟨h2, -, rfl, rfl⟩ := one_ok.mp hm
    have := of_decide_eq_true h2
    exact encodes_two (and_true_intro (isV3_mod _ _ _) (isV_mod _)) rfl hy hop (by omega) (by omega)
  case h_4 =>
    obtain ⟨-, -, rfl, rfl⟩ := one_ok.mp h
    exact encodes_one (isV_mod _) rfl hop (by simp only [BitVec.toNat_ofNat]; omega)
  case h_5 =>
    obtain ⟨h2, h3, rfl, rfl⟩ := one_ok.mp h
    have := of_decide_eq_true h2
    exact encodes_one (and_true_intro (isV_mod _) h3) rfl hop (by omega)
  case h_6 =>
    split at h
    · next t f ht hf =>
      obtain ⟨-, -, rfl, y, rfl, hy, m, hm⟩ := two_ok.mp h
      obtain ⟨h2, -, rfl, rfl⟩ := one_ok.mp hm
      have := EType.ofCode_eq_some.mp ht
      have := EType.ofCode_eq_some.mp hf
      obtain ⟨h2, hp⟩ := Bool.and_eq_true_iff.mp h2
      simp only [Bool.and_eq_true, decide_eq_true_eq] at h2
      exact encodes_two (and_true_intro (and_true_intro (isV_mod _) (isV_mod _)) hp) rfl hy hop (by omega) (by omega)
    · cases h
  case h_7 =>
    obtain ⟨-, h3, rfl, rfl⟩ := one_ok.mp h
    exact encodes_one (and_true_intro (and_true_intro (isV_mod _) (isV_mod _)) h3) rfl hop (by omega)
  case h_8 =>
    obtain ⟨hb, -, rfl, y, rfl, hy, m, hm⟩ := two_ok.mp h
    obtain ⟨h2, -, rfl, rfl⟩ := one_ok.mp hm
    have := of_decide_eq_true hb
    obtain ⟨hf, hx⟩ := fieldOk_ext h2
    exact encodes_two (and_true_intro (and_true_intro (isV_mod _) (isV_mod _)) hf) rfl hy hop (by omega) (by omega)
  case h_9 =>
    obtain ⟨-, -, rfl, y, rfl, hy, m, hm⟩ := two_ok.mp h
    obtain ⟨h2, -, rfl, rfl⟩ := one_ok.mp hm
    obtain ⟨hc, hok⟩ := Bool.and_eq_true_iff.mp h2
    have := of_decide_eq_true hc
    obtain ⟨hx, hs, hf⟩ := fieldOk_iff.mp hok
    have := hs rfl
    exact encodes_two (and_true_intro (isV3_mod _ _ _) hf) rfl hy hop (by omega) (by omega)
  case h_12 | h_13 =>
    obtain ⟨-, -, rfl, rfl⟩ := one_ok.mp h
    exact encodes_one (isV3_mod _ _ _) rfl hop (by omega)
  case h_17 => cases h
  all_goals
    obtain ⟨h2, -, rfl, rfl⟩ := one_ok.mp h
    have := of_decide_eq_true h2
    exact encodes_one (and_true_intro (isV_mod _) (isV_mod _)) rfl hop (by omega)

theorem dec7_encodes (hop : w.toNat / 16777216 = 0x70 + lo) (h : dec7 next lo w.toNat = .ok (i, k)) : Encodes w next i k := by
  unfold dec7 at h
  dsimp only at h
  split at h
  case h_1 | h_2 | h_3 | h_4 =>
    obtain ⟨h2, -, rfl, rfl⟩ := one_ok.mp h
    have := of_decide_eq_true h2
    exact encodes_one (and_true_intro (isV_mod _) (isV_mod _)) rfl hop (by omega)
  case h_5 =>
    obtain ⟨-, h3, rfl, rfl⟩ := one_ok.mp h
    obtain ⟨ha, hb⟩ := Bool.and_eq_true_iff.mp h3
    exact encodes_one (and_true_intro (and_true_intro (isV_mod _) ha) hb) rfl hop (by omega)
  case h_6 =>
    obtain ⟨-, -, rfl, y, rfl, hy, m, hm⟩ := two_ok.mp h
    split at hm
    · next hr =>
      obtain ⟨p, hp, h2, -, hi, -⟩ := oneOf_ok.mp hr
      cases hi
      have := Pat.ofCode_eq_some.mp hp
      simp only [Bool.and_eq_true, decide_eq_true_eq] at h2
      split at hm
      · next he =>
        cases hm
        exact encodes_two (and_true_intro (and_true_intro (isV_mod _) (isV_mod _)) he) rfl hy hop (by omega) (by omega)
      · cases hm
    · next hno =>
      obtain ⟨p, -, -, -, hi, -⟩ := oneOf_ok.mp hm
      exact absurd (hi ▸ hm) (hno _ _ _ _ _ _)
  case h_7 =>
    obtain ⟨-, -, rfl, y, rfl, hy, m, hm⟩ := two_ok.mp h
    split at hm
    · next p op hp ho =>
      obtain ⟨h2, -, rfl, rfl⟩ := one_ok.mp hm
      have := Pat.ofCode_eq_some.mp hp
      have := XOp.ofCode_eq_some.mp ho
      obtain ⟨h2, he⟩ := Bool.and_eq_true_iff.mp h2
      simp only [Bool.and_eq_true, decide_eq_true_eq] at h2
      exact encodes_two (and_true_intro (and_true_intro (isV_mod _) (isV_mod _)) he) rfl hy hop (by omega) (by omega)
    · cases hm
  case h_8 =>
    obtain ⟨-, -, rfl, y, rfl, hy, m, hm⟩ := two_ok.mp h
    obtain ⟨op, ho, h2, -, rfl, rfl⟩ := oneOf_ok.mp hm
    have := XOp.ofCode_eq_some.mp ho
    simp only [Bool.and_eq_true, decide_eq_true_eq] at h2
    have := eq_b2n (n := y.toNat % 65536 % 2) (by omega)
    exact encodes_two (isV3_mod _ _ _) rfl hy hop (by omega) (by omega)
  case h_9 | h_10 | h_11 | h_13 =>
    obtain ⟨c, hc, -, h3, rfl, rfl⟩ := oneOf_ok.mp h
    have := Cc.ofCode_eq_some.mp hc
    exact encodes_one (and_true_intro h3 (isV_mod _)) rfl hop (by omega)
  case h_12 =>
    obtain ⟨h2, h3, rfl, rfl⟩ := one_ok.mp h
    have := of_decide_eq_true h2
    exact encodes_one (and_true_intro h3 (isV_mod _)) rfl hop (by omega)
  case h_14 => cases h

theorem dec8_encodes (hop : w.toNat / 16777216 = 0x80 + lo) (h : dec8 next lo w.toNat = .ok (i, k)) : Encodes w next i k := by
  unfold dec8 at h
  dsimp only at h
  split at h
  case h_1 | h_2 =>
    obtain ⟨sp, hs, -, -, rfl, rfl⟩ := oneOf_ok.mp h
    obtain ⟨hb, hs⟩ := Space.ofCode_eq_some.mp hs
    exact encodes_one (and_true_intro (and_true_intro (isV_mod _) (isV_mod _)) hs) rfl hop (by omega)
  case h_3 | h_4 =>
    obtain ⟨sp, hs, -, h3, rfl, rfl⟩ := oneOf_ok.mp h
    obtain ⟨hb, hs⟩ := Space.ofCode_eq_some.mp hs
    exact encodes_one (and_true_intro (and_true_intro (isV_mod _) h3) hs) rfl hop (by omega)
  case h_5 =>
    split at h
    · cases h
    · cases h
    · next sp hceil hs =>
      obtain ⟨-, -, rfl, y, rfl, hy, m, hm⟩ := two_ok.mp h
      obtain ⟨h2, -, rfl, rfl⟩ := one_ok.mp hm
      obtain ⟨hb, hwf⟩ := Space.ofCode_eq_some.mp hs
      exact encodes_two (and_true_intro (and_true_intro (and_true_intro (isV3_mod _ _ _) hwf) (decide_eq_true hceil)) h2) rfl hy hop
        (by omega) (by omega)
  case h_6 =>
    obtain ⟨u, hu, h2, h3, rfl, rfl⟩ := oneOf_ok.mp h
    have := Audience.ofCode_eq_some.mp hu
    have := of_decide_eq_true h2
    have := eq_b2n (n := w.toNat / 512 % 2) (by omega)
    have := eq_b2n (n := w.toNat / 256 % 2) (by omega)
    exact encodes_one h3 rfl hop (by omega)
  case h_7 =>
    obtain ⟨h2, h3, rfl, rfl⟩ := one_ok.mp h
    exact encodes_one (and_true_intro h3 h2) rfl hop (by omega)
  case h_8 =>
    obtain ⟨h2, h3, rfl, rfl⟩ := one_ok.mp h
    have := of_decide_eq_true h2
    have := eq_b2n (n := w.toNat / 2048 % 2) (by omega)
    exact encodes_one h3 rfl hop (by omega)
  case h_9 =>
    obtain ⟨h2, -, rfl, rfl⟩ := one_ok.mp h
    obtain ⟨hd, hi⟩ := Bool.and_eq_true_iff.mp h2
    have := of_decide_eq_true hd
    exact encodes_one hi rfl hop (by omega)
  case h_10 =>
    obtain ⟨h2, h3, rfl, rfl⟩ := one_ok.mp h
    have := of_decide_eq_true h2
    exact encodes_one h3 rfl hop (by omega)
  case h_11 =>
    obtain ⟨-, h3, rfl, rfl⟩ := one_ok.mp h
    exact encodes_one h3 rfl hop (by omega)
  case h_12 =>
    obtain ⟨h2, h3, rfl, rfl⟩ := one_ok.mp h
    simp only [Bool.and_eq_true, decide_eq_true_eq] at h2
    have := eq_b2n (n := w.toNat % 256 / 16) (by omega)
    exact encodes_one (and_true_intro h3 (decide_eq_true (by omega))) rfl hop (by omega)
  case h_13 => cases h

theorem isMem_fields (n : Nat) : isMem (n / 65536 % 256) (n / 256 % 256) (n % 256 / 8) (n % 8) = true :=
  isMem_iff.mpr ⟨by omega, by omega, by omega, by omega⟩

/-- A 64-bit atomic's registers are pairs (R172). -/
theorem wide_ok {n d c : Nat} (h : n < 2) (hw : n = 0 ∨ d ≤ 254 ∧ c ≤ 254) : (!(n == 1) || (decide (d ≤ 254) && decide (c ≤ 254))) = true := by
  interval_cases n <;> simp at hw ⊢
  exact hw

theorem dec9_encodes (hop : w.toNat / 16777216 = 0x90 + lo) (h : dec9 next lo w.toNat = .ok (i, k)) : Encodes w next i k := by
  unfold dec9 at h
  dsimp only at h
  split at h
  case h_4 | h_8 =>
    obtain ⟨-, h3, rfl, rfl⟩ := one_ok.mp h
    exact encodes_one (and_true_intro (isMem_fields _) h3) rfl hop (by omega)
  case h_9 | h_10 | h_11 | h_12 =>
    obtain ⟨-, h3, rfl, rfl⟩ := one_ok.mp h
    exact encodes_one h3 rfl hop (by omega)
  case h_13 =>
    obtain ⟨-, -, rfl, y, rfl, hy, m, hm⟩ := two_ok.mp h
    obtain ⟨sc, hs, h2, -, rfl, rfl⟩ := oneOf_ok.mp hm
    have := Scope.ofCode_eq_some.mp hs
    simp only [Bool.and_eq_true, Bool.or_eq_true, decide_eq_true_eq] at h2
    obtain ⟨⟨hx, h8⟩, hw⟩ := h2
    have := eq_b2n (n := y.toNat % 65536 / 128) (by omega)
    exact encodes_two (and_true_intro (and_true_intro (and_true_intro (isMem_fields _) (decide_eq_true h8)) (isV_mod _))
      (wide_ok (by omega) hw)) rfl hy hop (by omega) (by omega)
  case h_14 =>
    obtain ⟨-, -, rfl, y, rfl, hy, m, hm⟩ := two_ok.mp h
    obtain ⟨sc, hs, h2, -, rfl, rfl⟩ := oneOf_ok.mp hm
    have := Scope.ofCode_eq_some.mp hs
    simp only [Bool.and_eq_true, Bool.or_eq_true, decide_eq_true_eq] at h2
    obtain ⟨⟨hx, h8⟩, hw⟩ := h2
    have := eq_b2n (n := y.toNat % 65536 / 128) (by omega)
    exact encodes_two (and_true_intro (and_true_intro (isMem_fields _) (isV_mod _)) (wide_ok (by omega) hw)) rfl hy hop
      (by omega) (by omega)
  case h_15 =>
    obtain ⟨sc, hs, h2, -, rfl, rfl⟩ := oneOf_ok.mp h
    have := Scope.ofCode_eq_some.mp hs
    have := of_decide_eq_true h2
    exact encodes_one rfl rfl hop (by simp only [BitVec.toNat_ofNat]; omega)
  case h_16 => cases h
  all_goals
    obtain ⟨-, -, rfl, rfl⟩ := one_ok.mp h
    exact encodes_one (isMem_fields _) rfl hop (by omega)

/-- A gather through an adit moves words (R180). -/
theorem adit_ok {n sz : Nat} (h : n < 2) (ha : n = 0 ∨ sz = 2) : (!(n == 1) || decide (sz = 2)) = true := by
  interval_cases n <;> simp at ha ⊢
  exact ha

theorem decA_encodes (hop : w.toNat / 16777216 = 0xA0 + lo) (h : decA lo w.toNat = .ok (i, k)) : Encodes w next i k := by
  unfold decA at h
  dsimp only at h
  split at h
  case h_1 | h_2 =>
    obtain ⟨sp, hs, h2, h3, rfl, rfl⟩ := oneOf_ok.mp h
    have := CpSpace.ofCode_eq_some.mp hs
    have := of_decide_eq_true h2
    exact encodes_one h3 rfl hop (by omega)
  case h_3 =>
    obtain ⟨h2, h3, rfl, rfl⟩ := one_ok.mp h
    simp only [Bool.and_eq_true, decide_eq_true_eq] at h2
    have := eq_b2n (n := w.toNat / 1024 % 4) (by omega)
    exact encodes_one h3 rfl hop (by omega)
  case h_4 | h_5 =>
    obtain ⟨h2, h3, rfl, rfl⟩ := one_ok.mp h
    simp only [Bool.and_eq_true, Bool.or_eq_true, decide_eq_true_eq] at h2
    have := eq_b2n (n := w.toNat / 2048 % 2) (by omega)
    exact encodes_one (and_true_intro (and_true_intro (and_true_intro h3 (decide_eq_true (by omega))) (isV_mod _))
      (adit_ok (by omega) h2.2)) rfl hop (by omega)
  case h_6 | h_9 =>
    obtain ⟨h2, h3, rfl, rfl⟩ := one_ok.mp h
    simp only [Bool.and_eq_true, decide_eq_true_eq] at h2
    exact encodes_one h3 rfl hop (by omega)
  case h_7 | h_8 =>
    obtain ⟨h2, h3, rfl, rfl⟩ := one_ok.mp h
    have := of_decide_eq_true h2
    exact encodes_one h3 rfl hop (by omega)
  case h_10 =>
    obtain ⟨h2, h3, rfl, rfl⟩ := one_ok.mp h
    obtain ⟨ha, hb⟩ := Bool.and_eq_true_iff.mp h2
    have := of_decide_eq_true ha
    exact encodes_one (and_true_intro h3 hb) rfl hop (by omega)
  case h_11 => cases h

theorem decB_encodes (hop : w.toNat / 16777216 = 0xB0 + lo) (h : decB lo w.toNat = .ok (i, k)) : Encodes w next i k := by
  unfold decB at h
  dsimp only at h
  split at h
  case h_1 =>
    obtain ⟨h2, h3, rfl, rfl⟩ := one_ok.mp h
    have := of_decide_eq_true h2
    exact encodes_one h3 rfl hop (by omega)
  case h_2 =>
    obtain ⟨f, hf, h2, h3, rfl, rfl⟩ := oneOf_ok.mp h
    have := WFmt.ofCode_eq_some.mp hf
    have := of_decide_eq_true h2
    obtain ⟨hb, ha⟩ := Bool.and_eq_true_iff.mp h3
    exact encodes_one (and_true_intro (and_true_intro hb (decide_eq_true (by omega))) ha) rfl hop (by omega)
  case h_3 =>
    obtain ⟨h2, h3, rfl, rfl⟩ := one_ok.mp h
    simp only [Bool.and_eq_true] at h2
    obtain ⟨⟨hl, h1⟩, h64⟩ := h2
    exact encodes_one (and_true_intro (and_true_intro (and_true_intro (and_true_intro (isV_mod _) h1) h64) h3) hl) rfl hop (by omega)
  case h_4 =>
    obtain ⟨t, ht, h2, h3, rfl, rfl⟩ := oneOf_ok.mp h
    have := EType.ofCode_eq_some.mp ht
    have := of_decide_eq_true h2
    have := eq_b2n (n := w.toNat / 128 % 2) (by omega)
    have := eq_b2n (n := w.toNat / 64 % 2) (by omega)
    have := eq_b2n (n := w.toNat / 32 % 2) (by omega)
    exact encodes_one h3 rfl hop (by omega)
  case h_5 =>
    obtain ⟨h2, h3, rfl, rfl⟩ := one_ok.mp h
    simp only [Bool.and_eq_true] at h2
    obtain ⟨⟨hr, h1⟩, hsum⟩ := h2
    exact encodes_one (and_true_intro (and_true_intro (and_true_intro h3 hr) h1) hsum) rfl hop (by omega)
  case h_6 =>
    obtain ⟨-, h3, rfl, rfl⟩ := one_ok.mp h
    exact encodes_one (and_true_intro h3 (decide_eq_true (by omega))) rfl hop (by omega)
  case h_7 =>
    obtain ⟨h2, h3, rfl, rfl⟩ := one_ok.mp h
    have := of_decide_eq_true h2
    have := eq_b2n (n := w.toNat % 256 / 2) (by omega)
    have := eq_b2n (n := w.toNat % 256 % 2) (by omega)
    have hsc : (!((w.toNat % 256 / 2 == 1) && (w.toNat % 256 % 2 == 1))) = true := by
      simp only [Bool.not_eq_true', Bool.and_eq_false_iff, beq_eq_false_iff_ne]; omega
    exact encodes_one (and_true_intro h3 hsc) rfl hop (by omega)
  case h_8 =>
    obtain ⟨h2, h3, rfl, rfl⟩ := one_ok.mp h
    exact encodes_one (and_true_intro (and_true_intro h2 (isV_mod _)) h3) rfl hop (by omega)
  case h_9 | h_12 | h_15 =>
    obtain ⟨h2, -, rfl, rfl⟩ := one_ok.mp h
    obtain ⟨hda, hg⟩ := Bool.and_eq_true_iff.mp h2
    simp only [Bool.and_eq_true, decide_eq_true_eq] at hda
    exact encodes_one hg rfl hop (by omega)
  case h_10 | h_11 =>
    obtain ⟨h2, -, rfl, rfl⟩ := one_ok.mp h
    exact encodes_one (and_true_intro (and_true_intro h2 (isV_mod _)) (isV_mod _)) rfl hop (by omega)
  case h_13 =>
    obtain ⟨h2, h3, rfl, rfl⟩ := one_ok.mp h
    exact encodes_one (and_true_intro (and_true_intro (isV_mod _) h2) h3) rfl hop (by omega)
  case h_14 =>
    obtain ⟨h2, h3, rfl, rfl⟩ := one_ok.mp h
    obtain ⟨ha, hg⟩ := Bool.and_eq_true_iff.mp h2
    have := of_decide_eq_true ha
    exact encodes_one (and_true_intro h3 hg) rfl hop (by omega)
  case h_16 => cases h

theorem decC_encodes (hop : w.toNat / 16777216 = 0xC0 + lo) (h : decC next lo w.toNat = .ok (i, k)) : Encodes w next i k := by
  unfold decC at h
  dsimp only at h
  split at h
  case h_1 | h_2 =>
    obtain ⟨-, h3, rfl, rfl⟩ := one_ok.mp h
    exact encodes_one h3 rfl hop (by omega)
  case h_3 =>
    obtain ⟨h2, h3, rfl, rfl⟩ := one_ok.mp h
    have := of_decide_eq_true h2
    exact encodes_one h3 rfl hop (by omega)
  case h_4 | h_10 =>
    obtain ⟨h2, h3, rfl, rfl⟩ := one_ok.mp h
    exact encodes_one (and_true_intro h3 h2) rfl hop (by omega)
  case h_5 | h_6 =>
    obtain ⟨-, h3, rfl, y, rfl, hy, m, hm⟩ := two_ok.mp h
    obtain ⟨h2, -, rfl, rfl⟩ := one_ok.mp hm
    simp only [Bool.and_eq_true, decide_eq_true_eq] at h2
    have := eq_b2n (n := y.toNat % 65536 / 4) (by omega)
    exact encodes_two (and_true_intro h3 (decide_eq_true (by omega))) rfl hy hop (by omega) (by omega)
  case h_7 =>
    obtain ⟨h2, h3, rfl, rfl⟩ := one_ok.mp h
    have := of_decide_eq_true h2
    have := eq_b2n (n := w.toNat % 65536 / 4) (by omega)
    exact encodes_one (and_true_intro h3 (decide_eq_true (by omega))) rfl hop (by omega)
  case h_8 | h_9 =>
    obtain ⟨-, h3, rfl, y, rfl, hy, m, hm⟩ := two_ok.mp h
    obtain ⟨h2, -, rfl, rfl⟩ := one_ok.mp hm
    obtain ⟨hc, hx⟩ := Bool.and_eq_true_iff.mp h2
    have := of_decide_eq_true hc
    exact encodes_two (and_true_intro h3 hx) rfl hy hop (by omega) (by omega)
  case h_11 => cases h

theorem decE_encodes (hop : w.toNat / 16777216 = 0xE0 + lo) (h : decE lo w.toNat = .ok (i, k)) : Encodes w next i k := by
  unfold decE at h
  dsimp only at h
  split at h
  case h_1 | h_2 =>
    obtain ⟨-, -, rfl, rfl⟩ := one_ok.mp h
    exact encodes_one rfl rfl hop (by simp only [BitVec.toNat_ofNat]; omega)
  case h_3 =>
    obtain ⟨h2, -, rfl, rfl⟩ := one_ok.mp h
    have := of_decide_eq_true h2
    exact encodes_one rfl rfl hop (by simp only [BitVec.toNat_ofNat]; omega)
  all_goals cases h

/-- Nothing decodes but the words of a well-formed instruction (R70, R73, R81). -/
theorem decodeInstr_encodes (h : decodeInstr w next = .ok (i, k)) : Encodes w next i k := by
  have hw := w.isLt
  have hop : ∀ g, w.toNat / 268435456 = g → w.toNat / 16777216 = 16 * g + w.toNat / 16777216 % 16 := fun g hg => by omega
  unfold decodeInstr at h
  dsimp only at h
  split at h
  case h_1 hg => exact dec0_encodes (hop 0x0 hg) h
  case h_2 hg => exact dec1_encodes (hop 0x1 hg) h
  case h_3 hg => exact dec2_encodes (hop 0x2 hg) h
  case h_4 hg => exact dec3_encodes (hop 0x3 hg) h
  case h_5 hg => exact dec4_encodes (hop 0x4 hg) h
  case h_6 hg => exact dec5_encodes (hop 0x5 hg) h
  case h_7 hg => exact dec6_encodes (hop 0x6 hg) h
  case h_8 hg => exact dec7_encodes (hop 0x7 hg) h
  case h_9 hg => exact dec8_encodes (hop 0x8 hg) h
  case h_10 hg => exact dec9_encodes (hop 0x9 hg) h
  case h_11 hg => exact decA_encodes (hop 0xA hg) h
  case h_12 hg => exact decB_encodes (hop 0xB hg) h
  case h_13 hg => exact decC_encodes (hop 0xC hg) h
  case h_14 => split at h <;> cases h
  case h_15 hg => exact decE_encodes (hop 0xE hg) h
  case h_16 => cases h

end

/-! ### Bytes of words (R62) -/

theorem leNat_leBytes (n v : Nat) : leNat (leBytes n v) = v % 256 ^ n := by
  induction n generalizing v with
  | zero => simp [leBytes, leNat, Nat.mod_one]
  | succ n ih => rw [leBytes, leNat, ih, BitVec.toNat_ofNat, pow_succ' 256 n, Nat.mod_mul]

theorem leBytes_leNat (bs : List Byte) : leBytes bs.length (leNat bs) = bs := by
  induction bs with
  | nil => rfl
  | cons b t ih =>
    have hb := b.isLt
    have hmod : BitVec.ofNat 8 (b.toNat + 256 * leNat t) = b := by
      apply BitVec.eq_of_toNat_eq
      rw [BitVec.toNat_ofNat]
      omega
    have hdiv : (b.toNat + 256 * leNat t) / 256 = leNat t := by omega
    rw [List.length_cons, leNat, leBytes, hmod, hdiv, ih]

theorem leNat_lt (bs : List Byte) : leNat bs < 256 ^ bs.length := by
  induction bs with
  | nil => decide
  | cons b t ih =>
    have := b.isLt
    rw [leNat, List.length_cons, Nat.pow_succ]
    omega

/-- The bytes of a word are read back, whatever follows. -/
theorem wordOfBytes_leBytes (w : Word) (rest : List Byte) : wordOfBytes (leBytes 4 w.toNat ++ rest) = some (w, rest) := by
  have h : BitVec.ofNat 32 (leNat (leBytes 4 w.toNat)) = w := by
    rw [leNat_leBytes, Nat.mod_eq_of_lt (show w.toNat < 256 ^ 4 from w.isLt), BitVec.ofNat_toNat, BitVec.setWidth_eq]
  exact congrArg (fun x => some (x, rest)) h

theorem wordOfBytes_eq_some {bs rest : List Byte} {w : Word} (h : wordOfBytes bs = some (w, rest)) : bs = leBytes 4 w.toNat ++ rest := by
  unfold wordOfBytes at h
  split at h
  · next a b c d t =>
    cases h
    rw [BitVec.toNat_ofNat, Nat.mod_eq_of_lt (Nat.lt_of_lt_of_le (leNat_lt [a, b, c, d]) (by simp))]
    exact (congrArg (· ++ rest) (leBytes_leNat [a, b, c, d])).symm
  · cases h

/-! ### Decoding and encoding are inverse (R62, R70, R73, R81) -/

/-- Settles O1: by the fields that each form gives its words. -/
theorem decodeOfEncodeIsIdentity : Obligations.DecodeOfEncodeIsIdentity := by
  intro i rest hwf hne
  rcases roundTrips i hwf hne with ⟨w, he, hd⟩ | ⟨w, y, he, hd⟩
  · simp only [he, List.flatMap_cons, List.flatMap_nil, List.append_nil, decodeBytes, wordOfBytes_leBytes, hd]
    rfl
  · simp only [he, List.flatMap_cons, List.flatMap_nil, List.append_nil, List.append_assoc, decodeBytes, wordOfBytes_leBytes,
      Option.map_some, hd]
    rfl

/-- The bytes that decode are those of the instruction's words, and the bytes after them. -/
theorem decodeBytes_encode {bs rest : List Byte} {i : Instr} (h : decodeBytes bs = .ok (i, rest)) :
    i.wf = true ∧ bs = (encode i).flatMap (fun w => leBytes 4 w.toNat) ++ rest := by
  unfold decodeBytes at h
  split at h
  · cases h
  next w t hw =>
  split at h
  · cases h
  next i k hd =>
  cases h
  obtain ⟨hwf, ⟨rfl, he⟩ | ⟨rfl, y, hy, -, he⟩⟩ := decodeInstr_encodes hd
  · exact ⟨hwf, by simp [he, wordOfBytes_eq_some hw]⟩
  · obtain ⟨⟨y, u⟩, hu, rfl⟩ := Option.map_eq_some_iff.mp hy
    refine ⟨hwf, ?_⟩
    rw [wordOfBytes_eq_some hw, wordOfBytes_eq_some hu]
    simp [he, leBytes]

/-- Settles O2: the decoder evaluated on each word. -/
theorem sampleWordsDecode : Obligations.SampleWordsDecode := ⟨rfl, rfl, rfl, rfl, rfl, rfl, rfl⟩

/-! ### Words that do not decode (R80) -/

/-- The undefined opcodes of R80. -/
theorem decodeOp_undefined {next : Option Word} {op n : Nat} (h : ∃ r ∈ [(0x00, 0x00), (0x2A, 0x2F), (0x46, 0x4F), (0x75, 0x77), (0x8C, 0x8F),
    (0x9F, 0x9F), (0xAA, 0xAF), (0xB7, 0xB7), (0xCA, 0xDE), (0xE8, 0xEF)], r.1 ≤ op ∧ op ≤ r.2) :
    decodeOp next op n = .error .undefinedOpcode := by
  simp only [List.mem_cons, List.not_mem_nil, or_false, exists_eq_or_imp, exists_eq_left] at h
  rcases h with h | h | h | h | h | h | h | h | h | h <;> obtain ⟨hlo, hhi⟩ := h <;> interval_cases op <;> rfl

theorem decodeOp_reservedTool {next : Option Word} {op n : Nat} (hlo : 0xE3 ≤ op) (hhi : op ≤ 0xE7) :
    decodeOp next op n = .error .reservedTool := by
  interval_cases op <;> rfl

theorem decodeOp_header {next : Option Word} {op n : Nat} (hlo : 0xF0 ≤ op) (hhi : op ≤ 0xFF) :
    decodeOp next op n = .error .headerInBody := by
  interval_cases op <;> rfl

/-- A decoder of one word looks at no word after it; one of a pair looks at it through `two` alone. -/
def Shape (f : Option Word → Decoded) : Prop := (∀ next, f next = f none) ∨ ∃ ok2 ok3 g, ∀ next, f next = two next ok2 ok3 g

theorem Shape.two {ok2 ok3 : Bool} {g : Nat → Nat → Decoded} : Shape (fun next => two next ok2 ok3 g) := .inr ⟨ok2, ok3, g, fun _ => rfl⟩

theorem dec3_shape (n : Nat) : ∀ lo, Shape (fun next => dec3 next lo n)
  | 0xD | 0xE => by simp only [dec3]; exact .two
  | 0x0 | 0x1 | 0x2 | 0x3 | 0x4 | 0x5 | 0x6 | 0x7 | 0x8 | 0x9 | 0xA | 0xB | 0xC | 0xF | _ + 16 => .inl fun _ => rfl

theorem dec4_shape (n : Nat) : ∀ lo, Shape (fun next => dec4 next lo n)
  | 0x3 => by simp only [dec4]; exact .two
  | 0x0 | 0x1 | 0x2 | 0x4 | 0x5 | _ + 6 => .inl fun _ => rfl

theorem dec5_shape (n : Nat) : ∀ lo, Shape (fun next => dec5 next lo n)
  | 0x4 => by simp only [dec5]; exact .two
  | 0x0 | 0x1 | 0x2 | 0x3 | 0x5 | 0x6 | 0x7 | 0x8 | 0x9 | 0xA | 0xB | 0xC | 0xD | 0xE | 0xF | _ + 16 => .inl fun _ => rfl

theorem dec6_shape (n : Nat) : ∀ lo, Shape (fun next => dec6 next lo n)
  | 0x0 | 0x1 | 0x7 | 0x8 => by simp only [dec6]; exact .two
  | 0x5 => by
    simp only [dec6]
    cases EType.ofCode (n % 256 / 16) with
    | none => exact .inl fun _ => rfl
    | some t =>
      cases EType.ofCode (n % 256 % 16) with
      | none => exact .inl fun _ => rfl
      | some f => exact .two
  | 0x2 | 0x3 | 0x4 | 0x6 | 0x9 | 0xA | 0xB | 0xC | 0xD | 0xE | 0xF | _ + 16 => .inl fun _ => rfl

theorem dec7_shape (n : Nat) : ∀ lo, Shape (fun next => dec7 next lo n)
  | 0x8 | 0x9 | 0xA => by simp only [dec7]; exact .two
  | 0x0 | 0x1 | 0x2 | 0x3 | 0x4 | 0x5 | 0x6 | 0x7 | 0xB | 0xC | 0xD | 0xE | 0xF | _ + 16 => .inl fun _ => rfl

theorem dec8_shape (n : Nat) : ∀ lo, Shape (fun next => dec8 next lo n)
  | 0x4 => by
    simp only [dec8]
    cases Space.ofCode (n % 256) with
    | none => exact .inl fun _ => rfl
    | some s =>
      cases s with
      | ceil => exact .inl fun _ => rfl
      | handle | slot => exact .two
  | 0x0 | 0x1 | 0x2 | 0x3 | 0x5 | 0x6 | 0x7 | 0x8 | 0x9 | 0xA | 0xB | _ + 12 => .inl fun _ => rfl

theorem dec9_shape (n : Nat) : ∀ lo, Shape (fun next => dec9 next lo n)
  | 0xC | 0xD => by simp only [dec9]; exact .two
  | 0x0 | 0x1 | 0x2 | 0x3 | 0x4 | 0x5 | 0x6 | 0x7 | 0x8 | 0x9 | 0xA | 0xB | 0xE | _ + 15 => .inl fun _ => rfl

theorem decC_shape (n : Nat) : ∀ lo, Shape (fun next => decC next lo n)
  | 0x4 | 0x5 | 0x7 | 0x8 => by simp only [decC]; exact .two
  | 0x0 | 0x1 | 0x2 | 0x3 | 0x6 | 0x9 | _ + 10 => .inl fun _ => rfl

theorem decodeOp_shape (op n : Nat) : Shape (fun next => decodeOp next op n) := by
  unfold decodeOp
  generalize op / 16 = hi
  match hi with
  | 0x3 => exact dec3_shape n _
  | 0x4 => exact dec4_shape n _
  | 0x5 => exact dec5_shape n _
  | 0x6 => exact dec6_shape n _
  | 0x7 => exact dec7_shape n _
  | 0x8 => exact dec8_shape n _
  | 0x9 => exact dec9_shape n _
  | 0xC => exact decC_shape n _
  | 0x0 | 0x1 | 0x2 | 0xA | 0xB | 0xD | 0xE | _ + 15 => exact .inl fun _ => rfl

/-- A form of two words whose operand word is missing is refused (R73). -/
theorem decodeInstr_pair {x : Word} {next : Option Word} {i : Instr} (h : decodeInstr x next = .ok (i, 2)) :
    (∃ y, next = some y ∧ IsOperand y) ∧ decodeInstr x none = .error .operandWord ∧
      ∀ y, ¬IsOperand y → decodeInstr x (some y) = .error .operandWord := by
  obtain ⟨-, ⟨hk, -⟩ | ⟨-, y, hy, hop, -⟩⟩ := decodeInstr_encodes h
  · cases hk
  refine ⟨⟨y, hy, hop⟩, ?_⟩
  simp only [decodeInstr_eq_decodeOp] at h ⊢
  rcases decodeOp_shape (x.toNat / 16777216) x.toNat with hs | ⟨ok2, ok3, f, hs⟩
  · have hn : decodeInstr x none = .ok (i, 2) := by rw [decodeInstr_eq_decodeOp]; exact (hs next).symm.trans h
    obtain ⟨-, ⟨hk, -⟩ | ⟨-, z, hz, -⟩⟩ := decodeInstr_encodes hn
    · cases hk
    · cases hz
  · obtain ⟨h2, h3, -⟩ := two_ok.mp ((hs next).symm.trans h)
    refine ⟨(hs none).trans (by simp [two, h2, h3]), fun z hz => (hs (some z)).trans ?_⟩
    simp [two, h2, h3, show ¬z.toNat / 16777216 = 0xDF from hz]

/-! ### Clauses (R63, R65, R75) -/

/-- A header that decodes (R65). -/
theorem decodeHeader_ok {hw : Word} {h : ClauseHdr} (hd : decodeHeader hw = .ok h) :
    hw.toNat / 2 ^ 28 = 15 ∧ hw.toNat / 8 % 2 = 0 ∧ hw.toNat % 2 = 0 ∧ setOk (hw.toNat / 4096 % 16) = true ∧ setOk (hw.toNat / 256 % 16) = true ∧
      h.seta = hw.toNat / 4096 % 16 ∧ h.setb = hw.toNat / 256 % 16 ∧ h.len = hw.toNat / 16 % 16 + 1 := by
  unfold decodeHeader at hd
  dsimp only at hd
  split at hd
  · cases hd
  next htop =>
  split at hd
  · cases hd
  next hrsv =>
  split at hd
  · cases hd
  next hset =>
  cases hd
  simp only [Bool.not_eq_true', Bool.not_eq_false, Bool.and_eq_true] at hset
  obtain ⟨ha, hb⟩ := hset
  exact ⟨by omega, by omega, by omega, ha, hb, rfl, rfl, rfl⟩

/-- What the decoder asks of a word of a clause before which `ll` long-latency operations stand and after which the words `t` follow. -/
structure BodyWord (native : Bool) (h : ClauseHdr) (ll : Nat) (w : Word) (t : List Word) (i : Instr) (n : Nat) : Prop where
  decodes : decodeInstr w t.head? = .ok (i, n)
  last : i.ending = true → t.length < n
  room : i.long = true → ll < 2
  flag : native = true → i.returning = true → (if ll = 0 then h.seta else h.setb) ≠ 15

theorem BodyWord.words {native : Bool} {h : ClauseHdr} {ll n : Nat} {w : Word} {t : List Word} {i : Instr} (hb : BodyWord native h ll w t i n) :
    n = 1 ∨ n = 2 ∧ (encode i).length = 2 ∧ ∃ y u, t = y :: u := by
  obtain ⟨-, ⟨rfl, -⟩ | ⟨rfl, y, hy, -, he⟩⟩ := decodeInstr_encodes hb.decodes
  · exact .inl rfl
  · cases t with
    | nil => cases hy
    | cons y u => exact .inr ⟨rfl, by simp [he], y, u, rfl⟩

theorem decodeBody_cons {native : Bool} {h : ClauseHdr} {fuel k ll : Nat} {w : Word} {t : List Word} {l : List (Nat × Instr)}
    (hd : decodeBody native h (fuel + 1) k ll (w :: t) = .ok l) :
    ∃ i n l', BodyWord native h ll w t i n ∧ l = (k, i) :: l' ∧
      decodeBody native h fuel (k + n) (if i.long then ll + 1 else ll) (t.drop (n - 1)) = .ok l' := by
  rw [decodeBody] at hd
  split at hd
  · cases hd
  next i n hi =>
  by_cases hlast : (i.ending && decide (n ≤ t.length)) = true
  · rw [if_pos hlast] at hd; cases hd
  by_cases hroom : (i.long && decide (2 ≤ ll)) = true
  · rw [if_neg hlast, if_pos hroom] at hd; cases hd
  by_cases hflag : (native && i.returning && decide ((if ll = 0 then h.seta else h.setb) = 15)) = true
  · rw [if_neg hlast, if_neg hroom, if_pos hflag] at hd; cases hd
  rw [if_neg hlast, if_neg hroom, if_neg hflag] at hd
  split at hd
  · cases hd
  next l' hrest =>
  cases hd
  refine ⟨i, n, l', ⟨hi, fun he => ?_, fun hl => ?_, fun hn hr => ?_⟩, rfl, hrest⟩
  · simpa [he] using hlast
  · simpa [hl] using hroom
  · simpa [hn, hr] using hflag

/-- Induction over the words of a clause that decodes. -/
theorem decodeBody_induction {native : Bool} {h : ClauseHdr} {P : Nat → Nat → List Word → List (Nat × Instr) → Prop}
    (nil : ∀ k ll, P k ll [] [])
    (cons : ∀ k ll w t i n l, BodyWord native h ll w t i n → P (k + n) (if i.long then ll + 1 else ll) (t.drop (n - 1)) l →
      P k ll (w :: t) ((k, i) :: l)) :
    ∀ fuel k ll ws l, ws.length ≤ fuel → decodeBody native h fuel k ll ws = .ok l → P k ll ws l := by
  intro fuel
  induction fuel with
  | zero =>
    intro k ll ws l hlen hd
    obtain rfl := List.length_eq_zero_iff.mp (Nat.le_zero.mp hlen)
    cases hd
    exact nil k ll
  | succ fuel ih =>
    intro k ll ws l hlen hd
    cases ws with
    | nil => cases hd; exact nil k ll
    | cons w t =>
      obtain ⟨i, n, l', hb, rfl, hrest⟩ := decodeBody_cons hd
      refine cons k ll w t i n l' hb (ih _ _ _ _ ?_ hrest)
      rw [List.length_drop]
      rw [List.length_cons] at hlen
      omega

/-- Every word of a clause is the first of an instruction, or the operand word of one. -/
def Covers (k : Nat) (ws : List Word) (l : List (Nat × Instr)) : Prop :=
  ∀ j < ws.length, ∃ i, (k + j, i) ∈ l ∨ (0 < j ∧ (k + j - 1, i) ∈ l ∧ (encode i).length = 2)

/-- Every instruction stands at its words, and a clause-ending form at the clause's last. -/
def Stands (k : Nat) (ws : List Word) (l : List (Nat × Instr)) : Prop :=
  ∀ j i, (j, i) ∈ l → k ≤ j ∧ ∃ x c, ws[j - k]? = some x ∧ decodeInstr x ws[j - k + 1]? = .ok (i, c) ∧
    (i.ending = true → j + c = k + ws.length)

/-- The long-latency operations of a clause with `ll` before: two at most, and a returning one of native mode has its flag. -/
def LongFits (native : Bool) (h : ClauseHdr) (ll : Nat) (l : List (Nat × Instr)) : Prop :=
  ll ≤ 2 → let long := l.filter (fun e => e.2.long)
    ll + long.length ≤ 2 ∧ (native = true → ∀ (j k : Nat) (i : Instr), long[j]? = some (k, i) → i.returning = true →
      (if ll + j = 0 then h.seta else h.setb) ≠ 15)

theorem covers_cons {native : Bool} {h : ClauseHdr} {k ll n : Nat} {w : Word} {t : List Word} {i : Instr} {l : List (Nat × Instr)}
    (hb : BodyWord native h ll w t i n) (ih : Covers (k + n) (t.drop (n - 1)) l) : Covers k (w :: t) ((k, i) :: l) := by
  intro j hj
  rw [List.length_cons] at hj
  have hlater : ∀ m, j = n + m → ∃ i', (k + j, i') ∈ (k, i) :: l ∨ (0 < j ∧ (k + j - 1, i') ∈ (k, i) :: l ∧ (encode i').length = 2) := by
    rintro m rfl
    have hm : m < (t.drop (n - 1)).length := by
      have := hb.words
      rw [List.length_drop]; omega
    obtain ⟨i', hi | ⟨hpos, hi, he⟩⟩ := ih m hm
    · exact ⟨i', .inl (List.mem_cons_of_mem _ (by rwa [← Nat.add_assoc]))⟩
    · exact ⟨i', .inr ⟨by omega, List.mem_cons_of_mem _ (by rwa [← Nat.add_assoc]), he⟩⟩
  rcases Nat.eq_zero_or_pos j with rfl | hpos
  · exact ⟨i, .inl (by simp)⟩
  rcases hb.words with rfl | ⟨rfl, he, y, u, rfl⟩
  · exact hlater (j - 1) (by omega)
  · rcases Nat.lt_or_ge 1 j with h2 | h2
    · exact hlater (j - 2) (by omega)
    · obtain rfl : j = 1 := by omega
      exact ⟨i, .inr ⟨hpos, by simp, he⟩⟩

theorem stands_cons {native : Bool} {h : ClauseHdr} {k ll n : Nat} {w : Word} {t : List Word} {i : Instr} {l : List (Nat × Instr)}
    (hb : BodyWord native h ll w t i n) (ih : Stands (k + n) (t.drop (n - 1)) l) : Stands k (w :: t) ((k, i) :: l) := by
  intro j i' hj
  have hw := hb.words
  rcases List.mem_cons.mp hj with heq | hj
  · cases heq
    refine ⟨Nat.le_refl k, w, n, by simp, ?_, fun he => ?_⟩
    · rw [Nat.sub_self, Nat.zero_add, List.getElem?_cons_succ, ← List.head?_eq_getElem?]
      exact hb.decodes
    · have := hb.last he
      rw [List.length_cons]
      rcases hw with rfl | ⟨rfl, -, y, u, rfl⟩
      · omega
      · rw [List.length_cons] at this ⊢; omega
  · obtain ⟨hk, x, c, hx, hd, he⟩ := ih j i' hj
    have hn : 1 ≤ n := by omega
    have hget : ∀ m, (t.drop (n - 1))[m]? = (w :: t)[n + m]? := fun m => by
      rw [List.getElem?_drop, show n + m = n - 1 + m + 1 by omega, List.getElem?_cons_succ]
    rw [hget, show n + (j - (k + n)) = j - k by omega] at hx
    rw [hget, show n + (j - (k + n) + 1) = j - k + 1 by omega] at hd
    refine ⟨by omega, x, c, hx, hd, fun hend => ?_⟩
    have hsum := he hend
    rw [List.length_drop] at hsum
    rw [List.length_cons]
    rcases hw with rfl | ⟨rfl, -, y, u, rfl⟩
    · omega
    · rw [List.length_cons] at hsum ⊢; omega

theorem longFits_cons {native : Bool} {h : ClauseHdr} {k ll n : Nat} {w : Word} {t : List Word} {i : Instr} {l : List (Nat × Instr)}
    (hb : BodyWord native h ll w t i n) (ih : LongFits native h (if i.long then ll + 1 else ll) l) : LongFits native h ll ((k, i) :: l) := by
  intro hll
  cases hi : i.long with
  | false =>
    rw [hi] at ih
    simpa [hi] using ih hll
  | true =>
    rw [hi, if_pos rfl] at ih
    have hroom := hb.room hi
    obtain ⟨hlen, hflag⟩ := ih (show ll + 1 ≤ 2 by omega)
    simp only [List.filter_cons, hi, if_true, List.length_cons] at hlen ⊢
    refine ⟨by omega, fun hn j k' i' hj hr => ?_⟩
    cases j with
    | zero =>
      cases hj
      exact hb.flag hn hr
    | succ j =>
      have := hflag hn j k' i' hj hr
      rw [if_neg (by omega)] at this ⊢
      exact this

/-- A clause that decodes: its header, and what its words keep. -/
theorem decodeClause_ok {native : Bool} {hw : Word} {body : List Word} {l : List (Nat × Instr)} (hd : decodeClause native hw body = .ok l) :
    ∃ h, decodeHeader hw = .ok h ∧ Covers 1 (body.take h.len) l ∧ Stands 1 (body.take h.len) l ∧ LongFits native h 0 l := by
  unfold decodeClause at hd
  split at hd
  · cases hd
  next h hh =>
  have hlen : (body.take h.len).length ≤ 16 := by
    obtain ⟨-, -, -, -, -, -, -, hl⟩ := decodeHeader_ok hh
    rw [List.length_take]; omega
  refine ⟨h, hh, ?_, ?_, ?_⟩
  · exact decodeBody_induction (P := fun k _ ws l => Covers k ws l) (fun _ _ j hj => absurd hj (Nat.not_lt_zero j))
      (fun _ _ _ _ _ _ _ hb ih => covers_cons hb ih) 16 1 0 _ l hlen hd
  · exact decodeBody_induction (P := fun k _ ws l => Stands k ws l) (fun _ _ _ _ hj => absurd hj List.not_mem_nil)
      (fun _ _ _ _ _ _ _ hb ih => stands_cons hb ih) 16 1 0 _ l hlen hd
  · exact decodeBody_induction (P := fun _ ll _ l => LongFits native h ll l) (fun _ _ hll => ⟨hll, fun _ _ _ _ hj => by cases hj⟩)
      (fun _ _ _ _ _ _ _ hb ih => longFits_cons hb ih) 16 1 0 _ l hlen hd

theorem decodeInstr_refuses (x : Word) (next : Option Word) {op : Nat} {e : DecodeErr} (hop : x.toNat / 2 ^ 24 = op)
    (h : decodeOp next op x.toNat = .error e) : decodeInstr x next = .error e := by
  rw [decodeInstr_eq_decodeOp, show x.toNat / 16777216 = op from hop, h]

theorem mem_range_singleton {lo hi op : Nat} (h : ∃ r ∈ [(lo, hi)], r.1 ≤ op ∧ op ≤ r.2) : lo ≤ op ∧ op ≤ hi := by
  simpa using h

/-- Settles O3: by the words that each opcode decodes, the opcodes that none decodes, and induction over a clause's words. -/
theorem decodeRefuses : Obligations.DecodeRefuses := by
  refine ⟨fun bs i rest => decodeBytes_encode, fun x next => ?_, fun native hw body l hd => ?_⟩
  · refine ⟨fun h => decodeInstr_refuses x next rfl (decodeOp_undefined h), fun h => ?_, fun h => ?_, fun h => ?_,
      fun i h => decodeInstr_pair h⟩
    · obtain ⟨hlo, hhi⟩ := mem_range_singleton h
      exact decodeInstr_refuses x next rfl (decodeOp_reservedTool hlo hhi)
    · obtain ⟨hlo, hhi⟩ := mem_range_singleton h
      exact decodeInstr_refuses x next (Nat.le_antisymm hhi hlo) rfl
    · obtain ⟨hlo, hhi⟩ := mem_range_singleton h
      exact decodeInstr_refuses x next rfl (decodeOp_header hlo hhi)
  · obtain ⟨h, hh, hcovers, hstands, hlong⟩ := decodeClause_ok hd
    obtain ⟨htop, h8, h2, hseta, hsetb, ha, hb, hlen⟩ := decodeHeader_ok hh
    obtain ⟨hroom, hflag⟩ := hlong (by decide)
    rw [hlen] at hcovers hstands
    refine ⟨htop, ?_, ?_, ?_, fun j hj => ?_, fun k i hk => ?_, by simpa using hroom, fun hn j k i hj hr => ?_⟩
    · rw [BitVec.getLsbD, Nat.testBit_eq_decide_div_mod_eq]; exact decide_eq_false (by omega)
    · rw [BitVec.getLsbD, Nat.testBit_eq_decide_div_mod_eq]; exact decide_eq_false (by omega)
    · simpa [setOk] using And.intro hseta hsetb
    · obtain ⟨i, hi | ⟨-, hi, he⟩⟩ := hcovers j hj
      · exact ⟨i, .inl (by rwa [Nat.add_comm])⟩
      · exact ⟨i, .inr ⟨by rwa [Nat.add_sub_cancel_left] at hi, he⟩⟩
    · obtain ⟨hk1, x, c, hx, hdec, hend⟩ := hstands k i hk
      rw [Nat.sub_add_cancel hk1] at hdec
      exact ⟨hk1, x, c, hx, hdec, fun he => (hend he).trans (Nat.add_comm _ _)⟩
    · have := hflag hn j k i hj hr
      rw [Nat.zero_add, ha, hb] at this
      by_cases h0 : j = 0 <;> simpa [h0] using this

end Sys2Proof
end

section
/-! What passes before a wave's turn, and which step the turn makes (R42, R63, R271, R273): the statement O4. -/

namespace Sys2Proof.Machine

namespace State

/-- Counting the port cycles of a launch changes the cores' records only. -/
theorem modLanes_only (s : State) (c lid : Nat) (f : LaneRec → LaneRec) : ∃ cs, s.modLanes c lid f = { s with cores := cs } := ⟨_, rfl⟩

theorem countPipe_only (s : State) (c pipe cycles : Nat) : ∃ cs, s.countPipe c pipe cycles = { s with cores := cs } := by
  unfold countPipe
  split
  · exact ⟨_, rfl⟩
  · exact modLanes_only s c _ _

/-- A fold whose every step changes the cores only changes the cores only. -/
theorem foldl_cores_only {α : Type} {f : State → α → State} (hf : ∀ s x, ∃ cs, f s x = { s with cores := cs }) (l : List α) :
    ∀ s : State, ∃ cs, l.foldl f s = { s with cores := cs } := by
  induction l with
  | nil => exact fun s => ⟨_, rfl⟩
  | cons x t ih =>
    intro s
    obtain ⟨cs, h⟩ := hf s x
    obtain ⟨ds, h'⟩ := ih (f s x)
    exact ⟨ds, by rw [List.foldl_cons, h', h]⟩

theorem countIdle_only (s : State) (busy : Option (Nat × Nat)) (cycles : Nat) : ∃ cs, s.countIdle busy cycles = { s with cores := cs } := by
  refine foldl_cores_only (fun s c => foldl_cores_only (fun s x => ?_) _ s) _ s
  split
  · exact ⟨_, rfl⟩
  · exact countPipe_only s _ _ _

/-- Taking up a move changes the move named and the cores' records only. -/
theorem begin_only (s : State) (t : Turn) : ∃ cs, s.begin t = { s with turn := none, cores := cs } := by
  obtain ⟨cs, h⟩ := countIdle_only { s with turn := none } (s.busyPipe t) (Config.delay (s.tick - 1))
  exact ⟨cs, h⟩

theorem begin_frame (s : State) (t : Turn) : (s.begin t).elems = s.elems ∧ (s.begin t).bad = s.bad ∧ (s.begin t).rows = s.rows ∧
    (s.begin t).mem = s.mem ∧ (s.begin t).waves = s.waves := by
  obtain ⟨cs, h⟩ := begin_only s t
  rw [h]
  exact ⟨rfl, rfl, rfl, rfl, rfl⟩

theorem elapse_frame (s : State) : s.elapse.elems = s.elems ∧ s.elapse.bad = s.bad ∧ s.elapse.rows = s.rows ∧ s.elapse.mem = s.mem := by
  obtain ⟨n, c, ws, bs, e, h⟩ := elapse_only s
  rw [h]
  exact ⟨rfl, rfl, rfl, rfl⟩

/-- The state in which a wave's turn is taken holds what the state before it held, and every wave is where it was. -/
theorem turn_frame (s : State) (t : Turn) (p : Nat) :
    let u : State := { s.elapse.begin t with cur := p }
    s.sameStorage u ∧ ∀ q, (u.wave q).pc = (s.wave q).pc ∧ (u.wave q).k = (s.wave q).k ∧ (u.wave q).md = (s.wave q).md ∧
      (u.wave q).status = (s.wave q).status ∧ ∀ r, (u.wave q).sget r = (s.wave q).sget r := by
  intro u
  obtain ⟨helems, hbad, hrows, hmem, hwaves⟩ := begin_frame s.elapse t
  obtain ⟨helems', hbad', hrows', hmem'⟩ := elapse_frame s
  refine ⟨sameStorage_of_fields (helems.trans helems') (hbad.trans hbad') (hrows.trans hrows') (hmem.trans hmem'), fun q => ?_⟩
  obtain ⟨r, l, a, m, y, g, x, hwave⟩ := elapse_wave s q
  have hq : u.wave q = s.elapse.wave q := congrArg (fun ws => SMap.get ({} : Wave) ws q) hwaves
  rw [hq, hwave]
  exact ⟨rfl, rfl, rfl, rfl, fun _ => rfl⟩

/-- No due trap is taken before the next word of a form that missed, nor where each waits for its wait or for the handler's end (R100). -/
theorem dueNow_none {s : State} {p : Nat} (h : (s.wave p).unfinished = true ∨
    ∀ d ∈ (s.wave p).due, s.nativeOf p = true ∧ (d.closed = false ∨ (s.wave p).hnd = true)) : s.dueNow p = none := by
  unfold dueNow
  rw [List.find?_eq_none]
  intro d hd
  rcases h with h | h
  · simp [h]
  · obtain ⟨hn, hc | hh⟩ := h d hd
    · simp [hn, hc]
    · simp [hn, hh]

end State

theorem collects_iff {w : Wave} {i : Instr} : w.collects i = true ↔ bankConflict i = true ∧ w.gathered = false := by
  simp [Wave.collects]

theorem nextInstr_ok {w : Wave} {x : Word} {i : Instr} {n : Nat} (hx : w.body[w.k - 1]? = some x)
    (hi : decodeInstr x w.body[w.k]? = .ok (i, n)) : w.nextInstr = .ok i := by
  simp only [Wave.nextInstr, hx, hi]

section
variable {s : State} {p : Nat} (htrap : (s.wave p).trap = none) (hdue : ({ s with cur := p } : State).dueNow p = none)
include htrap hdue

theorem waveTurn_header (hk : (s.wave p).k = 0) : s.waveTurn p = exec (.clauseIssue p) { s with cur := p } := by
  simp only [State.waveTurn, htrap, hdue, hk, if_true]

theorem waveTurn_word {i : Instr} (hk : (s.wave p).k ≠ 0) (hi : (s.wave p).nextInstr = .ok i) : s.waveTurn p =
    if (s.wave p).collects i then .next (({ s with cur := p } : State).gather p (collectCycles i))
    else noted { s with cur := p } p (Instr.portCycles i) (exec i { s with cur := p }) := by
  simp only [State.waveTurn, htrap, hdue, hk, hi, if_false]

end

/-- Settles O4: the turn of a wave, by what it is about to do. -/
theorem stepRunsDecodedInstruction : Obligations.StepRunsDecodedInstruction := by
  rintro s u p hchosen rfl
  refine ⟨State.turn_frame s (.wave p) p, fun htrap hdue => ?_⟩
  have hstep : step s = (s.elapse.begin (.wave p)).waveTurn p := by rw [step, hchosen]; rfl
  have hnone := State.dueNow_none hdue
  generalize s.elapse.begin (.wave p) = v at *
  refine ⟨fun hk => hstep.trans (waveTurn_header (s := v) htrap hnone hk), fun x i n hk hx hi => ?_⟩
  rw [hstep, waveTurn_word (s := v) htrap hnone hk (nextInstr_ok hx hi)]
  refine ⟨fun hb hg => if_pos (collects_iff.mpr ⟨hb, hg⟩), fun hbg => ?_⟩
  · have hcollects : ¬(v.wave p).collects i = true := fun hc => by
      obtain ⟨hb, hg⟩ := collects_iff.mp hc
      rcases hbg with h | h
      · exact Bool.false_ne_true (h.symm.trans hb)
      · exact Bool.false_ne_true (hg.symm.trans h)
    rw [if_neg hcollects]
    exact ⟨fun t ht => by rw [ht]; rfl, fun f hf => by rw [hf]; rfl, fun r hr => by rw [hr]; rfl⟩

end Sys2Proof.Machine
end

section
/-! O17: the scheduling hints, waits on flags, the audit instructions and FENCE. -/

namespace Sys2Proof.SMap

theorem erase_ins_same {α : Type} (m : SMap α) (k : Nat) (v : α) : erase (ins k v m) k = erase m k := by
  induction m with
  | nil => simp [ins, erase]
  | cons e t ih =>
    simp only [ins, erase] at ih ⊢
    split
    · simp
    · simp only [List.filter_cons, ih]

theorem erase_erase {α : Type} (m : SMap α) (k : Nat) : erase (erase m k) k = erase m k := by simp [erase]

/-- Of two writes to one key the second stands. -/
theorem set_set {α : Type} [DecidableEq α] (d : α) (m : SMap α) (k : Nat) (v w : α) : set d (set d m k v) k w = set d m k w := by
  have h : erase (set d m k v) k = erase m k := by
    unfold set
    split
    · exact erase_erase m k
    · rw [erase_ins_same, erase_erase]
  show (if w = d then erase (set d m k v) k else ins k w (erase (set d m k v) k)) = set d m k w
  rw [h]
  rfl

end Sys2Proof.SMap

namespace Sys2Proof.Machine

namespace State

@[simp] theorem setWave_setWave (s : State) (p : Nat) (v w : Wave) : (s.setWave p v).setWave p w = s.setWave p w := by
  simp only [setWave, SMap.set_set]

@[simp] theorem fenced_setWave (s : State) (p q : Nat) (w : Wave) (cls : BitVec 8) :
    (s.setWave p w).fenced q cls = ((s.setWave p w).wave q).fences.any (fun f => f.succ &&& cls != 0 && f.ids.any s.outstanding) := rfl

@[simp] theorem nativeOf_setWave (s : State) (p : Nat) (w : Wave) : (s.setWave p w).nativeOf p = (s.launch w.lid).native := by
  simp [nativeOf]

/-- No log takes a status form's values in a block that runs for itself and is not logged (R294). -/
theorem logIn_unlogged {s : State} (p kind : Nat) (src : DWord) (data : List Word) (h : (s.block (s.wave p).blk).logging = false) :
    s.logIn p kind src data = s := by simp [logIn, h]

theorem statusForm_unlogged {s : State} {p : Nat} (vals : List Word) (apply : State → List Word → State) (hr : s.runOf p = .original)
    (hl : (s.block (s.wave p).blk).logging = false) : s.statusForm p vals apply = apply s vals := by
  rw [statusForm, if_pos hr, logIn_unlogged _ _ _ _ hl]

/-- No earlier atomic of the wave holds its outputs back (R295). -/
theorem outGate_open {s : State} {p : Nat} (go : State → State)
    (h : s.audited p = true → ∀ o ∈ s.ops, o.party = p → o.out = false) : s.outGate p go = go s := by
  refine if_neg fun hh => ?_
  obtain ⟨ha, hx⟩ := Bool.and_eq_true_iff.mp hh
  obtain ⟨o, ho, hy⟩ := List.any_eq_true.mp hx
  obtain ⟨hp, hout⟩ := Bool.and_eq_true_iff.mp hy
  simp [h ha o ho (by simpa using hp)] at hout

/-- A form that consumes registers which nothing holds and none of which is poisoned goes on. -/
theorem direct_clear {s : State} {p : Nat} {srcs dsts : Regs} {scals : List Nat} (go : State → State)
    (ho : ∀ o ∈ (s.wave p).opens, (∀ v ∈ (srcs ++ dsts).map (·.1), v ∉ o.vecs) ∧ ∀ r ∈ scals, r ∉ o.scals)
    (hf : s.fenced p (rowClasses p srcs dsts) = false) (hw : rowsOf p dsts ≠ [] → s.writesOut p = false)
    (hb : ∀ r ∈ accesses p srcs dsts, s.rowBlocked p r.1 = false) (hr : s.racing p (accesses p srcs dsts) = [])
    (hc : ∀ r ∈ srcs, ∀ l ∈ lanesOf r.2, s.poisoned (velem p r.1 l) = false) :
    s.direct p srcs dsts scals go = go (s.markRows p (accesses p srcs dsts)) := by
  rw [direct, access_clear _ ho hf hw hb hr]
  exact consume_clean _ fun r hr l hl => (poisoned_markRows ..).trans (hc r hr l hl)

@[simp] theorem vget_markRows (s : State) (p q v l : Nat) (rows : List (Nat × Bool)) : (s.markRows p rows).vget q v l = s.vget q v l :=
  elem_markRows ..

@[simp] theorem audited_markRows (s : State) (p q : Nat) (rows : List (Nat × Bool)) : (s.markRows p rows).audited q = s.audited q := by
  obtain ⟨r, h⟩ := s.markRows_only p rows; rw [h]; rfl

/-- Folding records touches the wave's digest alone, and only in an audited block (R295). -/
theorem foldOut_wave (s : State) (p : Nat) (recs : List (DWord × DWord)) :
    (s.foldOut p recs).wave p = if s.audited p then
      { s.wave p with digest := recs.foldl (fun r a => crcRecord r a.1 a.2) (s.wave p).digest } else s.wave p := by
  unfold foldOut audited
  split
  · exact wave_setWave_same ..
  · rfl

@[simp] theorem byte_foldOut (s : State) (p a : Nat) (recs : List (DWord × DWord)) : (s.foldOut p recs).byte a = s.byte a := by
  unfold foldOut
  split <;> rfl

theorem audited_iff (s : State) (p : Nat) :
    s.audited p = false ↔ (s.block (s.wave p).blk).logging = false ∧ s.runOf p = .original := by
  simp [audited]

/-- A met wait that takes no due trap closes the named registers' flags and marks the due traps it closes. -/
theorem closeWait_untaken {s : State} {p : Nat} {mask : BitVec 12} {addr : DWord} {k : Nat} (go : State → State)
    (h : ∀ x ∈ (s.wave p).due, (s.wave p).takesDue mask x = false) :
    s.closeWait p mask addr k go =
      go (s.modWave p (fun w => { w.closeFlags mask with due := w.due.map (·.close mask) })) := by
  have hf : (s.wave p).due.find? ((s.wave p).takesDue mask) = none := List.find?_eq_none.mpr fun x hx => by simp [h x hx]
  simp only [closeWait, hf]

end State

theorem Wave.flagsZero_iff (w : Wave) (mask : BitVec 12) :
    w.flagsZero mask = true ↔ ∀ f < 12, mask.getLsbD f = true → w.flags.get 0 f = 0 := by
  simp only [flagsZero, List.all_eq_true, List.mem_range, Bool.or_eq_true, Bool.not_eq_true', decide_eq_true_eq]
  exact forall₂_congr fun f _ => by cases mask.getLsbD f <;> simp

/-- A due trap that a wait leaves is one already closed, or one that the wait does not name. -/
theorem Wave.takesDue_iff (w : Wave) (mask : BitVec 12) (t : DueTrap) :
    w.takesDue mask t = false ↔ if t.closed then w.hnd = true else ¬(t.flag < 12 ∧ mask.getLsbD t.flag = true) := by
  unfold takesDue
  split <;> simp

/-- Such a trap stays as it is. -/
theorem DueTrap.close_of_untaken {w : Wave} {mask : BitVec 12} {t : DueTrap} (h : w.takesDue mask t = false) : t.close mask = t := by
  unfold close
  split
  · next hm =>
    cases hc : t.closed
    · exact absurd (by simpa using hm) (by simpa [hc] using (w.takesDue_iff mask t).mp h)
    · rw [← hc]
  · rfl

/-- Records of ADMIX are folded lane by lane (R130, R295). -/
theorem admixRecords_foldl (tag : Nat) (f : Nat → DWord) (ls : List Nat) (d : DWord) :
    (ls.map (fun l => (BitVec.ofNat 64 (0xFF00000000000000 + 256 * tag + l), f l))).foldl (fun r a => crcRecord r a.1 a.2) d =
      ls.foldl (fun r l => crcRecord r (BitVec.ofNat 64 (0xFF00000000000000 + 256 * tag + l)) (f l)) d := List.foldl_map

section
variable {s : State}

theorem exec_yield (h : s.me.status = .running) :
    exec .yield s = .next (s.setWave s.cur { s.me.advance 1 with active := false, readySince := s.clock }) := by
  change execYield s = _
  exact onWave_running _ h

theorem exec_nap (h : s.me.status = .running) {n : Nat} (hn : 0 < n) :
    exec (.nap n) s = .next (s.setWave s.cur { s.me.advance 1 with
      active := false, readySince := s.clock, reasons := 1, wait := .nap (s.clock + BitVec.ofNat 64 n) }) := by
  change execNap n s = _
  refine (onWave_running _ h).trans ?_
  simp only [if_neg hn.ne', State.modWave_eq]

/-- In native mode WAITF closes the registers of the flags it names when all of them are zero (R77, R128). -/
theorem exec_waitf_native (h : s.me.status = .running) (mask : BitVec 12) (hn : s.nativeOf s.cur = true)
    (hz : s.me.flagsZero mask = true) (hd : ∀ x ∈ s.me.due, s.me.takesDue mask x = false) :
    exec (.waitf mask) s = .next (s.setWave s.cur { s.me.advance 1 with
      opens := s.me.opens.filter (fun o => !(decide (o.flag < 12) && mask.getLsbD o.flag)) }) := by
  have hdue : s.me.due.map (·.close mask) = s.me.due :=
    (List.map_congr_left fun x hx => DueTrap.close_of_untaken (hd x hx)).trans (List.map_id _)
  change execWaitf mask s = _
  refine (onWave_running _ h).trans (congrArg _ ?_)
  rw [if_pos hn, if_pos hz, State.closeWait_untaken _ (by rw [State.wave_setWave_same]; exact hd)]
  simp only [State.modWave_eq, State.wave_setWave_same, State.setWave_setWave, id]
  exact congrArg (s.setWave s.cur) (congrArg (fun d => { (s.me.advance 1).closeFlags mask with due := d }) hdue)

/-- In interlocked mode it goes on when nothing of the wave is in flight (R128). -/
theorem exec_waitf_interlocked (h : s.me.status = .running) (mask : BitVec 12) (hn : s.nativeOf s.cur = false)
    (ho : s.longOut s.cur = false) : exec (.waitf mask) s = .next (s.setWave s.cur (s.me.advance 1)) := by
  change execWaitf mask s = _
  refine (onWave_running _ h).trans (congrArg _ ?_)
  rw [if_neg (by simp [hn]), if_neg (by simp [ho])]
  rfl

theorem exec_adrd {d : Nat} (sel : Nat) (h : s.ready [] [d]) (hu : s.unlogged) :
    exec (.adrd d sel) s = .next (s.gives ((s.me.sput d (if sel = 0 then (if (s.block s.me.blk).selected then 1 else 0)
      else BitVec.ofNat 32 (s.launch (s.block s.me.blk).lid).hdr.arate)).advance 1)) := by
  obtain ⟨hrun, ho⟩ := h
  obtain ⟨horig, hlog⟩ := hu
  change execAdrd d sel s = _
  refine (onWave_running _ hrun).trans (congrArg _ ?_)
  rw [State.opened_ready _ ho, State.statusForm_unlogged _ _ horig hlog]
  simp only [State.modWave_eq, hlog, Bool.and_false, List.getD_cons_zero]
  by_cases hs : sel = 0
  · cases (s.block s.me.blk).selected <;> simp [hs]
  · simp [hs]

/-- ADMIX folds one record for each active lane, in an audited block only (R130, R295). -/
theorem exec_admix {a : Nat} (tag : Nat) (h : s.ready [a] []) (hf : s.clear [(a, s.me.activeMask)] [])
    (hc : s.clean [(a, s.me.activeMask)]) (hg : s.audited s.cur = true → ∀ o ∈ s.ops, o.party = s.cur → o.out = false) :
    ∃ t, exec (.admix a tag) s = .next t ∧ t.wave s.cur =
      (if (s.block s.me.blk).logging = false ∧ s.runOf s.cur = .original then s.me.advance 1
       else { s.me.advance 1 with digest := (lanesOf s.me.activeMask).foldl (fun r l =>
         crcRecord r (BitVec.ofNat 64 (0xFF00000000000000 + 256 * tag + l)) ((s.vget s.cur a l).setWidth 64)) s.me.digest }) ∧
      ∀ x, t.byte x = s.byte x := by
  obtain ⟨hrun, ho⟩ := h
  obtain ⟨hfence, hwrites, hrows, hrace⟩ := hf
  change ∃ t, execAdmix a tag s = _ ∧ _
  refine ⟨_, onWave_running _ hrun, ?_⟩
  rw [State.outGate_open _ hg, State.direct_clear _ (by simpa using ho) hfence hwrites hrows hrace hc]
  refine ⟨?_, fun x => by simp [State.modWave_eq]⟩
  rw [State.modWave_eq, State.wave_setWave_same, State.foldOut_wave]
  simp only [State.audited_markRows, State.wave_markRows, State.vget_markRows, admixRecords_foldl, ← State.audited_iff]
  cases s.audited s.cur <;> rfl

/-- FENCE stands behind the earlier fences that still hold something (R177). -/
theorem exec_fence (pred succ : BitVec 8) (sc : Scope) (h : s.me.status = .running) :
    exec (.fence pred succ sc) s = .next (s.setWave s.cur { s.me.advance 1 with
      fences := (s.me.fences.filter (fun f => f.ids.any s.outstanding)) ++
        (if succ = 0 ∨ (s.idsOf s.cur pred).length = 0 then [] else [{ succ := succ, ids := s.idsOf s.cur pred }]) }) := by
  change execFence pred succ s = _
  exact onWave_running _ h

end

/-- Settles O17: each form's next state, said once above; a FENCE adds its pair of classes to those that still hold. -/
theorem hintsAndFenceComplete : Obligations.HintsAndFenceComplete := by
  refine ⟨fun s ⟨hrun, _⟩ => ⟨⟨_, exec_yield hrun, rfl⟩, fun n hn => ?_, fun mask hn hz hd => ?_, fun mask hn ho => ?_, fun d sel hr hu => ?_,
    fun a tag hr hf hc hg => ?_⟩, fun s pred succ sc hrun => ?_⟩
  · exact ⟨_, exec_nap hrun hn, by simp, by simp, by simp, by rw [State.onlyMe, State.wave_setWave_same]⟩
  · exact ⟨_, exec_waitf_native hrun mask hn ((Wave.flagsZero_iff _ _).mpr hz) fun x hx => (Wave.takesDue_iff _ _ _).mpr (hd x hx), rfl⟩
  · exact ⟨_, exec_waitf_interlocked hrun mask hn ho, rfl⟩
  · exact exec_adrd sel hr hu
  · exact exec_admix tag hr hf hc hg
  · refine ⟨_, exec_fence pred succ sc hrun, by rw [State.onlyMe, State.wave_setWave_same], by simp, fun cls => ?_⟩
    rw [State.fenced_setWave, State.wave_setWave_same, List.any_append, List.any_filter]
    congr 1
    · exact List.any_congr rfl fun f => by cases f.ids.any s.outstanding <;> simp
    · cases hi : s.idsOf s.cur pred
      · simp
      · by_cases hs : succ = 0#8 <;> simp [hs]

end Sys2Proof.Machine
end

section
/-! O26: what the issue of a long-latency operation does (R67, R68, R77), and the issue of the special functions. -/

namespace Sys2Proof.SMap

/-- Writing `f k` at every key of a list. -/
theorem get_foldl_set {α : Type} [DecidableEq α] (d : α) (f : Nat → α) (ks : List Nat) (m : SMap α) (k : Nat) :
    get d (ks.foldl (fun m k => set d m k (f k)) m) k = if k ∈ ks then f k else get d m k := by
  induction ks generalizing m with
  | nil => simp
  | cons a t ih =>
    rw [List.foldl_cons, ih]
    by_cases hk : k = a
    · subst hk; simp
    · simp [get_set_other _ _ _ hk, hk]

end Sys2Proof.SMap

namespace Sys2Proof.Machine

theorem mem_lanesOf {m : LaneMask} {l : Nat} : l ∈ lanesOf m ↔ l < 96 ∧ m.getLsbD l = true := by simp [lanesOf]

namespace State

/-- No reason to wait stands where the flag has room and no row of the destination is blocked. -/
theorem roomReason_canIssue {s : State} {d : Dest} (h : s.canIssue d) :
    s.roomReason s.cur ||| reason 3 ((destRows s.cur d).any (s.rowBlocked s.cur)) = 0 := by
  obtain ⟨hfull, hrows⟩ := h
  have hb : (destRows s.cur d).any (s.rowBlocked s.cur) = false := by simpa using hrows
  simp [roomReason, hfull, hb, reason]

end State

/-- The wave after the issue of an operation `id` that flag `f` counts: the next word, the flag's count, the open destination. -/
def Wave.issued (w : Wave) (n id f : Nat) (d : Dest) : Wave :=
  { w.advance n with
    ll := w.ll + 1
    flags := if f < 12 then w.flags.set 0 f (w.flags.get 0 f + 1) else w.flags
    opens := if d = .none then w.opens else
      w.opens ++ [{ op := id, flag := f, vecs := (State.regsOfDest d).1, scals := (State.regsOfDest d).2 }] }

theorem Wave.issued_pc (w : Wave) (n id f : Nat) (d : Dest) : (w.issued n id f d).pc = w.pc + BitVec.ofNat 64 (4 * n) := rfl

theorem Wave.issued_flag (w : Wave) (n id : Nat) {f : Nat} (d : Dest) (h : f < 12) :
    (w.issued n id f d).flags.get 0 f = w.flags.get 0 f + 1 := by simp [issued, h]

theorem Wave.issued_opens (w : Wave) (n id f : Nat) {d : Dest} (h : d ≠ .none) :
    ∃ x ∈ (w.issued n id f d).opens, x.op = id ∧ x.flag = f ∧ x.vecs = (State.regsOfDest d).1 ∧ x.scals = (State.regsOfDest d).2 :=
  ⟨{ op := id, flag := f, vecs := (State.regsOfDest d).1, scals := (State.regsOfDest d).2 }, by simp [issued, h], rfl, rfl, rfl, rfl⟩

namespace State

section
variable (u : State) (p n : Nat) (o : Op)

/-- The operation as it goes in flight: its number, its flag, its pending rows. -/
def launched : Op := { o with id := u.nextId, flag := u.nextFlag p, rows := destRows p o.dst }

/-- The state with the operation in flight, before its rows and its wave show it. -/
def inFlight : State := { u with nextId := u.nextId + 1, ops := u.ops ++ [u.launched p o] }

theorem issueOp_eq : u.issueOp p n o =
    ((u.inFlight p o).pend u.nextId (destRows p o.dst)).modWave p (·.issued n u.nextId (u.nextFlag p) o.dst) := rfl

theorem issueOp_ops : (u.issueOp p n o).ops = u.ops ++ [u.launched p o] := by
  obtain ⟨rows, hr⟩ := (u.inFlight p o).pend_only u.nextId (destRows p o.dst)
  rw [issueOp_eq, hr]
  rfl

theorem issueOp_wave : (u.issueOp p n o).wave p = (u.wave p).issued n u.nextId (u.nextFlag p) o.dst := by
  obtain ⟨rows, hr⟩ := (u.inFlight p o).pend_only u.nextId (destRows p o.dst)
  rw [issueOp_eq, hr]
  exact wave_setWave_same ..

theorem issueOp_info (r : Nat) : (u.issueOp p n o).info r =
    if r ∈ destRows p o.dst then { u.info r with pnd := true, owner := u.nextId } else u.info r :=
  (u.inFlight p o).pend_info ..

@[simp] theorem issueOp_byte (a : Nat) : (u.issueOp p n o).byte a = u.byte a := by
  obtain ⟨rows, hr⟩ := (u.inFlight p o).pend_only u.nextId (destRows p o.dst)
  rw [issueOp_eq, hr]
  rfl

@[simp] theorem issueOp_elem (k : Nat) : (u.issueOp p n o).elem k = u.elem k := by
  obtain ⟨rows, hr⟩ := (u.inFlight p o).pend_only u.nextId (destRows p o.dst)
  rw [issueOp_eq, hr]
  rfl

end

/-- An operation that is issued on a state which agrees with `s` on what counts has been issued on `s`. -/
theorem issues_issueOp {s u : State} (n : Nat) {o : Op} (hops : u.ops = s.ops) (hid : u.nextId = s.nextId)
    (hflag : u.nextFlag s.cur = s.nextFlag s.cur) (hpc : (u.wave s.cur).pc = s.me.pc) (hflags : (u.wave s.cur).flags = s.me.flags)
    (hbyte : ∀ a, u.byte a = s.byte a) (ho : o.party = s.cur) : s.issues (u.issueOp s.cur n o) n (u.launched s.cur o) := by
  refine ⟨by rw [issueOp_ops, hops], hid, ho, hflag, rfl, ?_, fun hf => ?_, fun hd => ?_, fun r hr => ?_, fun a => ?_⟩
  · rw [issueOp_wave, Wave.issued_pc, hpc]
  · rw [issueOp_wave, ← hflags]
    exact Wave.issued_flag _ _ _ _ hf
  · rw [issueOp_wave]
    exact Wave.issued_opens _ _ _ _ hd
  · rw [issueOp_info, if_pos (show r ∈ destRows s.cur o.dst from hr)]
    exact ⟨rfl, rfl⟩
  · rw [issueOp_byte, hbyte]

@[simp] theorem markRows_nextFlag (s : State) (p q : Nat) (rows : List (Nat × Bool)) : (s.markRows p rows).nextFlag q = s.nextFlag q := by
  obtain ⟨r, h⟩ := s.markRows_only p rows; rw [h]; rfl

/-- The accesses of a form go into the metadata before it issues its operation. -/
theorem issues_markRows (s : State) (n : Nat) {o : Op} (rows : List (Nat × Bool)) (ho : o.party = s.cur) :
    s.issues ((s.markRows s.cur rows).issueOp s.cur n o) n ((s.markRows s.cur rows).launched s.cur o) := by
  obtain ⟨r, h⟩ := s.markRows_only s.cur rows
  exact issues_issueOp n (by rw [h]) (by rw [h]) (by simp) (by simp) (by simp) (by simp) ho

end State

section
variable {s : State}

/-- The operation that a special function issues, but for its number, flag and rows. -/
def specialOp (s : State) (d a : Nat) (f : Word → Word × BitVec 6) : Op :=
  { id := 0, kind := .special, party := s.cur, lid := s.me.lid, dst := .vec d false, active := s.me.activeMask, enables := s.me.enables,
    lanes := (lanesOf s.me.activeMask).map (fun l =>
      { lane := l, done := true, value := (f (s.vget s.cur a l)).1.setWidth 64, poison := s.poisoned (velem s.cur a l) }),
    conds := (lanesOf s.me.activeMask).foldl (fun c l => c.set 0 l (f (s.vget s.cur a l)).2) [] }

/-- A special function of an accepted type that nothing holds issues its operation. -/
theorem specialForm_issues {d a : Nat} (g : Fmt → Mode → FVal → Nat × BitVec 6) (ht : specialType (typeOf s.me.md) = true)
    (ho : ∀ o ∈ s.me.opens, (∀ v ∈ [a, d], v ∉ o.vecs) ∧ ∀ r ∈ ([] : List Nat), r ∉ o.scals)
    (hf : s.clear (s.inActive [a]) (s.inActive [d])) (hi : s.canIssue (.vec d false)) :
    s.specialForm s.cur d a g = (s.markRows s.cur (accesses s.cur (s.inActive [a]) (s.inActive [d]))).issueOp s.cur 1
      (specialOp s d a (specialLane g (modeOf s.me.md) (typeOf s.me.md))) := by
  obtain ⟨hfence, hwrites, hrows, hrace⟩ := hf
  unfold State.specialForm
  dsimp only
  rw [if_neg (by simp [ht]), State.opened_ready _ ho, State.unlessHeld_free _ (State.roomReason_canIssue hi)]
  refine (State.access_clear (srcs := s.inActive [a]) (dsts := s.inActive [d]) _ (by simpa using ho) hfence hwrites hrows hrace).trans ?_
  simp only [State.vget_markRows, State.poisoned_markRows]
  rfl

/-- The word of a special function runs its form. -/
theorem exec_special {i : Instr} {d a : Nat} {f : Word → Word × BitVec 6} (hrun : s.me.status = .running)
    (h : specialOf s.me i = some (d, a, f)) :
    ∃ g, f = specialLane g (modeOf s.me.md) (typeOf s.me.md) ∧ exec i s = .next (s.specialForm s.cur d a g) := by
  have runs : ∀ g, onWave s (fun p => s.specialForm p d a g) = .next (s.specialForm s.cur d a g) := fun g => onWave_running _ hrun
  unfold specialOf at h
  split at h <;> cases h
  all_goals exact ⟨_, rfl, runs _⟩

end

/-- Settles O26: the issue of the operation with the values captured from the source at issue. -/
theorem specialFunctionsIssue : Obligations.SpecialFunctionsIssue := by
  intro s i d a f hs ht ⟨hrun, ho⟩ hf hi
  obtain ⟨g, rfl, he⟩ := exec_special hrun hs
  have htype : specialType (typeOf s.me.md) = true := by rcases ht with h | h | h <;> rw [h] <;> rfl
  rw [specialForm_issues g htype ho hf hi] at he
  refine ⟨_, _, he, s.issues_markRows 1 _ rfl, rfl, rfl, rfl, ?_, fun l hl hm => ?_, fun k => by simp⟩
  · simp [State.launched, specialOp]
  · refine (SMap.get_foldl_set 0 _ _ _ _).trans ?_
    exact if_pos (mem_lanesOf.mpr ⟨hl, hm⟩)

end Sys2Proof.Machine
end

section
/-! O48: what a translation and a fetch leave, and the steps of the scheduler. -/

namespace Sys2Proof.Machine

namespace State

/-! ### What a translation changes (R279) -/

/-- A look-up fills buffers only. -/
theorem lookup_only (s : State) (c ctx va : Nat) : ∃ cs t2, (s.lookup c ctx va).2 = { s with cores := cs, tlb2 := t2 } := by
  unfold lookup
  split
  · exact ⟨_, _, rfl⟩
  split
  · exact ⟨_, _, rfl⟩
  split
  · exact ⟨_, _, rfl⟩
  split <;> exact ⟨_, _, rfl⟩

theorem translate_snd (s : State) (c ctx va : Nat) (need : Need) : (s.translate c ctx va need).2 = (s.lookup c ctx va).2 := by
  unfold translate
  generalize s.lookup c ctx va = r
  obtain ⟨(_ | _ | e), t⟩ := r
  · rfl
  · rfl
  · dsimp only
    split
    · rfl
    split
    · rfl
    split <;> rfl

/-- A translation fills buffers only. -/
theorem translate_only (s : State) (c ctx va : Nat) (need : Need) :
    ∃ cs t2, (s.translate c ctx va need).2 = { s with cores := cs, tlb2 := t2 } := by
  rw [translate_snd]
  exact s.lookup_only c ctx va

/-- `u` differs from `s` in its cores and in the second level of translation buffers at most. -/
def BuffersOnly (s u : State) : Prop := ∃ cs t2, u = { s with cores := cs, tlb2 := t2 }

theorem BuffersOnly.refl (s : State) : s.BuffersOnly s := ⟨_, _, rfl⟩

theorem BuffersOnly.trans {s u v : State} (h : s.BuffersOnly u) (h' : u.BuffersOnly v) : s.BuffersOnly v := by
  obtain ⟨cs, t2, rfl⟩ := h
  obtain ⟨ds, t3, rfl⟩ := h'
  exact ⟨ds, t3, rfl⟩

section
variable {s u : State} (h : s.BuffersOnly u)
include h

theorem BuffersOnly.wave (p : Nat) : u.wave p = s.wave p := by obtain ⟨cs, t2, rfl⟩ := h; rfl
theorem BuffersOnly.elem (k : Nat) : u.elem k = s.elem k := by obtain ⟨cs, t2, rfl⟩ := h; rfl
theorem BuffersOnly.byte (a : Nat) : u.byte a = s.byte a := by obtain ⟨cs, t2, rfl⟩ := h; rfl
theorem BuffersOnly.load (a n : Nat) : u.load a n = s.load a n := by obtain ⟨cs, t2, rfl⟩ := h; rfl

end

/-! ### Fetches (R63, R64) -/

theorem translateFetch_buffers {s u : State} {p : Nat} {a : DWord} {r : Tr} (h : s.translateFetch p a = (r, u)) : s.BuffersOnly u := by
  unfold translateFetch at h
  split at h
  · cases h; exact .refl s
  · obtain ⟨cs, t2, hu⟩ := s.translate_only (coreOf p) (s.launch (s.wave p).lid).ctx a.toNat { ex := true }
    rw [h] at hu
    exact ⟨cs, t2, hu⟩

/-- A fetch that succeeds gives the words asked for and fills buffers only. -/
theorem fetchWords_ok {p n k : Nat} {a : DWord} {s u : State} {ws : List Word} (h : s.fetchWords p n k a = (.ok ws, u)) :
    ws.length = n ∧ s.BuffersOnly u := by
  induction n generalizing k a s ws u with
  | zero => cases h; exact ⟨rfl, .refl s⟩
  | succ n ih =>
    unfold fetchWords at h
    split at h
    · cases h
    · cases h
    · next pa v hv =>
      rcases hw : v.fetchWords p n (k + 1) (a + 4) with ⟨_ | t, w⟩ <;> rw [hw] at h <;> cases h
      obtain ⟨hl, hb⟩ := ih hw
      exact ⟨by simp [hl], (translateFetch_buffers hv).trans hb⟩

theorem fetchWords_one_pa {p k pa : Nat} {a : DWord} {s u : State} (h : s.translateFetch p a = (.pa pa, u)) :
    s.fetchWords p 1 k a = (.ok [BitVec.ofNat 32 (u.load pa 4)], u) := by simp [fetchWords, h]

/-- One word is fetched where its address translates (R64). -/
theorem fetchWords_one {p k : Nat} {a : DWord} {s u : State} {ws : List Word} (h : s.fetchWords p 1 k a = (.ok ws, u)) :
    ∃ pa, (s.translate (coreOf p) (s.launch (s.wave p).lid).ctx a.toNat { ex := true }).1 = .pa pa ∧
      ws = [BitVec.ofNat 32 (s.load pa 4)] := by
  rcases hr : s.translateFetch p a with ⟨pa | _ | _, v⟩
  · rw [fetchWords_one_pa hr] at h
    cases h
    rw [(translateFetch_buffers hr).load]
    have ha : a.toNat < 2 ^ 57 := by
      by_contra hge
      rw [translateFetch_of_ge s p a (by omega)] at hr
      cases hr
    rw [translateFetch_of_lt s p a ha] at hr
    exact ⟨pa, by rw [hr], rfl⟩
  all_goals simp [fetchWords, hr] at h

/-- A fetch of words that does not succeed gives no clause. -/
theorem fetchWords_error {p n k : Nat} {a : DWord} {s u : State} {e : Fetched} (h : s.fetchWords p n k a = (.error e, u))
    (hdr : Word) (body : List Word) : e ≠ .ok hdr body := by
  induction n generalizing k a s u with
  | zero => cases h
  | succ n ih =>
    unfold fetchWords at h
    split at h
    · cases h; exact nofun
    · cases h; exact nofun
    · next pa v hv =>
      rcases hw : v.fetchWords p n (k + 1) (a + 4) with ⟨_ | t, w⟩ <;> rw [hw] at h <;> cases h
      exact ih hw

/-- A clause that is fetched has the words that its header counts (R63). -/
theorem fetchClause_ok {p : Nat} {a : DWord} {s u : State} {hdr : Word} {body : List Word} {h : ClauseHdr}
    (hf : s.fetchClause p a = (.ok hdr body, u)) (hd : decodeHeader hdr = .ok h) :
    s.BuffersOnly u ∧ body.length = h.len ∧
    ∃ pa, (s.translate (coreOf p) (s.launch (s.wave p).lid).ctx a.toNat { ex := true }).1 = .pa pa ∧ hdr = BitVec.ofNat 32 (s.load pa 4) := by
  unfold fetchClause at hf
  rcases hw : s.fetchWords p 1 0 a with ⟨e | hs, v⟩ <;> rw [hw] at hf
  · cases hf
    exact absurd rfl (fetchWords_error hw hdr body)
  obtain ⟨pa, hpa, rfl⟩ := fetchWords_one hw
  dsimp only [List.headD_cons] at hf
  rcases hg : decodeHeader (BitVec.ofNat 32 (s.load pa 4)) with e | g <;> rw [hg] at hf
  · cases hf
  dsimp only at hf
  rcases hb : v.fetchWords p g.len 1 (a + 4) with ⟨e | b, w⟩ <;> rw [hb] at hf
  · cases hf
    exact absurd rfl (fetchWords_error hb hdr body)
  obtain ⟨hlen, hbuf⟩ := fetchWords_ok hb
  dsimp only at hf
  split at hf <;> cases hf
  rw [hd] at hg
  cases hg
  exact ⟨(fetchWords_ok hw).2.trans hbuf, hlen, pa, hpa, rfl⟩

/-- A header that does not decode fails the fetch at its own word. -/
theorem fetchClause_header_error {p pa : Nat} {a : DWord} {s u : State} {e : DecodeErr} (ht : s.translateFetch p a = (.pa pa, u))
    (hd : decodeHeader (BitVec.ofNat 32 (u.load pa 4)) = .error e) : s.fetchClause p a = (.failed a 0 0x10 e.code, u) := by
  simp [fetchClause, fetchWords_one_pa ht, hd]

/-- A body that does not decode fails the fetch at the word at fault. -/
theorem fetchClause_body_error {p pa k : Nat} {a : DWord} {s u v : State} {e : DecodeErr} {h : ClauseHdr} {body : List Word}
    (ht : s.translateFetch p a = (.pa pa, u)) (hd : decodeHeader (BitVec.ofNat 32 (u.load pa 4)) = .ok h)
    (hb : u.fetchWords p h.len 1 (a + 4) = (.ok body, v))
    (hc : decodeClause (v.nativeOf p) (BitVec.ofNat 32 (u.load pa 4)) body = .error (k, e)) :
    s.fetchClause p a = (.failed (a + BitVec.ofNat 64 (4 * k)) k 0x10 e.code, v) := by
  simp only [fetchClause, fetchWords_one_pa ht, List.headD_cons, hd, hb, hc]

/-- A header beyond 57 bits misses (R113). -/
theorem fetchClause_beyond {p : Nat} {a : DWord} (s : State) (ha : 2 ^ 57 ≤ a.toNat) :
    s.fetchClause p a = (.stalled a.toNat, s.addMiss (coreOf p)
      { va := a.toNat, kind := .fetch, party := p, lid := (s.wave p).lid, pc := a, k := 0 }) := by
  simp [fetchClause, fetchWords, translateFetch_of_ge s p a ha]

/-! ### Clause issue (R63, R69, R100) -/

section
variable {s : State} {p : Nat}

theorem exec_clauseIssue (hi : (s.wave p).mayIssue = true) (hk : (s.wave p).k = 0) (ht : (s.wave p).trap = none) :
    exec (.clauseIssue p) s = .next (s.issueClause p) := by
  change execClauseIssue p s = _
  exact when_true (by simp [hi, hk, ht])

theorem issueClause_ok {u : State} {hdr : Word} {body : List Word} (hs : (s.wave p).stopReq = false)
    (hf : s.fetchClause p (s.wave p).pc = (.ok hdr body, u)) :
    s.issueClause p = (u.modWave p (fun w => { w with missed := [] })).headerWait p hdr body := by
  simp [issueClause, hs, hf]

theorem issueClause_stalled {u : State} {va : Nat} (hs : (s.wave p).stopReq = false)
    (hf : s.fetchClause p (s.wave p).pc = (.stalled va, u)) : s.issueClause p = u.faultStall p [va / 65536] := by
  simp [issueClause, hs, hf]

theorem issueClause_failed {u : State} {a : DWord} {k c d : Nat} (hs : (s.wave p).stopReq = false)
    (hf : s.fetchClause p (s.wave p).pc = (.failed a k c d, u)) : s.issueClause p = u.haltAt p a k c d := by
  simp [issueClause, hs, hf]

/-- A header whose wait is met, or of an interlocked launch, leads into the body of its clause. -/
theorem headerWait_enters {hdr : Word} {h : ClauseHdr} (body : List Word) (hd : decodeHeader hdr = .ok h)
    (hw : s.nativeOf p = false ∨ ((s.wave p).flagsZero h.wait = true ∧ ∀ x ∈ (s.wave p).due, (s.wave p).takesDue h.wait x = false)) :
    ∃ v, s.headerWait p hdr body = s.setWave p v ∧ v.hdr = hdr ∧ v.body = body ∧ v.k = 1 ∧ v.pc = (s.wave p).pc + 4 := by
  unfold headerWait
  rw [hd]
  dsimp only
  cases hn : s.nativeOf p
  · exact ⟨_, rfl, rfl, rfl, rfl, rfl⟩
  obtain ⟨hz, hdue⟩ := hw.resolve_left (by simp [hn])
  rw [if_neg (by simp), if_pos hz, closeWait_untaken _ hdue]
  refine ⟨_, (setWave_setWave ..).trans rfl, rfl, rfl, rfl, ?_⟩
  rw [modWave_eq, wave_setWave_same]
  rfl

/-- A header that names a flag which is not zero holds the wave. -/
theorem headerWait_stalls {hdr : Word} {h : ClauseHdr} (body : List Word) (hd : decodeHeader hdr = .ok h) (hn : s.nativeOf p = true)
    (hz : (s.wave p).flagsZero h.wait = false) : s.headerWait p hdr body = s.stall p 4 := by
  simp [headerWait, hd, hn, hz]

end

/-! ### What a halt leaves (R281) -/

/-- The waves and the register elements with their poison are as before. -/
def Keeps (s t : State) : Prop := t.waves = s.waves ∧ t.elems = s.elems ∧ t.bad = s.bad

theorem Keeps.refl (s : State) : s.Keeps s := ⟨rfl, rfl, rfl⟩

theorem Keeps.trans {s t u : State} (h : s.Keeps t) (h' : t.Keeps u) : s.Keeps u :=
  ⟨h'.1.trans h.1, h'.2.1.trans h.2.1, h'.2.2.trans h.2.2⟩

theorem wave_of_waves {s t : State} (h : t.waves = s.waves) (p : Nat) : t.wave p = s.wave p := by rw [wave, h, wave]

theorem Keeps.wave {s t : State} (h : s.Keeps t) (p : Nat) : t.wave p = s.wave p := wave_of_waves h.1 p
theorem Keeps.elem {s t : State} (h : s.Keeps t) (k : Nat) : t.elem k = s.elem k := by rw [State.elem, h.2.1, State.elem]

theorem Keeps.foldl {α : Type} {f : State → α → State} (hf : ∀ (s : State) a, s.Keeps (f s a)) (l : List α) (s : State) : s.Keeps (l.foldl f s) := by
  induction l generalizing s with
  | nil => exact .refl s
  | cons a l ih => exact (hf s a).trans (ih _)

theorem auditRecord_keeps (s : State) (j : Job) (verd abr : Nat) : s.Keeps (s.auditRecord j verd abr) := by
  unfold auditRecord
  split
  · exact .refl s
  · dsimp only
    obtain ⟨m, q, h⟩ := s.store_only _ _
    rw [h]
    exact .refl s

/-- An audit given up changes no wave and no register. -/
theorem abandon_keeps (s : State) (id reason : Nat) : s.Keeps (s.abandon id reason) := by
  unfold abandon
  split
  · exact .refl s
  split
  · exact .refl s
  · next j _ _ =>
    have h := s.auditRecord_keeps j 4 reason
    dsimp only
    generalize s.auditRecord j 4 reason = u at h
    exact ⟨h.1, h.2.1, h.2.2⟩

/-- The halt line changes no wave and no register. -/
theorem raiseHalt_keeps (s : State) (lid core party cause detail : Nat) (pc addr : DWord) (lanes : LaneMask) :
    s.Keeps (s.raiseHalt lid core party cause detail pc addr lanes) := by
  unfold raiseHalt
  dsimp only
  split
  · split <;> exact .refl s
  · refine (show s.Keeps _ from .refl s).trans (Keeps.foldl (fun u b => ?_) _ _)
    split
    · exact u.abandon_keeps b.job 4
    · exact .refl u

/-- A halt of a wave that runs for itself stops it at its present word and shows what it stopped for. -/
theorem halt_stops {s : State} {p : Nat} (cause detail : Nat) (lanes : LaneMask) (addr : DWord) (h : s.runOf p = .original) :
    (s.setWave p { s.wave p with
      status := .halted, active := false, reasons := 0, stop := some (cause, detail, addr, lanes), stopPc := none, stopClk := s.clock }).Keeps
      (s.halt p cause detail lanes addr) := by
  unfold halt
  rw [if_neg (by simp [h])]
  exact raiseHalt_keeps ..

theorem haltAt_stops {s : State} {p : Nat} (a : DWord) (k cause detail : Nat) (h : s.runOf p = .original) :
    let t := s.haltAt p a k cause detail
    (t.wave p).status = .halted ∧ (t.wave p).stop = some (cause, detail, 0, 0) ∧ (t.wave p).pc = a ∧ (t.wave p).k = k ∧
    ∀ x, t.elem x = s.elem x := by
  have hr : (s.modWave p (fun w => { w with pc := a, k := k })).runOf p = .original := by simpa [runOf, modWave_eq] using h
  have hk := halt_stops cause detail 0 0 hr
  intro t
  have hw : t.wave p = _ := (hk.wave p).trans (wave_setWave_same ..)
  rw [hw, modWave_eq, wave_setWave_same]
  exact ⟨rfl, rfl, rfl, rfl, hk.elem⟩

/-! ### Misses (R228, R277) -/

theorem stallAll_wave (s : State) (p : Nat) (r : BitVec 10) : (s.stallAll p r).wave p = { s.wave p with
    reasons := r, readySince := s.clock, flagWaitSince := if r.getLsbD 4 then some ((s.wave p).flagWaitSince.getD s.clock) else none } :=
  wave_setWave_same ..

/-- A wave whose access missed stays at its word and notes the pages. -/
theorem faultStall_wave (s : State) (p : Nat) (pages : List Nat) :
    ((s.faultStall p pages).wave p).pc = (s.wave p).pc ∧ ((s.faultStall p pages).wave p).k = (s.wave p).k ∧
    ((s.faultStall p pages).wave p).missed = pages := by
  simp [faultStall, demoted, modWave_eq, stall, stallAll_wave]

theorem faultStall_storage (s : State) (p : Nat) (pages : List Nat) :
    (∀ k, (s.faultStall p pages).elem k = s.elem k) ∧ (∀ a, (s.faultStall p pages).byte a = s.byte a) ∧
    ∀ c, (s.faultStall p pages).core c = s.core c := by
  simp [faultStall, demoted, stall, stallAll, modWave_eq]

theorem demoteCore_wave (s : State) (c p : Nat) : ∃ a, (s.demoteCore c).wave p = { s.wave p with active := a } := by
  simp only [demoteCore, wave]
  rw [SMap.get_mapVal {} _ s.waves p (by simp)]
  split <;> exact ⟨_, rfl⟩

theorem demoteCore_core (s : State) (c d : Nat) : (s.demoteCore c).core d = s.core d := rfl

/-- A miss is with its core, of the launch and on the page, once it is added. -/
theorem addMiss_mem (s : State) (c : Nat) (m : Miss) :
    ∃ x ∈ ((s.addMiss c m).core c).misses, x.lid = m.lid ∧ x.va / 65536 = m.va / 65536 := by
  unfold addMiss
  split
  · next h =>
    obtain ⟨x, hx, hy⟩ := List.any_eq_true.mp h
    obtain ⟨hva, hlid⟩ := Bool.and_eq_true_iff.mp hy
    exact ⟨x, hx, by simpa using hlid, by simpa using hva⟩
  · refine ⟨m, ?_, rfl, rfl⟩
    simp [demoteCore_core, modCore_eq]

/-- A miss demotes waves of the core at most. -/
theorem addMiss_wave (s : State) (c p : Nat) (m : Miss) : ∃ a, (s.addMiss c m).wave p = { s.wave p with active := a } := by
  unfold addMiss
  split
  · exact ⟨_, rfl⟩
  · exact (s.modCore c _).demoteCore_wave c p

theorem addMiss_storage (s : State) (c : Nat) (m : Miss) : (∀ k, (s.addMiss c m).elem k = s.elem k) ∧ ∀ a, (s.addMiss c m).byte a = s.byte a := by
  unfold addMiss
  split <;> exact ⟨fun _ => rfl, fun _ => rfl⟩

/-! ### Slots (R25) -/

/-- A block gives back what it holds: it is gone, and no wave changes. -/
theorem releaseBlock_frame (s : State) (b : Block) :
    (s.releaseBlock b).waves = s.waves ∧ (s.releaseBlock b).blocks = s.blocks.filter (fun x => x.id != b.id) := by
  have key : ∀ (ts : List Nat) (u : State), (ts.foldl (fun s t => s.setTag b.core t .idle) u).waves = u.waves ∧
      (ts.foldl (fun s t => s.setTag b.core t .idle) u).blocks = u.blocks := by
    intro ts
    induction ts with
    | nil => exact fun u => ⟨rfl, rfl⟩
    | cons t ts ih => exact fun u => ih (u.setTag b.core t .idle)
  exact key b.tags { s with blocks := s.blocks.filter (fun x => x.id != b.id) }

theorem ungrant_frame (s : State) (lid : Nat) : (s.ungrant lid).waves = s.waves ∧ (s.ungrant lid).blocks = s.blocks := by
  unfold ungrant
  dsimp only
  split <;> exact ⟨rfl, rfl⟩

theorem block_id (s : State) (i : Nat) : (s.block i).id = i := by
  unfold block
  cases h : s.block? i with
  | none => rfl
  | some b => simpa using List.find?_some h

end State

/-- The last slot of an ended block takes the block with it; an earlier one goes alone (R25). -/
theorem exec_slotRelease {s : State} {p : Nat} (hs : (s.wave p).status = .ended ∨ (s.wave p).status = .killed) (hq : s.waveQuiet p = true)
    (hb : (s.block (s.wave p).blk).ended = true ∧ s.lastSlot (s.block (s.wave p).blk) p = true → s.blockQuiet (s.block (s.wave p).blk) = true) :
    exec (.slotRelease p) s = .next (
      if (s.block (s.wave p).blk).ended && s.lastSlot (s.block (s.wave p).blk) p then
        if (s.block (s.wave p).blk).run = .original then
          ((s.setWave p {}).releaseBlock (s.block (s.wave p).blk)).ungrant (s.block (s.wave p).blk).lid
        else (((s.setWave p {}).releaseBlock (s.block (s.wave p).blk)).modLaunch (s.block (s.wave p).blk).lid
          (fun l => { l with prog := .ended })).ungrant (s.block (s.wave p).blk).lid
      else s.setWave p {}) := by
  change execSlotRelease p s = _
  refine when_true ?_
  have h1 : ((s.wave p).status == .ended || (s.wave p).status == .killed) = true := by simpa using hs
  have h2 : (!((s.block (s.wave p).blk).ended && s.lastSlot (s.block (s.wave p).blk) p) || s.blockQuiet (s.block (s.wave p).blk)) = true := by
    rw [Bool.or_eq_true]
    by_cases hl : (s.block (s.wave p).blk).ended = true ∧ s.lastSlot (s.block (s.wave p).blk) p = true
    · exact .inr (hb hl)
    · exact .inl (by rw [Bool.not_eq_true', ← Bool.not_eq_true, Bool.and_eq_true]; exact hl)
  simp only [h1, hq, h2, Bool.and_self]

theorem slotRelease_alone {s : State} {p : Nat} (hs : (s.wave p).status = .ended ∨ (s.wave p).status = .killed) (hq : s.waveQuiet p = true)
    (hl : ¬((s.block (s.wave p).blk).ended = true ∧ s.lastSlot (s.block (s.wave p).blk) p = true)) :
    exec (.slotRelease p) s = .next (s.setWave p {}) := by
  rw [exec_slotRelease hs hq (fun h => absurd h hl), if_neg (by simpa using hl)]

theorem slotRelease_last {s : State} {p : Nat} (hs : (s.wave p).status = .ended ∨ (s.wave p).status = .killed) (hq : s.waveQuiet p = true)
    (hl : (s.block (s.wave p).blk).ended = true ∧ s.lastSlot (s.block (s.wave p).blk) p = true)
    (hb : s.blockQuiet (s.block (s.wave p).blk) = true) :
    ∃ t, exec (.slotRelease p) s = .next t ∧ t.wave p = {} ∧ t.block? (s.wave p).blk = none := by
  have hid := s.block_id (s.wave p).blk
  rw [exec_slotRelease hs hq (fun _ => hb), if_pos (by simpa using hl)]
  generalize s.block (s.wave p).blk = b at hid
  obtain ⟨hw, hbl⟩ := (s.setWave p {}).releaseBlock_frame b
  generalize (s.setWave p {}).releaseBlock b = u at hw hbl
  have gone : ∀ t : State, t.waves = u.waves → t.blocks = u.blocks → t.wave p = {} ∧ t.block? (s.wave p).blk = none := by
    intro t h1 h2
    refine ⟨(State.wave_of_waves (h1.trans hw) p).trans (State.wave_setWave_same ..), ?_⟩
    rw [State.block?, h2, hbl, hid, List.find?_eq_none]
    intro x hx
    simpa using (List.mem_filter.mp hx).2
  split
  · exact ⟨_, rfl, gone _ (u.ungrant_frame b.lid).1 (u.ungrant_frame b.lid).2⟩
  · refine ⟨_, rfl, gone _ ?_ ?_⟩
    · exact (State.ungrant_frame _ _).1
    · exact (State.ungrant_frame _ _).2

/-! ### The sets of a pipe (R69, R127, R271) -/

theorem exec_flagWaitDemotion {s : State} {p : Nat} {since : DWord} (hr : (s.wave p).status = .running) (ha : (s.wave p).active = true)
    (hf : (s.wave p).flagWaitSince = some since) (hc : 16 ≤ (s.clock - since).toNat) :
    exec (.flagWaitDemotion p) s = .next (s.setWave p { s.wave p with active := false }) := by
  change execFlagWaitDemotion p s = _
  exact when_true (by simp [hr, ha, hf, hc, -BitVec.toNat_sub])

theorem exec_napExpiry {s : State} {p : Nat} {till : DWord} (hw : (s.wave p).wait = .nap till) (hc : till.toNat ≤ s.clock.toNat) :
    exec (.napExpiry p) s = .next (s.setWave p { s.wave p with wait := .none, reasons := 0, readySince := s.clock }) := by
  change execNapExpiry p s = _
  unfold execNapExpiry
  simp only [hw]
  exact when_true (by simpa using hc)

theorem exec_ageingDisplacement {s : State} {c q : Nat} {x y : Nat × Wave} (hx : s.oldestPending c q = some x)
    (hy : s.busiest ((s.pipeWaves c q).filter (fun x => x.2.active && !x.2.displaced)) = some y)
    (ha : 256 < (s.clock - x.2.readySince).toNat) (hc : 8 ≤ s.activeCount c q) :
    exec (.ageingDisplacement c q) s = .next ((s.setWave x.1 { x.2 with active := true, displaced := true }).setWave y.1
      { y.2 with active := false, readySince := s.clock }) := by
  change execAgeingDisplacement c q s = _
  unfold execAgeingDisplacement
  simp only [hx, hy]
  exact when_true (by simp [ha, hc, -BitVec.toNat_sub])

theorem exec_taskWaitTimeout {s : State} {c : Nat} (h : ∃ x ∈ (s.core c).tasks, x.due = false ∧ 2048 ≤ (s.clock - x.since).toNat) :
    exec (.taskWaitTimeout c) s = .next (s.modCore c (fun k => { k with
      tasks := k.tasks.map (fun x => if decide (2048 ≤ (s.clock - x.since).toNat) then { x with due := true } else x) })) := by
  obtain ⟨x, hx, hd, hl⟩ := h
  change execTaskWaitTimeout c s = _
  exact when_true (List.any_eq_true.mpr ⟨x, hx, by simp [hd, hl, -BitVec.toNat_sub]⟩)

/-! ### The parts of clause issue -/

section
variable {s : State} {p : Nat} (hi : (s.wave p).mayIssue = true) (hk : (s.wave p).k = 0) (ht : (s.wave p).trap = none)
  (hs : (s.wave p).stopReq = false)
include hi hk ht hs

/-- A fetched clause is entered when the wait of its header is met (R63, R69, R77, R100). -/
theorem clauseIssue_enters {hdr : Word} {body : List Word} {u : State} {h : ClauseHdr}
    (hf : s.fetchClause p (s.wave p).pc = (.ok hdr body, u)) (hd : decodeHeader hdr = .ok h)
    (hw : u.nativeOf p = false ∨ ((∀ f < 12, h.wait.getLsbD f = true → (s.wave p).flags.get 0 f = 0) ∧
      ∀ x ∈ (s.wave p).due, if x.closed then (s.wave p).hnd = true else ¬(x.flag < 12 ∧ h.wait.getLsbD x.flag = true))) :
    ∃ t, exec (.clauseIssue p) s = .next t ∧ (t.wave p).hdr = hdr ∧ (t.wave p).body = body ∧ (t.wave p).k = 1 ∧
      (t.wave p).pc = (s.wave p).pc + 4 ∧ (∀ k, t.elem k = s.elem k) ∧ ∀ a, t.byte a = s.byte a := by
  obtain ⟨hbuf, _, _⟩ := State.fetchClause_ok hf hd
  have hw' : (u.setWave p { u.wave p with missed := [] }).nativeOf p = false ∨
      (((u.setWave p { u.wave p with missed := [] }).wave p).flagsZero h.wait = true ∧
        ∀ x ∈ ((u.setWave p { u.wave p with missed := [] }).wave p).due,
          ((u.setWave p { u.wave p with missed := [] }).wave p).takesDue h.wait x = false) := by
    rw [State.wave_setWave_same, hbuf.wave, State.nativeOf_setWave, Wave.flagsZero_iff]
    simp only [Wave.takesDue_iff]
    rwa [State.nativeOf, hbuf.wave] at hw
  obtain ⟨v, hv, h1, h2, h3, h4⟩ := State.headerWait_enters body hd hw'
  refine ⟨_, (State.exec_clauseIssue hi hk ht).trans (congrArg _ ((State.issueClause_ok hs hf).trans hv)), ?_⟩
  rw [State.wave_setWave_same] at h4 ⊢
  exact ⟨h1, h2, h3, h4.trans (by rw [hbuf.wave]), hbuf.elem, hbuf.byte⟩

/-- While a flag that the header names is not zero the wave stays (R69). -/
theorem clauseIssue_waits {hdr : Word} {body : List Word} {u : State} {h : ClauseHdr}
    (hf : s.fetchClause p (s.wave p).pc = (.ok hdr body, u)) (hd : decodeHeader hdr = .ok h) (hn : u.nativeOf p = true)
    (hz : ¬∀ f < 12, h.wait.getLsbD f = true → (s.wave p).flags.get 0 f = 0) :
    ∃ t, exec (.clauseIssue p) s = .next t ∧ (t.wave p).pc = (s.wave p).pc ∧ (t.wave p).k = 0 ∧
      (∀ k, t.elem k = s.elem k) ∧ ∀ a, t.byte a = s.byte a := by
  obtain ⟨hbuf, _, _⟩ := State.fetchClause_ok hf hd
  have hz' : ((u.setWave p { u.wave p with missed := [] }).wave p).flagsZero h.wait = false := by
    rw [State.wave_setWave_same, hbuf.wave, ← Bool.not_eq_true]
    exact fun hh => hz ((Wave.flagsZero_iff _ _).mp hh)
  refine ⟨_, (State.exec_clauseIssue hi hk ht).trans (congrArg _ ((State.issueClause_ok hs hf).trans
    (State.headerWait_stalls body hd (by rw [State.modWave_eq, State.nativeOf_setWave]; exact hn) hz'))), ?_⟩
  rw [State.stall, State.stallAll_wave, State.modWave_eq, State.wave_setWave_same]
  exact ⟨by rw [hbuf.wave], by rw [hbuf.wave]; exact hk, hbuf.elem, hbuf.byte⟩

/-- A header at an address beyond 57 bits misses (R113). -/
theorem clauseIssue_beyond (ha : 2 ^ 57 ≤ (s.wave p).pc.toNat) : ∃ t, exec (.clauseIssue p) s = .next t ∧
    (t.wave p).pc = (s.wave p).pc ∧ (t.wave p).k = 0 ∧ (t.wave p).missed = [(s.wave p).pc.toNat / 65536] ∧
    (∃ m ∈ (t.core (coreOf p)).misses, m.lid = (s.wave p).lid ∧ m.va / 65536 = (s.wave p).pc.toNat / 65536) ∧
    (∀ k, t.elem k = s.elem k) ∧ ∀ a, t.byte a = s.byte a := by
  refine ⟨_, (State.exec_clauseIssue hi hk ht).trans (congrArg _ (State.issueClause_stalled hs (State.fetchClause_beyond s ha))), ?_⟩
  generalize hm : ({ va := (s.wave p).pc.toNat, kind := .fetch, party := p, lid := (s.wave p).lid, pc := (s.wave p).pc, k := 0 } : Miss) = m
  obtain ⟨a, hw⟩ := s.addMiss_wave (coreOf p) p m
  obtain ⟨hpc, hkk, hmiss⟩ := (s.addMiss (coreOf p) m).faultStall_wave p [(s.wave p).pc.toNat / 65536]
  obtain ⟨helem, hbyte⟩ := s.addMiss_storage (coreOf p) m
  obtain ⟨helem', hbyte', hcore⟩ := (s.addMiss (coreOf p) m).faultStall_storage p [(s.wave p).pc.toNat / 65536]
  obtain ⟨x, hx, hlid, hva⟩ := s.addMiss_mem (coreOf p) m
  refine ⟨by rw [hpc, hw], by rw [hkk, hw]; exact hk, hmiss, ?_, fun k => (helem' k).trans (helem k), fun a => (hbyte' a).trans (hbyte a)⟩
  exact ⟨x, by rw [hcore]; exact hx, by rw [hlid, ← hm], by rw [hva, ← hm]⟩

/-- A clause whose fetch fails halts the context at the word at fault. -/
theorem clauseIssue_fails {u : State} {a : DWord} {k : Nat} {e : DecodeErr} (hf : s.fetchClause p (s.wave p).pc = (.failed a k 0x10 e.code, u))
    (hr : u.runOf p = .original) (he : ∀ x, u.elem x = s.elem x) :
    ∃ t, exec (.clauseIssue p) s = .next t ∧ (t.wave p).status = .halted ∧ (t.wave p).stop = some (0x10, e.code, 0, 0) ∧
      (t.wave p).pc = a ∧ (t.wave p).k = k ∧ ∀ x, t.elem x = s.elem x := by
  obtain ⟨h1, h2, h3, h4, h5⟩ := State.haltAt_stops a k 0x10 e.code hr
  exact ⟨_, (State.exec_clauseIssue hi hk ht).trans (congrArg _ (State.issueClause_failed hs hf)), h1, h2, h3, h4, fun x => (h5 x).trans (he x)⟩

end

/-- Settles O48: each step of the scheduler by the lemma on it. -/
theorem schedulerSteps : Obligations.SchedulerSteps := by
  intro s p
  refine ⟨fun hi hk ht hs hdr body u h hf hd => ?_, fun hi hk ht hs ha => clauseIssue_beyond hi hk ht hs ha,
    fun hi hk ht hs hr ha pa htr => ⟨fun e hd => ?_, fun h body u hd hb hru he _ k e hc => ?_⟩,
    fun since hr ha hf hc => exec_flagWaitDemotion hr ha hf hc, fun till hw hc => exec_napExpiry hw hc,
    fun c q x y hx hy hne ha hc => ?_, fun c h => ?_, fun hs hq => ⟨slotRelease_alone hs hq, slotRelease_last hs hq⟩⟩
  · obtain ⟨_, hlen, hpa⟩ := State.fetchClause_ok hf hd
    exact ⟨hpa, hlen, clauseIssue_enters hi hk ht hs hf hd, clauseIssue_waits hi hk ht hs hf hd⟩
  · have hfetch := (State.translateFetch_of_lt s p _ ha).trans htr
    exact clauseIssue_fails hi hk ht hs (State.fetchClause_header_error hfetch hd) hr fun _ => rfl
  · have hfetch := (State.translateFetch_of_lt s p _ ha).trans htr
    exact clauseIssue_fails hi hk ht hs (State.fetchClause_body_error hfetch hd hb hc) hru he
  · refine ⟨_, exec_ageingDisplacement hx hy ha hc, ?_, by rw [State.wave_setWave_same]⟩
    rw [State.wave_setWave_other _ _ hne, State.wave_setWave_same]
  · refine ⟨_, exec_taskWaitTimeout h, ?_⟩
    rw [State.modCore_eq, State.core_setCore_same]
    simp

end Sys2Proof.Machine
end

section
/-! O56: the host's messages about memory, the control window and attestation, and the table walk. -/

namespace Sys2Proof.Machine

namespace State

/-! ### Answers -/

@[simp] theorem reply_byte (s : State) (m : HostMsg) (st : Nat) (pl : List Byte) (a : Nat) : (s.reply m st pl).byte a = s.byte a := by
  rw [reply_eq]; rfl
@[simp] theorem reply_elem (s : State) (m : HostMsg) (st : Nat) (pl : List Byte) (k : Nat) : (s.reply m st pl).elem k = s.elem k := by
  rw [reply_eq]; rfl
@[simp] theorem reply_window (s : State) (m : HostMsg) (st : Nat) (pl : List Byte) : (s.reply m st pl).window = s.window := by
  rw [reply_eq]
@[simp] theorem reply_stream (s : State) (m : HostMsg) (st : Nat) (pl : List Byte) (n : Nat) : (s.reply m st pl).stream n = s.stream n := by
  rw [reply_eq]; rfl
@[simp] theorem reply_core (s : State) (m : HostMsg) (st : Nat) (pl : List Byte) (c : Nat) : (s.reply m st pl).core c = s.core c := by
  rw [reply_eq]; rfl
@[simp] theorem reply_tlb2 (s : State) (m : HostMsg) (st : Nat) (pl : List Byte) : (s.reply m st pl).tlb2 = s.tlb2 := by
  rw [reply_eq]

theorem sameStorage_refl (s : State) : s.sameStorage s := ⟨fun _ => rfl, fun _ => rfl, fun _ => rfl, fun _ => rfl⟩

/-- A reply leaves the storage. -/
theorem sameStorage_reply {s t : State} (h : s.sameStorage t) (m : HostMsg) (st : Nat) (pl : List Byte) : s.sameStorage (t.reply m st pl) := by
  rw [reply_eq]
  exact h

/-- A message that its handler hears came on a module that is up. -/
theorem hears_up {s : State} {m : HostMsg} {typ sub limit : Nat} {mask : DWord} (h : s.hears m typ sub limit mask) :
    (s.modules.get {} m.module).up = true := h.2.2.1

end State

theorem HostMsg.data_length (m : HostMsg) : (HostMsg.data m).length = m.len := by simp [HostMsg.data]

/-! ### Direct memory (R225) -/

section
variable {s : State} {m : HostMsg}

theorem exec_directMemoryRead (h : s.hears m 6 0 4096 0) : exec (.directMemoryRead m) s = .next
    (s.reply m (directStatus s m.addr.toNat m.len false)
      (if directStatus s m.addr.toNat m.len false = 0 then s.bytes m.addr.toNat m.len else [])) := by
  change execDirectMemoryRead m s = _
  exact congrArg _ (State.receive_hears _ h)

theorem exec_directMemoryWrite (h : s.hears m 6 1 4096 0) : exec (.directMemoryWrite m) s = .next
    ((if directStatus s m.addr.toNat m.len true = 0 then s.store m.addr.toNat (HostMsg.data m) else s).reply m
      (directStatus s m.addr.toNat m.len true)) := by
  change execDirectMemoryWrite m s = _
  exact congrArg _ (State.receive_hears _ h)

end

section
variable {s : State} {a n : Nat} {write : Bool}

theorem directStatus_misaligned (h : a % 8 ≠ 0 ∨ n % 8 ≠ 0) : directStatus s a n write = 3 := if_pos h

theorem directStatus_beyond (ha : a % 8 = 0) (hn : n % 8 = 0) (h : memTop < a + n) : directStatus s a n write = 1 := by
  rw [directStatus, if_neg (by omega), if_pos h]

theorem directStatus_locked (ha : a % 8 = 0) (hn : n % 8 = 0) (h : a + n ≤ memTop) (hl : s.codeLocked a n = true) :
    directStatus s a n true = 2 := by
  rw [directStatus, if_neg (by omega), if_neg (by omega), if_pos (by simpa using hl)]

theorem directStatus_ok (ha : a % 8 = 0) (hn : n % 8 = 0) (h : a + n ≤ memTop) (hl : write = true → s.codeLocked a n = false) :
    directStatus s a n write = 0 := by
  rw [directStatus, if_neg (by omega), if_neg (by omega), if_neg]
  cases write <;> simp_all

end

/-- A direct read answers the bytes of its range, or refuses it (R225). -/
theorem directRead_effect {s : State} {m : HostMsg} (h : s.hears m 6 0 4096 0) :
    let a := m.addr.toNat
    (a % 8 ≠ 0 ∨ m.len % 8 ≠ 0 → exec (.directMemoryRead m) s = .next (s.reply m 3)) ∧
    (a % 8 = 0 → m.len % 8 = 0 → memTop < a + m.len → exec (.directMemoryRead m) s = .next (s.reply m 1)) ∧
    (a % 8 = 0 → m.len % 8 = 0 → a + m.len ≤ memTop →
      ∃ t, exec (.directMemoryRead m) s = .next t ∧ t.answers m 0 (s.bytes a m.len) ∧ s.sameStorage t) := by
  refine ⟨fun hx => ?_, fun ha hn hx => ?_, fun ha hn hx => ?_⟩ <;> rw [exec_directMemoryRead h]
  · rw [directStatus_misaligned hx]; rfl
  · rw [directStatus_beyond ha hn hx]; rfl
  · rw [directStatus_ok ha hn hx (by simp), if_pos rfl]
    exact ⟨_, rfl, State.reply_answers _ _ (State.hears_up h), State.sameStorage_reply s.sameStorage_refl ..⟩

/-- A direct write stores its bytes, or is refused (R64, R225). -/
theorem directWrite_effect {s : State} {m : HostMsg} (h : s.hears m 6 1 4096 0) :
    let a := m.addr.toNat
    (a % 8 ≠ 0 ∨ m.len % 8 ≠ 0 → exec (.directMemoryWrite m) s = .next (s.reply m 3)) ∧
    (a % 8 = 0 → m.len % 8 = 0 → memTop < a + m.len → exec (.directMemoryWrite m) s = .next (s.reply m 1)) ∧
    (a % 8 = 0 → m.len % 8 = 0 → a + m.len ≤ memTop → s.codeLocked a m.len = true → exec (.directMemoryWrite m) s = .next (s.reply m 2)) ∧
    (a % 8 = 0 → m.len % 8 = 0 → a + m.len ≤ memTop → s.codeLocked a m.len = false →
      ∃ t, exec (.directMemoryWrite m) s = .next t ∧ t.answers m 0 ∧ (∀ i < m.len, t.byte (a + i) = (HostMsg.data m).getD i 0) ∧
        (∀ y, y < a ∨ a + m.len ≤ y → t.byte y = s.byte y) ∧ ∀ k, t.elem k = s.elem k) := by
  refine ⟨fun hx => ?_, fun ha hn hx => ?_, fun ha hn hx hl => ?_, fun ha hn hx hl => ?_⟩ <;> rw [exec_directMemoryWrite h]
  · rw [directStatus_misaligned hx]; rfl
  · rw [directStatus_beyond ha hn hx]; rfl
  · rw [directStatus_locked ha hn hx hl]; rfl
  · rw [directStatus_ok ha hn hx fun _ => hl, if_pos rfl]
    obtain ⟨mm, q, hst⟩ := s.store_only m.addr.toNat (HostMsg.data m)
    refine ⟨_, rfl, State.reply_answers _ _ (by rw [hst]; exact State.hears_up h), fun i hi => ?_, fun y hy => ?_, fun k => ?_⟩
    · rw [State.reply_byte, State.store_byte, HostMsg.data_length, if_pos (by omega), Nat.add_sub_cancel_left]
    · rw [State.reply_byte, State.store_byte, HostMsg.data_length, if_neg (by omega)]
    · rw [State.reply_elem, hst]; rfl

/-! ### Reads of the control window (R301, R323) -/

section
variable {s : State} {m : HostMsg}

/-- An aligned read within one region of the window answers its bytes. -/
theorem exec_controlWindowRead (h : s.hears m 6 2 4096 0) (ha : m.addr.toNat % 8 = 0) (hn : m.len % 8 = 0)
    (hr : ∃ b ∈ readRegions, b.1 ≤ m.addr.toNat ∧ m.addr.toNat + m.len ≤ b.2) :
    exec (.controlWindowRead m) s = .next (s.reply m 0 ((List.range m.len).map (fun i => s.windowByte (m.addr.toNat + i)))) := by
  obtain ⟨b, hb, h1, h2⟩ := hr
  change execControlWindowRead m s = _
  unfold execControlWindowRead
  rw [State.receive_hears _ h, if_neg (by omega), if_pos (List.any_eq_true.mpr ⟨b, hb, by simp [h1, h2]⟩)]

/-- No block of the window meets the audit counters. -/
theorem windowBlocks_apart : ∀ b ∈ windowBlocks, b.1 + b.2.1 * b.2.2 ≤ 0x21040 ∨ 0x21090 ≤ b.1 := by decide

theorem windowByte_block {a : Nat} (h : a < 0x21040 ∨ 0x21090 ≤ a) : s.windowByte a = s.window.get 0 a := if_neg (by omega)

theorem auditCounters_length : s.auditCounters.length = 80 := by
  simp [State.auditCounters, leBytes_length, Function.comp_def]

/-- A read inside a block answers what was written there. -/
theorem windowRead_block (h : s.hears m 6 2 4096 0) {b : Nat × Nat × Nat} (hb : b ∈ windowBlocks) (ha : m.addr.toNat % 8 = 0)
    (hn : m.len % 8 = 0) (h1 : b.1 ≤ m.addr.toNat) (h2 : m.addr.toNat + m.len ≤ b.1 + b.2.1 * b.2.2) :
    ∃ t, exec (.controlWindowRead m) s = .next t ∧ s.sameStorage t ∧
      t.answers m 0 ((List.range m.len).map (fun i => s.window.get 0 (m.addr.toNat + i))) := by
  have hregion : (b.1, b.1 + b.2.1 * b.2.2) ∈ readRegions := List.mem_append_left _ (List.mem_map.mpr ⟨b, hb, rfl⟩)
  have hbytes : (List.range m.len).map (fun i => s.windowByte (m.addr.toNat + i)) =
      (List.range m.len).map (fun i => s.window.get 0 (m.addr.toNat + i)) := by
    refine List.map_congr_left fun i hi => windowByte_block ?_
    have := List.mem_range.mp hi
    rcases windowBlocks_apart b hb with hx | hx <;> omega
  rw [exec_controlWindowRead h ha hn ⟨_, hregion, h1, h2⟩, hbytes]
  exact ⟨_, rfl, State.sameStorage_reply s.sameStorage_refl .., State.reply_answers _ _ (State.hears_up h)⟩

/-- The audit counters are read at their place. -/
theorem windowRead_counters (h : s.hears m 6 2 4096 0) (ha : m.addr.toNat = 0x21040) (hn : m.len = 80) :
    ∃ t, exec (.controlWindowRead m) s = .next t ∧ s.sameStorage t ∧ t.answers m 0 s.auditCounters := by
  have hbytes : (List.range 80).map (fun i => s.windowByte (0x21040 + i)) = s.auditCounters := by
    refine List.ext_getElem (by simp [auditCounters_length]) fun i h1 h2 => ?_
    rw [auditCounters_length] at h2
    rw [List.getElem_map, List.getElem_range, State.windowByte, if_pos (by omega), Nat.add_sub_cancel_left]
    exact (List.getElem_eq_getD _).symm
  rw [exec_controlWindowRead h (by omega) (by omega) ⟨(0x21040, 0x21090), by decide, by omega, by omega⟩, hn, ha, hbytes]
  exact ⟨_, rfl, State.sameStorage_reply s.sameStorage_refl .., State.reply_answers _ _ (State.hears_up h)⟩

end

/-! ### Writes of the control window (R229, R279, R302, R323) -/

/-- The bases and sizes of the blocks are multiples of 8. -/
theorem windowBlocks_aligned : ∀ b ∈ windowBlocks, b.1 % 8 = 0 ∧ b.2.1 % 8 = 0 := by decide

/-- A block that starts at an offset starts at a multiple of 8, and takes a multiple of 8. -/
theorem windowBlock_aligned {a region n first size : Nat} (h : windowBlock? a = some (region, n, first, size)) :
    first % 8 = 0 ∧ size % 8 = 0 := by
  unfold windowBlock? at h
  obtain ⟨b, hb, he⟩ := Option.map_eq_some_iff.mp h
  obtain ⟨h1, h2⟩ := windowBlocks_aligned b (List.mem_of_find?_eq_some hb)
  cases he
  refine ⟨?_, h2⟩
  rw [Nat.add_mod, Nat.mul_mod, h1, h2]
  simp

namespace State

/-- The window with a block written at an offset. -/
def putWindow (s : State) (first : Nat) (bs : List Byte) : State :=
  { s with window := bs.zipIdx.foldl (fun w b => w.set 0 (first + b.2) b.1) s.window }

theorem zipIdx_foldl_set (bs : List Byte) (w : SMap Byte) (first k x : Nat) :
    ((bs.zipIdx k).foldl (fun w b => w.set 0 (first + b.2) b.1) w).get 0 x =
      if first + k ≤ x ∧ x < first + k + bs.length then bs.getD (x - (first + k)) 0 else w.get 0 x := by
  induction bs generalizing w k with
  | nil => simp
  | cons b t ih =>
    rw [List.zipIdx_cons, List.foldl_cons, ih]
    by_cases hx : x = first + k
    · subst hx
      rw [if_neg (by omega), if_pos (by simp), SMap.get_set_same]
      simp
    · rw [SMap.get_set_other _ _ _ hx]
      by_cases hi : first + (k + 1) ≤ x ∧ x < first + (k + 1) + t.length
      · rw [if_pos hi, if_pos (by simp only [List.length_cons]; omega), show x - (first + k) = (x - (first + (k + 1))) + 1 by omega,
          List.getD_cons_succ]
      · rw [if_neg hi, if_neg (by simp only [List.length_cons]; omega)]

/-- The bytes of the block stand in the window, and no other changes. -/
theorem putWindow_get (s : State) (first x : Nat) (bs : List Byte) : (s.putWindow first bs).window.get 0 x =
    if first ≤ x ∧ x < first + bs.length then bs.getD (x - first) 0 else s.window.get 0 x := zipIdx_foldl_set bs s.window first 0 x

/-- What a block does touches neither the window nor the storage. -/
theorem clearQuarantine_only (s : State) (mask : Nat) : ∃ cs, s.clearQuarantine mask = { s with cores := cs } := by
  unfold clearQuarantine
  generalize List.range 48 = l
  induction l generalizing s with
  | nil => exact ⟨_, rfl⟩
  | cons c l ih =>
    rw [List.foldl_cons]
    split
    · obtain ⟨cs, h⟩ := ih (s.modCore c _)
      exact ⟨cs, h⟩
    · exact ih s

theorem windowEffect_frame (s : State) (region n : Nat) (bs : List Byte) :
    s.sameStorage (s.windowEffect region n bs) ∧ (s.windowEffect region n bs).window = s.window ∧
    (s.windowEffect region n bs).modules = s.modules := by
  unfold windowEffect
  split
  · exact ⟨s.sameStorage_refl, rfl, rfl⟩
  split
  · exact ⟨s.sameStorage_refl, rfl, rfl⟩
  split
  · exact ⟨s.sameStorage_refl, rfl, rfl⟩
  split
  · exact ⟨s.sameStorage_refl, rfl, rfl⟩
  split
  · exact ⟨s.sameStorage_refl, rfl, rfl⟩
  split
  · obtain ⟨cs, h⟩ := s.clearQuarantine_only (fieldAt bs 0 8)
    rw [h]
    exact ⟨s.sameStorage_refl, rfl, rfl⟩
  · exact ⟨s.sameStorage_refl, rfl, rfl⟩

/-! A stream table entry opens its stream (R229, R232). -/

/-- The sources that a block gives: of each kind that is not none, at 0 and not idle. -/
theorem openSources_get (kind : Nat → SourceKind) (now : DWord) (xs : List Nat) (m : SMap Source) (x : Nat) :
    ((xs.map (fun i => (i, kind i))).foldl (fun (m : SMap Source) x => if x.2 = .none then m else m.set {} x.1 { kind := x.2, last := now }) m).get {} x =
      if x ∈ xs ∧ kind x ≠ .none then { kind := kind x, last := now } else m.get {} x := by
  induction xs generalizing m with
  | nil => simp
  | cons a t ih =>
    rw [List.map_cons, List.foldl_cons, ih]
    by_cases hx : x = a
    · subst hx
      by_cases hk : kind x = .none <;> simp [hk]
    · by_cases hk : kind a = .none <;> simp [hk, hx, SMap.get_set_other]

/-- Every source of an opened stream starts at 0 and is not idle, and the stream's W is 0. -/
theorem openStream_stream (s : State) (n : Nat) (bs : List Byte) : ((s.openStream n bs).stream n).w = 0 ∧
    ∀ x < 16, let o : Source := ((s.openStream n bs).stream n).srcs.get {} x
      o.kind = (sourceKindOf bs x).getD .none ∧ o.ws = 0 ∧ o.idle = false := by
  unfold openStream
  rw [stream_modStream_same]
  refine ⟨rfl, fun x hx => ?_⟩
  dsimp only
  rw [openSources_get (fun i => (sourceKindOf bs i).getD .none)]
  by_cases hk : (sourceKindOf bs x).getD .none = .none
  · simp [hk, SMap.get]
  · simp [hk, hx]

/-! An invalidation leaves no entry for its page (R279). -/

theorem invalidate_core (s : State) (ctx bits va c : Nat) : ((s.invalidate ctx bits va).core c).tlb = (s.core c).tlb.filter
    (fun e => !(e.ctx == ctx && e.va / 2 ^ (max bits e.bits) == va / 2 ^ (max bits e.bits))) := by
  unfold invalidate core
  dsimp only
  rw [SMap.get_mapVal {} _ s.cores c (by simp)]

theorem invalidate_tlb2 (s : State) (ctx bits va c : Nat) : (s.invalidate ctx bits va).tlb2.get [] c = (s.tlb2.get [] c).filter
    (fun e => !(e.ctx == ctx && e.va / 2 ^ (max bits e.bits) == va / 2 ^ (max bits e.bits))) := by
  unfold invalidate
  dsimp only
  rw [SMap.get_mapVal [] _ s.tlb2 c (by simp)]

theorem invalidate_gone (s : State) (ctx bits va c : Nat) :
    ∀ e ∈ ((s.invalidate ctx bits va).core c).tlb ++ (s.invalidate ctx bits va).tlb2.get [] c,
      ¬(e.ctx = ctx ∧ e.va / 2 ^ max bits e.bits = va / 2 ^ max bits e.bits) := by
  intro e he
  rw [invalidate_core, invalidate_tlb2, ← List.filter_append] at he
  exact fun ⟨hctx, hva⟩ => by simpa [hctx, hva] using (List.mem_filter.mp he).2

/-! The quarantine mask clears the quarantines it names with their scores (R302). -/

/-- A core before and after: cleared where it is named and in quarantine. -/
theorem clearQuarantine_core (s : State) (mask c : Nat) (hc : c < 48) : (s.clearQuarantine mask).core c =
    if (bitOf mask c && (s.core c).quar) = true then { s.core c with quar := false, score := 0 } else s.core c := by
  have key : ∀ (l : List Nat) (s : State), l.Nodup → (l.foldl (fun s c =>
      if bitOf mask c && (s.core c).quar then s.modCore c (fun k => { k with quar := false, score := 0 }) else s) s).core c =
      if c ∈ l ∧ (bitOf mask c && (s.core c).quar) = true then { s.core c with quar := false, score := 0 } else s.core c := by
    intro l
    induction l with
    | nil => intro s _; simp
    | cons a t ih =>
      intro s hn
      obtain ⟨ha, ht⟩ := List.nodup_cons.mp hn
      rw [List.foldl_cons, ih _ ht]
      by_cases hca : c = a
      · subst hca
        by_cases hq : (bitOf mask c && (s.core c).quar) = true
        · simp [hq, ha, modCore_eq]
        · simp [hq, ha]
      · have hcore : (if bitOf mask a && (s.core a).quar then s.modCore a (fun k => { k with quar := false, score := 0 }) else s).core c =
            s.core c := by
          split
          · rw [modCore_eq, core_setCore_other _ _ hca]
          · rfl
        rw [hcore]
        simp [hca]
  rw [clearQuarantine, key _ s List.nodup_range]
  simp [hc]

theorem clearQuarantine_clears (s : State) {mask c : Nat} (hc : c < 48) (hm : bitOf mask c = true) :
    ((s.clearQuarantine mask).core c).quar = false ∧ ((s.core c).quar = true → ((s.clearQuarantine mask).core c).score = 0) := by
  rw [clearQuarantine_core s mask c hc]
  cases hq : (s.core c).quar <;> simp [hm, hq]

end State

section
variable {s : State} {m : HostMsg} {i : Instr} {region n size : Nat}
  (hi : i ∈ [Instr.controlWindowWrite m, .streamTableWrite m, .tlbInvalidation m, .quarantineClear m])
  (hh : s.hears m 6 3 4096 0) (hb : windowBlock? m.addr.toNat = some (region, n, m.addr.toNat, size)) (hl : m.len = size)
include hi

/-- The four names of a block's write do the same. -/
theorem exec_windowWrite : exec i s = .next (s.windowWrite m) := by
  simp only [List.mem_cons, List.not_mem_nil, or_false] at hi
  rcases hi with rfl | rfl | rfl | rfl <;> rfl

include hh hb hl

/-- A block with a field out of its range is refused whole. -/
theorem windowWrite_refused (ho : windowOk region (HostMsg.data m) = false) : exec i s = .next (s.reply m 3) := by
  obtain ⟨h1, h2⟩ := windowBlock_aligned hb
  rw [exec_windowWrite hi, State.windowWrite, State.receive_hears _ hh, if_neg (by omega)]
  simp only [hb]
  rw [if_pos (by simp [ho])]

/-- Any other is written, and takes effect. -/
theorem windowWrite_taken (ho : windowOk region (HostMsg.data m) = true) : exec i s = .next
    (((s.putWindow m.addr.toNat (HostMsg.data m)).windowEffect region n (HostMsg.data m)).reply m 0) := by
  obtain ⟨h1, h2⟩ := windowBlock_aligned hb
  rw [exec_windowWrite hi, State.windowWrite, State.receive_hears _ hh, if_neg (by omega)]
  simp only [hb]
  rw [if_neg (by simp [ho, hl])]
  rfl

theorem windowWrite_effect (ho : windowOk region (HostMsg.data m) = true) : let data := HostMsg.data m
    ∃ t, exec i s = .next t ∧ t.answers m 0 ∧ s.sameStorage t ∧
      (∀ j < size, t.window.get 0 (m.addr.toNat + j) = data.getD j 0) ∧
      (∀ j, j < m.addr.toNat ∨ m.addr.toNat + size ≤ j → t.window.get 0 j = s.window.get 0 j) ∧
      (region = 0 → (t.stream n).w = 0 ∧ ∀ x < 16, let o : Source := (t.stream n).srcs.get {} x
        o.kind = (sourceKindOf data x).getD .none ∧ o.ws = 0 ∧ o.idle = false) ∧
      (region = 0x11000 → ∀ c, ∀ e ∈ (t.core c).tlb ++ t.tlb2.get [] c, let bits := max (fieldAt data 4 4) e.bits
        ¬(e.ctx = fieldAt data 0 4 ∧ e.va / 2 ^ bits = fieldAt data 8 8 / 2 ^ bits)) ∧
      (region = 0x22000 → ∀ c < 48, bitOf (fieldAt data 0 8) c = true → (t.core c).quar = false ∧
        ((s.core c).quar = true → (t.core c).score = 0)) := by
  intro data
  have hlen : data.length = size := (HostMsg.data_length m).trans hl
  rw [windowWrite_taken hi hh hb hl ho]
  have hget := s.putWindow_get m.addr.toNat (bs := data)
  have hcore : ∀ c, (s.putWindow m.addr.toNat data).core c = s.core c := fun _ => rfl
  have hstore : s.sameStorage (s.putWindow m.addr.toNat data) := s.sameStorage_refl
  have hmods : (s.putWindow m.addr.toNat data).modules = s.modules := rfl
  show ∃ t, Host.Outcome.next (((s.putWindow m.addr.toNat data).windowEffect region n data).reply m 0) = .next t ∧ _
  generalize s.putWindow m.addr.toNat data = u at hget hcore hstore hmods
  obtain ⟨hs, hw, hm⟩ := u.windowEffect_frame region n data
  refine ⟨_, rfl, State.reply_answers _ _ (by rw [hm, hmods]; exact State.hears_up hh), State.sameStorage_reply ?_ .., fun j hj => ?_,
    fun j hj => ?_, fun hr => ?_, fun hr c => ?_, fun hr c hc hbit => ?_⟩
  · obtain ⟨a1, a2, a3, a4⟩ := hs
    obtain ⟨b1, b2, b3, b4⟩ := hstore
    exact ⟨fun k => (a1 k).trans (b1 k), fun k => (a2 k).trans (b2 k), fun r => (a3 r).trans (b3 r), fun x => (a4 x).trans (b4 x)⟩
  · rw [State.reply_window, hw, hget, if_pos (by omega), Nat.add_sub_cancel_left]
  · rw [State.reply_window, hw, hget, if_neg (by omega)]
  · rw [State.reply_stream, State.windowEffect, if_pos hr]
    exact u.openStream_stream n data
  · rw [State.reply_core, State.reply_tlb2, State.windowEffect, if_neg (by omega), if_pos hr]
    exact u.invalidate_gone _ _ _ c
  · rw [State.reply_core, ← hcore]
    subst hr
    exact u.clearQuarantine_clears hc hbit

end

/-! ### Attestation (R327) -/

theorem attested_length (s : State) (nonce : List Byte) (h : nonce.length = 32) : (attested s nonce).length = 448 := by
  simp only [attested, List.length_append, leBytes_length, h, List.length_flatMap, List.map_const', List.length_range, List.sum_replicate]
  rfl

theorem exec_attestation {s : State} {m : HostMsg} (h : s.hears m 6 4 32 0) (hl : m.len = 32) :
    exec (.attestation m) s = .next (s.reply m 0 (attested s (HostMsg.data m) ++
      leBytes 64 (Ed25519.sign (Config.identitySeed s.running.svn) (attested s (HostMsg.data m))).toNat)) := by
  change execAttestation m s = _
  unfold execAttestation
  rw [State.receive_hears _ h, if_neg (by simp [hl])]

end Sys2Proof.Machine
end

section
/-! O56: the table walk, level by level (R279, R280), and the statement assembled. -/

namespace Sys2Proof.Machine

/-! ### The fields of a table entry, as the statement names them -/

/-- The index of an address in the table of a level. -/
def slotOfLevel (va l : Nat) : Nat := if l = 0 then va / 65536 % 32 else va / 2 ^ (12 + 9 * l) % 512

theorem levelIndex_eq (va : Nat) {l : Nat} (h : l ≤ 4) : levelIndex va l = slotOfLevel va l := by
  interval_cases l <;> rfl

/-- The page that a leaf of a level maps. -/
def leafPage (l : Nat) : Nat := if l = 2 then 2 ^ 30 else if l = 1 then 2 ^ 21 else 65536

/-- The address that an entry holds. -/
def entryAddr (e : Nat) : Nat := e / 256 % 2 ^ 31 * 256

/-- An entry with a reserved bit, or with an address outside device memory. -/
def StrayEntry (e : Nat) : Prop := e / 2 ^ 39 ≠ 0 ∨ e / 32 % 8 ≠ 0 ∨ memTop ≤ entryAddr e

theorem strayEntry_iff {e : Nat} (h : e < 2 ^ 64) :
    (bitsOf e 63 39 ≠ 0 ∨ bitsOf e 7 5 ≠ 0 ∨ memTop ≤ bitsOf e 38 8 * 256) ↔ StrayEntry e := by
  have htop : bitsOf e 63 39 = e / 2 ^ 39 := Nat.mod_eq_of_lt (by omega)
  rw [htop]
  rfl

namespace State

/-- The entry of a table for an address. -/
def tableEntry (s : State) (va l table : Nat) : Nat := leNat (s.bytes (table + 8 * slotOfLevel va l) 8)

theorem tableEntry_lt (s : State) (va l table : Nat) : s.tableEntry va l table < 2 ^ 64 := by
  have h := leNat_lt (s.bytes (table + 8 * slotOfLevel va l) 8)
  simpa [tableEntry, State.bytes] using h

/-- The entry of a level points to the table of the level below. -/
def EntryPoints (s : State) (va l table next : Nat) : Prop := let e := s.tableEntry va l table
  l ≠ 0 ∧ bitOf e 0 = true ∧ bitOf e 1 = false ∧ ¬StrayEntry e ∧ entryAddr e = next ∧ next % (if l = 1 then 256 else 4096) = 0

/-- A valid entry that is no leaf and no pointer of its level. -/
def EntryMalformed (s : State) (va l table : Nat) : Prop := let e := s.tableEntry va l table
  bitOf e 0 = true ∧ (StrayEntry e ∨ (bitOf e 1 = true ∧ (3 ≤ l ∨ entryAddr e % leafPage l ≠ 0)) ∨
    (bitOf e 1 = false ∧ (l = 0 ∨ entryAddr e % (if l = 1 then 256 else 4096) ≠ 0)))

/-- The mapping of a leaf. -/
def leafOf (s : State) (ctx va l table : Nat) : TlbEntry := let e := s.tableEntry va l table
  { ctx := ctx, va := va / leafPage l * leafPage l, bits := if l = 2 then 30 else if l = 1 then 21 else 16, pa := entryAddr e,
    ex := bitOf e 4, wr := bitOf e 3, rd := bitOf e 2 }

section
variable (s : State) (ctx va : Nat)

/-- One level of the walk. -/
theorem walkFrom_eq {l : Nat} (table : Nat) (hl : l ≤ 4) : s.walkFrom ctx va l table =
    (if !bitOf (s.tableEntry va l table) 0 then .ok none
     else if bitsOf (s.tableEntry va l table) 63 39 ≠ 0 ∨ bitsOf (s.tableEntry va l table) 7 5 ≠ 0 ∨
       memTop ≤ bitsOf (s.tableEntry va l table) 38 8 * 256 then .error ()
     else if bitOf (s.tableEntry va l table) 1 then
       if 3 ≤ l ∨ entryAddr (s.tableEntry va l table) % leafPage l ≠ 0 then .error () else .ok (some (s.leafOf ctx va l table))
     else if l = 0 then .error ()
     else if entryAddr (s.tableEntry va l table) % (if l = 1 then 256 else 4096) ≠ 0 then .error ()
     else s.walkFrom ctx va (l - 1) (entryAddr (s.tableEntry va l table))) := by
  have he : s.load (table + 8 * levelIndex va l) 8 = s.tableEntry va l table := by rw [levelIndex_eq va hl]; rfl
  rw [walkFrom.eq_def]
  simp only [he]
  interval_cases l <;> rfl

theorem walkFrom_invalid {l table : Nat} (hl : l ≤ 4) (h : bitOf (s.tableEntry va l table) 0 = false) :
    s.walkFrom ctx va l table = .ok none := by
  rw [walkFrom_eq s ctx va table hl, h]
  rfl

theorem walkFrom_malformed {l table : Nat} (hl : l ≤ 4) (h : s.EntryMalformed va l table) : s.walkFrom ctx va l table = .error () := by
  obtain ⟨hv, hm⟩ := h
  rw [walkFrom_eq s ctx va table hl, hv, if_neg (by simp)]
  by_cases hs : StrayEntry (s.tableEntry va l table)
  · rw [if_pos ((strayEntry_iff (s.tableEntry_lt va l table)).mpr hs)]
  rw [if_neg (fun h => hs ((strayEntry_iff (s.tableEntry_lt va l table)).mp h))]
  rcases hm with hm | ⟨hleaf, hm⟩ | ⟨hleaf, hm⟩
  · exact absurd hm hs
  · rw [if_pos hleaf, if_pos hm]
  · rw [if_neg (by simp [hleaf])]
    rcases hm with rfl | hm
    · rfl
    · split <;> rfl

theorem walkFrom_leaf {l table : Nat} (hl : l ≤ 4) (hv : bitOf (s.tableEntry va l table) 0 = true) (hm : ¬s.EntryMalformed va l table)
    (hleaf : bitOf (s.tableEntry va l table) 1 = true) : s.walkFrom ctx va l table = .ok (some (s.leafOf ctx va l table)) := by
  rw [walkFrom_eq s ctx va table hl, if_neg (by simp [hv]),
    if_neg (fun h => hm ⟨hv, .inl ((strayEntry_iff (s.tableEntry_lt va l table)).mp h)⟩), if_pos hleaf,
    if_neg (fun h => hm ⟨hv, .inr (.inl ⟨hleaf, h⟩)⟩)]

/-- An entry that points to the table below leads there. -/
theorem walkFrom_points {l table next : Nat} (hl : l ≤ 4) (h : s.EntryPoints va l table next) :
    s.walkFrom ctx va l table = s.walkFrom ctx va (l - 1) next := by
  obtain ⟨h0, hv, hleaf, hs, rfl, hal⟩ := h
  rw [walkFrom_eq s ctx va table hl, if_neg (by simp [hv]), if_neg (fun h => hs ((strayEntry_iff (s.tableEntry_lt va l table)).mp h)),
    if_neg (by simp [hleaf]), if_neg h0, if_neg (not_not_intro hal)]

/-- A chain of pointers from the top down to a level leads the walk there. -/
theorem walkFrom_chain {l : Nat} (table : Nat → Nat) (h : ∀ j, l < j → j ≤ 4 → s.EntryPoints va j (table j) (table (j - 1))) (n : Nat)
    (hn : l ≤ n) (h4 : n ≤ 4) : s.walkFrom ctx va n (table n) = s.walkFrom ctx va l (table l) := by
  induction n, hn using Nat.le_induction with
  | base => rfl
  | succ n hn ih => exact (s.walkFrom_points ctx va h4 (h (n + 1) (by omega) h4)).trans (ih (by omega))

end

/-! ### Translation (R280) -/

/-- What a mapping gives an access: its address, or the permission that it lacks. -/
def permitted (s : State) (need : Need) (va : Nat) (e : TlbEntry) : Tr :=
  let pa := e.pa + va % 2 ^ e.bits
  if need.rd = true ∧ e.rd = false then .bad 0x17 0
  else if need.wr = true ∧ (e.wr = false ∨ s.codeLocked pa 1 = true) then .bad 0x17 1
  else if need.ex = true ∧ e.ex = false then .bad 0x17 2 else .pa pa

section
variable {s u : State} {c ctx va : Nat} (need : Need)

theorem translate_miss (h : s.lookup c ctx va = (.ok none, u)) : s.translate c ctx va need = (.miss, u) := by simp [translate, h]

theorem translate_error (h : s.lookup c ctx va = (.error (), u)) : s.translate c ctx va need = (.bad 0x18 1, u) := by simp [translate, h]

theorem translate_hit {e : TlbEntry} (h : s.lookup c ctx va = (.ok (some e), u)) : s.translate c ctx va need = (s.permitted need va e, u) := by
  have hi : ∀ pa, u.codeLocked pa 1 = s.codeLocked pa 1 := fun pa => by
    obtain ⟨cs, t2, hb⟩ := s.lookup_only c ctx va
    rw [h] at hb
    subst hb
    rfl
  unfold translate permitted
  simp only [h, hi, Bool.not_eq_true', Bool.or_eq_true]
  split
  · rfl
  split
  · rfl
  split <;> rfl

theorem lookup_rootless (h : s.rootOf ctx = 0) : s.lookup c ctx va = (.ok none, s) := if_pos h

theorem lookup_core {e : TlbEntry} (hr : s.rootOf ctx ≠ 0) (h : hitIn (s.core c).tlb ctx va = some e) :
    s.lookup c ctx va = (.ok (some e), s) := by
  rw [lookup, if_neg hr]
  simp only [h]

variable (hr : s.rootOf ctx ≠ 0) (h1 : hitIn (s.core c).tlb ctx va = none) (h2 : hitIn (s.tlb2.get [] (dieOf c)) ctx va = none)
include hr h1 h2

theorem lookup_none (hw : s.walkFrom ctx va 4 (s.rootOf ctx) = .ok none) : s.lookup c ctx va = (.ok none, s) := by
  rw [lookup, if_neg hr]
  simp only [h1, h2, walk, if_neg hr, hw]

theorem lookup_malformed (hw : s.walkFrom ctx va 4 (s.rootOf ctx) = .error ()) : s.lookup c ctx va = (.error (), s) := by
  rw [lookup, if_neg hr]
  simp only [h1, h2, walk, if_neg hr, hw]

/-- A walk's leaf fills the core's buffer. -/
theorem lookup_leaf {e : TlbEntry} (hw : s.walkFrom ctx va 4 (s.rootOf ctx) = .ok (some e)) :
    ∃ u, s.lookup c ctx va = (.ok (some e), u) ∧ ((u.core c).tlb).head? = some e := by
  rw [lookup, if_neg hr]
  simp only [h1, h2, walk, if_neg hr, hw]
  refine ⟨_, rfl, ?_⟩
  simp [core, modCore_eq, setCore, fillTlb]

end

end State

/-- The walk of an address that no buffer holds, down to the level at which it ends (R279, R280). -/
theorem translate_walk {s : State} {c ctx va : Nat} (need : Need) (hr : s.rootOf ctx ≠ 0) (h1 : State.hitIn (s.core c).tlb ctx va = none)
    (h2 : State.hitIn (s.tlb2.get [] (dieOf c)) ctx va = none) (table : Nat → Nat) (l : Nat) (hl : l ≤ 4) (h4 : table 4 = s.rootOf ctx)
    (hp : ∀ j, l < j → j ≤ 4 → s.EntryPoints va j (table j) (table (j - 1))) :
    (bitOf (s.tableEntry va l (table l)) 0 = false → s.translate c ctx va need = (.miss, s)) ∧
    (s.EntryMalformed va l (table l) → s.translate c ctx va need = (.bad 0x18 1, s)) ∧
    (bitOf (s.tableEntry va l (table l)) 0 = true → ¬s.EntryMalformed va l (table l) → bitOf (s.tableEntry va l (table l)) 1 = true →
      (s.translate c ctx va need).1 = s.permitted need va (s.leafOf ctx va l (table l)) ∧
      ((s.translate c ctx va need).2.core c).tlb.head? = some (s.leafOf ctx va l (table l))) := by
  have hw := s.walkFrom_chain ctx va table hp 4 hl (le_refl 4)
  rw [h4] at hw
  refine ⟨fun hv => ?_, fun hm => ?_, fun hv hm hleaf => ?_⟩
  · exact State.translate_miss need (State.lookup_none hr h1 h2 (hw.trans (s.walkFrom_invalid ctx va hl hv)))
  · exact State.translate_error need (State.lookup_malformed hr h1 h2 (hw.trans (s.walkFrom_malformed ctx va hl hm)))
  · obtain ⟨u, hu, hh⟩ := State.lookup_leaf hr h1 h2 (hw.trans (s.walkFrom_leaf ctx va hl hv hm hleaf))
    rw [State.translate_hit need hu]
    exact ⟨rfl, hh⟩

/-- Settles O56: the messages and the walk, each by the lemma on it. -/
theorem memoryMessages : Obligations.MemoryMessages := by
  intro s m
  refine ⟨fun n => ⟨fun ⟨h, hn⟩ => ?_, fun ⟨h, hn⟩ => ?_⟩, fun b hb h ha hn h1 h2 => windowRead_block h hb ha hn h1 h2,
    fun h ha hn => windowRead_counters h ha hn, fun i hi region n size hh hb hl =>
      ⟨windowWrite_refused hi hh hb hl, windowWrite_effect hi hh hb hl⟩, fun h hl => ?_, fun c ctx va need => ?_⟩
  · subst hn
    exact directRead_effect h
  · subst hn
    exact directWrite_effect h
  · exact ⟨attested_length s _ ((HostMsg.data_length m).trans hl), _, exec_attestation h hl, State.reply_answers _ _ (State.hears_up h),
      State.sameStorage_reply s.sameStorage_refl ..⟩
  · exact ⟨fun hr => State.translate_miss need (State.lookup_rootless hr), fun hr e he => State.translate_hit need (State.lookup_core hr he),
      fun hr h1 h2 table l hl h4 hp => translate_walk need hr h1 h2 table l hl h4 hp⟩

end Sys2Proof.Machine
end

section
/-! O32 fails where the map of waves is out of its canonical order. -/

namespace Sys2Proof.Machine

/-! A memory form whose addresses translate first clears the wave's missed pages, and checks its rows for races only then. Writing the
wave puts the map of waves in ascending order. `clear` looks at the rows before that: where the map is out of order, and two live
adits take one row against R51, `aditAt?` finds another entry before than after, and the form may race after all. -/

/-- Wave 0 is about to load v9 at the offsets in v3. Its own adit and that of wave 1, which the map lists first, both take row 9, the
first row of v3; the row was last written by party 5 in the phase in which wave 0's adit is, wave 1's is in another. -/
def askew : State :=
  { window := [(0x10001, 0x40)]
    cores := [(0, { tlb := [{ ctx := 0, va := 0, bits := 16, pa := 0x10000, ex := false, wr := false, rd := true }] })]
    waves := [(1, { adits := [(0, { state := .live, first := 9, rows := 1, phase := 2 })] }),
              (0, { status := .running, present := 1, adits := [(0, { state := .live, first := 9, rows := 1, phase := 1 })] })]
    rows := [(9, { exp := true, pw := true, pty := 5, stp := 1 })] }

/-- The form meets what O32 asks: nothing holds its rows and none of them races. -/
theorem askew_clear : askew.clear (askew.inActive [3]) (askew.inActive [9]) := by decide +kernel

/-- Its one address translates. -/
theorem askew_locate : (askew.locate askew.cur 4 { rd := true, wr := false }
    ((memoryOf.vload askew 9 3 2 0 4).accesses.map (fun x => (x.1, x.2.1)))).1 = .at_ [0x10000] := by decide +kernel

/-- No operation is in flight after it: it raced. -/
theorem askew_races : (match exec (.vldw 9 3 2 0) askew with | .next t => t.ops.isEmpty | _ => true) = true := by decide +kernel

/-- Refutes O32: in `askew` a load meets every premise, but races once its wave has been written, and issues nothing. -/
theorem not_memoryFormsIssue : ¬ Obligations.MemoryFormsIssue := by
  intro h
  obtain ⟨-, hissue⟩ := h askew (.vldw 9 3 2 0) (memoryOf.vload askew 9 3 2 0 4) [0x10000] rfl (by decide +kernel) (by decide +kernel) (by decide +kernel)
    (by decide +kernel) askew_clear (by decide +kernel) askew_locate
  obtain ⟨t, o, hexec, ⟨hops, _⟩, _⟩ := hissue (by decide +kernel)
  have hnone := askew_races
  simp only [hexec, hops] at hnone
  simp at hnone

end Sys2Proof.Machine
end
